-- ==== Sys2Proof/Word.lean ====
section
/-! DEFINITION. The word types the manual treats as bits, with names for their widths (00 R7). -/

namespace Sys2Proof

/-- One byte. -/
abbrev Byte := BitVec 8
/-- A 16-bit word: block-signal counts and BF16 values. -/
abbrev W16 := BitVec 16
/-- A 32-bit word: FP32 values and U32 data. -/
abbrev W32 := BitVec 32
/-- A 64-bit word. -/
abbrev W64 := BitVec 64
/-- A car: 128 bits (06 R152). -/
abbrev Car := BitVec 128
/-- One of the four channels of the module (00 R4). -/
abbrev Ch := Fin 4
/-- One of the 384 clusters of a channel (00 R4). -/
abbrev Cl := Fin 384
/-- One of the 24 regions of a channel (00 R4). -/
abbrev Rg := Fin 24
/-- One of the five junction ports J0 to J4 of a channel (00 R4). -/
abbrev Pt := Fin 5

end Sys2Proof
end

