-- ==== Sys2Proof/Config.lean ====
section
/-! DEFINITION. What one module fixes and the manual leaves open: free values, keys, certificates, the public-key
algorithms the manual names and does not define, and the thermal coefficients. Every one is an opaque constant: nothing can
prove a value of it (log entries 3, 22, 23, 24). -/

namespace Sys2Proof

/-- A fresh free word for each number (log entry 3). -/
opaque Config.freeWord : Nat → W32
/-- A fresh free yes or no for each number: which granules a stopped car has written (03 R76, 08 R217). -/
opaque Config.freeBool : Nat → Bool
/-- The gauge code of the reference car of an occurrence to which no car contributes, in pass `pass` of step `tstep`: fixed by the run, as
numerics entries are (05 R140; log entry 28). -/
opaque Config.lostGauge (layer occ pass : Nat) (tstep : W32) : W32
/-- OCC and PASS of a numerics entry that a step boundary writes: `code` and layer of the entry, and the step (05 R140; log entry 28). -/
opaque Config.boundaryOcc (code layer : Nat) (tstep : W32) : W32
/-- PARAM of an ESCALATION_END entry (05 Table 05-7; log entry 28). -/
opaque Config.endParam (layer : Nat) (tstep : W32) : W32
/-- The set of a depot of `sets` sets that a line of host memory (`host`) or of the channel's own memory falls into, modulo `sets`
(08 R206; log entry 65). -/
opaque Config.depotSet (sets : Nat) (host : Bool) (line : Nat) : Nat
/-- Byte `i` that a DECOMPRESS restores from a stored head that 08 R211 does not define (log entry 11). -/
opaque Config.restored (head i : Nat) : Byte
/-- Falcon-1024 verification of a signature over a 64-byte digest by a public key (17 R376). -/
opaque Config.falconVerify (key digest sig : List Byte) : Bool
/-- The signature the identity key (none) or the channel key c makes over a digest (17 R376, R393). -/
opaque Config.falconSign (signer : Option Ch) (digest : List Byte) : List Byte
/-- ML-KEM-1024 encapsulation number `n` to a key: the ciphertext and the shared secret (17 R387, R388). -/
opaque Config.mlKem (n : Nat) (key : List Byte) : List Byte × List Byte
/-- The device nonce of set-up `n`, 32 bytes (17 Table 17-3). -/
opaque Config.deviceNonce (n : Nat) : List Byte
/-- The vendor public key in mask ROM (17 Table 17-1). -/
opaque Config.vendorKey : List Byte
/-- The identity public key the PUF gives (17 R377). -/
opaque Config.identityKey : List Byte
/-- Does the PUF reconstruction succeed (17 R377)? -/
opaque Config.pufOk : Bool
/-- The device certificate in flash (17 R377). -/
opaque Config.deviceCert : List Byte
/-- The channel public keys (17 R377). -/
opaque Config.channelKey (c : Ch) : List Byte
/-- The channel certificate of a boot (17 R377). -/
opaque Config.channelCert (c : Ch) : List Byte
/-- Does signal box c's firmware read back as verified (17 R382)? -/
opaque Config.firmwareReadsBack (c : Ch) : Bool
/-- The firmware floor of the mask ROM (17 R380). -/
opaque Config.romFloor : Nat
/-- The IDENTITY record 0x1018.00 (12 Table 12-4). -/
opaque Config.identityRecord : List Byte
/-- The vendor enterprise number that IDENTITY reports, as an MCTP message carries it (12 R296). -/
opaque Config.vendorNumber : List Byte
/-- The link-local address formed from the management MAC address (12 R296). -/
opaque Config.linkLocal : List Byte
/-- The FP32 thermal coefficients of a region: θ in K/W, τ in ms, k (15 R352). -/
opaque Config.theta (c : Ch) (r : Rg) : W32
/-- The FP32 time constant in ms of a region (15 R352). -/
opaque Config.tau (c : Ch) (r : Rg) : W32
/-- The FP32 position of a region in the coolant path (15 R352). -/
opaque Config.kPos (c : Ch) (r : Rg) : W32

/-- The condition number a CAR_INVALID entry gives for row `row` of the table of invalid cars of class `cls` (03 R89; log
entry 25). -/
opaque Config.carCondition (cls row : Nat) : Nat
/-- The engine number a CAR_INVALID entry gives for a car that no tile engine runs (03 R89; log entry 25). -/
opaque Config.carEngine (cls : Nat) : Nat

end Sys2Proof
end

