-- ==== Sys2Proof/Machine/Bits.lean ====
section
/-! DEFINITION. Byte order, bit fields and sparse tables: the helpers every family uses. -/

namespace Sys2Proof.Machine

/-- The little-endian value of a byte string (00 R7). -/
def natOfBytes : List Byte → Nat
  | [] => 0
  | b :: bs => b.toNat + 256 * natOfBytes bs

/-- The `n` bytes of a value, least significant first (00 R7). -/
def bytesOfNat : Nat → Nat → List Byte
  | 0, _ => []
  | n + 1, v => BitVec.ofNat 8 v :: bytesOfNat n (v / 256)

/-- Bits [hi:lo] of a value, both ends included (00 R7). -/
def bits (v hi lo : Nat) : Nat := v / 2 ^ lo % 2 ^ (hi + 1 - lo)

/-- One bit of a value. -/
def bitAt (v i : Nat) : Bool := v.testBit i

/-- A signed reading of the low `w` bits of a value, two's complement. -/
def signedOf (w v : Nat) : Int :=
  let u := v % 2 ^ w
  if u < 2 ^ (w - 1) then (u : Int) else (u : Int) - 2 ^ w

/-- The `w`-bit two's complement code of an integer. -/
def codeOf (w : Nat) (v : Int) : Nat := (v % (2 ^ w : Int)).toNat

/-- Ceiling division. -/
def ceilDiv (a b : Nat) : Nat := (a + b - 1) / b

/-- Do the ranges of `la` bytes from `a` and of `lb` bytes from `b` share a byte? -/
def overlaps (a la b lb : Nat) : Bool := decide (a < b + lb ∧ b < a + la ∧ 0 < la ∧ 0 < lb)

/-! ### Sparse tables

A table is a list of (key, value) pairs in one canonical form: keys strictly rising, and no entry equal to the value
an unlisted key reads as. -/

/-- A sparse table from numbers. -/
abbrev Tab (α : Type) := List (Nat × α)

/-- What key `k` reads as, `d` being the value of an unlisted key. -/
def Tab.get {α : Type} (d : α) : Tab α → Nat → α
  | [], _ => d
  | (a, v) :: t, k => if a = k then v else Tab.get d t k

/-- The table without key `k`. -/
def Tab.del {α : Type} (t : Tab α) (k : Nat) : Tab α := t.filter (fun p => p.1 != k)

/-- Insert an entry at its place in a table that does not list its key. -/
def Tab.ins {α : Type} (k : Nat) (v : α) : Tab α → Tab α
  | [] => [(k, v)]
  | (a, w) :: t => if k < a then (k, v) :: (a, w) :: t else (a, w) :: Tab.ins k v t

/-- Store `v` at key `k`: storing the value of an unlisted key removes the entry. -/
def Tab.put {α : Type} [DecidableEq α] (d : α) (t : Tab α) (k : Nat) (v : α) : Tab α :=
  if v = d then t.del k else Tab.ins k v (t.del k)

/-- The canonical form. -/
def Tab.wf {α : Type} [DecidableEq α] (d : α) (t : Tab α) : Bool :=
  decide (t.Pairwise (fun p q => p.1 < q.1) ∧ ∀ p ∈ t, p.2 ≠ d)

/-- Store a run of values at rising keys. -/
def Tab.putAll {α : Type} [DecidableEq α] (d : α) : Tab α → Nat → List α → Tab α
  | t, _, [] => t
  | t, k, v :: vs => Tab.putAll d (Tab.put d t k v) (k + 1) vs

/-- Read `n` keys from `k` on. -/
def Tab.getAll {α : Type} (d : α) (t : Tab α) (k n : Nat) : List α :=
  (List.range n).map (fun i => Tab.get d t (k + i))

/-- The first listed entry that satisfies a test. -/
def Tab.find {α : Type} (t : Tab α) (p : Nat → α → Bool) : Option (Nat × α) :=
  t.find? (fun e => p e.1 e.2)

/-- Replace element `i` of a list by a function of it. -/
def modAt {α : Type} (l : List α) (i : Nat) (f : α → α) : List α :=
  match l[i]? with
  | none => l
  | some x => l.set i (f x)

/-- A list without element `i`. -/
def dropAt {α : Type} (l : List α) (i : Nat) : List α := l.take i ++ l.drop (i + 1)

/-- The values of `f` at 0 to `n - 1`. -/
def tab {α : Type} (n : Nat) (f : Nat → α) : List α := (List.range n).map f

/-- Pad a byte string with zeros, or cut it, to `n` bytes. -/
def fitBytes (n : Nat) (bs : List Byte) : List Byte := (bs ++ List.replicate (n - bs.length) 0).take n

/-- Replace the bytes from offset `o` of a byte string by a piece. -/
def patch (bs : List Byte) (o : Nat) (piece : List Byte) : List Byte :=
  bs.take o ++ piece ++ bs.drop (o + piece.length)

/-- Bytes `o` to `o + n - 1` of a byte string, little-endian. -/
def field (bs : List Byte) (o n : Nat) : Nat := natOfBytes ((bs.drop o).take n)

end Sys2Proof.Machine
end

