-- ==== Sys2Proof/Machine/Float.lean ====
section
/-! DEFINITION. Exact values of the floating-point gauges and the FP32 operations (00 R10, 02 R48, R50): every
operation is computed exactly and rounded once. -/

namespace Sys2Proof.Machine

/-- The exact value of a stored element: NaN, an infinity, or a signed magnitude `man × 2^exp`. -/
inductive Fp where
  | nan
  | inf (neg : Bool)
  | fin (neg : Bool) (man : Nat) (exp : Int)
  deriving DecidableEq, Repr, Inhabited

/-- The canonical quiet NaN of FP32 (02 R48). -/
def nan32 : W32 := 0x7fc00000
/-- 1.0 in FP32. -/
def one32 : W32 := 0x3f800000

/-- A positive or negative zero. -/
def Fp.zero (neg : Bool) : Fp := .fin neg 0 0

/-- Is the value NaN? -/
def Fp.isNan : Fp → Bool
  | .nan => true
  | _ => false

/-- Is the value an infinity? -/
def Fp.isInf : Fp → Bool
  | .inf _ => true
  | _ => false

/-- Is the value +0 or −0? -/
def Fp.isZero : Fp → Bool
  | .fin _ m _ => m == 0
  | _ => false

/-- The sign of a value (a NaN has none). -/
def Fp.sign : Fp → Bool
  | .nan => false
  | .inf n => n
  | .fin n _ _ => n

/-- The value with its sign reversed. -/
def Fp.neg : Fp → Fp
  | .nan => .nan
  | .inf n => .inf !n
  | .fin n m e => .fin (!n) m e

/-- The magnitude of a value. -/
def Fp.abs : Fp → Fp
  | .nan => .nan
  | .inf _ => .inf false
  | .fin _ m e => .fin false m e

/-- The value of an IEEE-style code with `eb` exponent bits, `mb` fraction bits, bias `bias` and the special codes of
an all-ones exponent (02 R48, R47). -/
def decodeIeee (eb mb : Nat) (bias : Int) (x : Nat) : Fp :=
  let s := x.testBit (eb + mb)
  let e := bits x (eb + mb - 1) mb
  let m := x % 2 ^ mb
  if e = 2 ^ eb - 1 then (if m = 0 then .inf s else .nan)
  else if e = 0 then .fin s m (1 - bias - mb)
  else .fin s (2 ^ mb + m) (e - bias - mb)

/-- The value of an FP32 word (02 R48). -/
def decode32 (x : W32) : Fp := decodeIeee 8 23 127 x.toNat

/-- A magnitude `n × 2^e` as a count of units `2^u`, rounded down, with the part left over: (count, left over > half,
left over = half, left over ≠ 0, the 16 bits below the rounding position). -/
structure Cut where
  lo : Nat
  above : Bool
  half : Bool
  exact : Bool
  f16 : Nat
  deriving DecidableEq, Repr

/-- Cut a magnitude at the unit `2^u`; `sticky` says that the exact magnitude lies a little above `man × 2^exp`. -/
def cutAt (man : Nat) (exp u : Int) (sticky : Bool) : Cut :=
  if u ≤ exp then
    { lo := man * 2 ^ (exp - u).toNat, above := false, half := false, exact := !sticky, f16 := 0 }
  else
    let d := (u - exp).toNat
    let lo := man / 2 ^ d
    let r := man % 2 ^ d
    { lo := lo
      above := decide (2 ^ (d - 1) < r) || (decide (r = 2 ^ (d - 1)) && sticky)
      half := decide (r = 2 ^ (d - 1)) && !sticky
      exact := decide (r = 0) && !sticky
      f16 := r * 2 ^ 16 / 2 ^ d }

/-- How a rounding decides (02 R50): to nearest, ties to even; by a 16-bit ticket value; or towards +infinity on
magnitudes (the checking engine's sums, 05 R135). -/
inductive Rounding where
  | rne
  | sr (u : Nat)
  | up
  deriving DecidableEq, Repr

/-- Choose between the two neighbours of a cut (02 R50). -/
def Cut.round (c : Cut) (r : Rounding) : Nat :=
  match r with
  | .rne => if c.above || (c.half && c.lo % 2 == 1) then c.lo + 1 else c.lo
  | .sr u => if 2 ^ 16 ≤ c.f16 + u then c.lo + 1 else c.lo
  | .up => if c.exact then c.lo else c.lo + 1

/-- The unit of the grid with `mb` fraction bits and least unit `2^minU` at the magnitude `man × 2^exp`. -/
def gridUnit (mb : Nat) (minU : Int) (man : Nat) (exp : Int) : Int :=
  if man = 0 then minU else max minU ((man.log2 : Int) + exp - mb)

/-- Round a magnitude on an unbounded floating grid: the code the result would have if the grid went on above the
gauge's largest magnitude (02 R50). -/
def roundCode (mb : Nat) (minU : Int) (r : Rounding) (man : Nat) (exp : Int) (sticky : Bool) : Nat :=
  let u := gridUnit mb minU man exp
  let q := (cutAt man exp u sticky).round r
  if q = 0 then 0 else (u - minU).toNat * 2 ^ mb + q

/-- An FP32 word from a sign and a magnitude code: overflow gives an infinity (02 R51). -/
def pack32 (neg : Bool) (code : Nat) : W32 :=
  let c := if 0x7f800000 ≤ code then 0x7f800000 else code
  BitVec.ofNat 32 ((if neg then 0x80000000 else 0) + c)

/-- Round an exact magnitude into FP32. -/
def round32With (r : Rounding) (neg : Bool) (man : Nat) (exp : Int) (sticky : Bool) : W32 :=
  pack32 neg (roundCode 23 (-149) r man exp sticky)

/-- An exact value rounded once into FP32. -/
def Fp.to32With (r : Rounding) : Fp → W32
  | .nan => nan32
  | .inf n => if n then 0xff800000 else 0x7f800000
  | .fin n m e => round32With r n m e false

/-- An exact value rounded once into FP32 by RNE. -/
def Fp.to32 (x : Fp) : W32 := x.to32With .rne

/-- The exact sum of two values; the sum of opposite zeros or of opposite equal values is +0 under RNE (IEEE 754). -/
def Fp.add : Fp → Fp → Fp
  | .nan, _ => .nan
  | _, .nan => .nan
  | .inf a, .inf b => if a = b then .inf a else .nan
  | .inf a, _ => .inf a
  | _, .inf b => .inf b
  | .fin s m e, .fin t n f =>
    let g := min e f
    let a : Int := (m * 2 ^ (e - g).toNat : Nat)
    let b : Int := (n * 2 ^ (f - g).toNat : Nat)
    let c := (if s then -a else a) + (if t then -b else b)
    if c = 0 then (if m = 0 ∧ n = 0 then .fin (s && t) 0 g else .fin false 0 g)
    else .fin (decide (c < 0)) c.natAbs g

/-- The exact product of two values. -/
def Fp.mul : Fp → Fp → Fp
  | .nan, _ => .nan
  | _, .nan => .nan
  | .inf a, .inf b => .inf (a != b)
  | .inf a, .fin b n _ => if n = 0 then .nan else .inf (a != b)
  | .fin a m _, .inf b => if m = 0 then .nan else .inf (a != b)
  | .fin s m e, .fin t n f => .fin (s != t) (m * n) (e + f)

/-- add_fp32_rne (00 R10). -/
def add32 (a b : W32) : W32 := ((decode32 a).add (decode32 b)).to32
/-- sub_fp32_rne. -/
def sub32 (a b : W32) : W32 := ((decode32 a).add (decode32 b).neg).to32
/-- mul_fp32_rne. -/
def mul32 (a b : W32) : W32 := ((decode32 a).mul (decode32 b)).to32
/-- fma_fp32_rne: a × b + c with one rounding. -/
def fma32 (a b c : W32) : W32 := (((decode32 a).mul (decode32 b)).add (decode32 c)).to32

/-- The quotient of two values, rounded once into FP32 by RNE. -/
def divFp (a b : Fp) : W32 :=
  match a, b with
  | .nan, _ => nan32
  | _, .nan => nan32
  | .inf _, .inf _ => nan32
  | .inf s, .fin t _ _ => (Fp.inf (s != t)).to32
  | .fin s _ _, .inf t => (Fp.zero (s != t)).to32
  | .fin s m e, .fin t n f =>
    if n = 0 then (if m = 0 then nan32 else (Fp.inf (s != t)).to32)
    else if m = 0 then (Fp.zero (s != t)).to32
    else
      let k := 64 + n.log2
      let q := m * 2 ^ k / n
      round32With .rne (s != t) q (e - f - k) (decide (m * 2 ^ k % n ≠ 0))

/-- div_fp32_rne. -/
def div32 (a b : W32) : W32 := divFp (decode32 a) (decode32 b)

/-- The integer square root, one result bit at a time from bit `i - 1` down. -/
def isqrtBits : Nat → Nat → Nat → Nat
  | 0, _, r => r
  | i + 1, n, r =>
    let t := r + 2 ^ i
    isqrtBits i n (if t * t ≤ n then t else r)

/-- The integer square root. -/
def isqrt (n : Nat) : Nat := isqrtBits (n.log2 / 2 + 1) n 0

/-- The square root of a value, rounded once into FP32 by RNE. -/
def sqrtFp : Fp → W32
  | .nan => nan32
  | .inf n => if n then nan32 else 0x7f800000
  | .fin s m e =>
    if m = 0 then (Fp.zero s).to32
    else if s then nan32
    else
      let odd := e % 2 ≠ 0
      let m' : Nat := (if odd then 2 * m else m) * 2 ^ 128
      let e' : Int := (if odd then e - 1 else e) / 2 - 64
      let q := isqrt m'
      round32With .rne false q e' (decide (q * q ≠ m'))

/-- sqrt_fp32_rne. -/
def sqrt32 (a : W32) : W32 := sqrtFp (decode32 a)

/-- Is the first value less than the second? False when either is NaN; −0 equals +0. -/
def Fp.lt (a b : Fp) : Bool :=
  match a, b with
  | .nan, _ => false
  | _, .nan => false
  | .inf s, .inf t => s && !t
  | .inf s, _ => s
  | _, .inf t => !t
  | .fin _ _ _, .fin _ _ _ =>
    match a.add b.neg with
    | .fin s m _ => s && m != 0
    | _ => false

/-- Are the two values equal? False when either is NaN; −0 equals +0. -/
def Fp.eqv (a b : Fp) : Bool := !a.isNan && !b.isNan && !a.lt b && !b.lt a

/-- a ≤ b. -/
def Fp.le (a b : Fp) : Bool := a.lt b || a.eqv b

/-- FP32 comparisons (04 R99). -/
def lt32 (a b : W32) : Bool := (decode32 a).lt (decode32 b)
/-- a ≤ b on FP32 words. -/
def le32 (a b : W32) : Bool := (decode32 a).le (decode32 b)
/-- a = b on FP32 words. -/
def eq32 (a b : W32) : Bool := (decode32 a).eqv (decode32 b)
/-- Is the word a NaN? -/
def isNan32 (a : W32) : Bool := (decode32 a).isNan
/-- Is the word +0 or −0? -/
def isZero32 (a : W32) : Bool := (decode32 a).isZero
/-- Is the word an infinity? -/
def isInf32 (a : W32) : Bool := (decode32 a).isInf

/-- The canonical form of a word: every NaN becomes the canonical one (02 R48). -/
def canon32 (a : W32) : W32 := if isNan32 a then nan32 else a

/-- The smaller of two, NaN if either is NaN, −0 smaller than +0 (04 R99). -/
def min32 (a b : W32) : W32 :=
  if isNan32 a || isNan32 b then nan32
  else if lt32 a b then a
  else if lt32 b a then b
  else if (decode32 a).sign then a else b

/-- The larger of two, NaN if either is NaN, −0 smaller than +0 (04 R99). -/
def max32 (a b : W32) : W32 :=
  if isNan32 a || isNan32 b then nan32
  else if lt32 a b then b
  else if lt32 b a then a
  else if (decode32 a).sign then b else a

/-- The magnitude of a word; a NaN gives the canonical NaN (04 R99). -/
def abs32 (a : W32) : W32 := if isNan32 a then nan32 else a &&& 0x7fffffff
/-- The word with its sign reversed; a NaN gives the canonical NaN (04 R99). -/
def neg32 (a : W32) : W32 := if isNan32 a then nan32 else a ^^^ 0x80000000

/-- Multiply by a power of two exactly, before any rounding. -/
def Fp.scale (x : Fp) (k : Int) : Fp :=
  match x with
  | .fin s m e => .fin s m (e + k)
  | y => y

/-- s1 × 2^k, rounded only where it overflows or leaves the normal range (04 R99 LDEXP). -/
def ldexp32 (a : W32) (k : Int) : W32 := ((decode32 a).scale k).to32

/-- The FP32 word of a natural number, rounded once. -/
def natTo32 (n : Nat) : W32 := (Fp.fin false n 0).to32

/-- The integer a value is, if it is one. -/
def Fp.toInt? : Fp → Option Int
  | .fin s m e =>
    if 0 ≤ e then let v : Int := (m * 2 ^ e.toNat : Nat); some (if s then -v else v)
    else if m % 2 ^ (-e).toNat = 0 then let v : Int := (m / 2 ^ (-e).toNat : Nat); some (if s then -v else v)
    else none
  | _ => none

/-- floor(log2 |x|) of a finite non-zero value. -/
def Fp.expo? : Fp → Option Int
  | .fin _ m e => if m = 0 then none else some (m.log2 + e)
  | _ => none

end Sys2Proof.Machine
end

