-- ==== Sys2Proof/Machine/Trans.lean ====
section
/-! DEFINITION. The transcendental functions of Table 04-4 (04 R104): the exact value rounded once into FP32 by RNE.
Each is computed in fixed point with 420 bits below the point, far finer than any FP32 rounding position asks for, and
then rounded once. DEDUCED, log entry 20. -/

namespace Sys2Proof.Machine

/-- Bits below the point of the fixed-point values. -/
def fxP : Nat := 420
/-- 1.0 in fixed point. -/
def fxOne : Int := 2 ^ fxP

/-- A finite value in fixed point, rounded down. -/
def fxOf (neg : Bool) (man : Nat) (exp : Int) : Int :=
  let s := exp + fxP
  let v : Int := if 0 ≤ s then ((man * 2 ^ s.toNat : Nat) : Int) else ((man / 2 ^ (-s).toNat : Nat) : Int)
  if neg then -v else v

/-- Product in fixed point. -/
def fxMul (a b : Int) : Int := a * b / fxOne
/-- Quotient in fixed point. -/
def fxDiv (a b : Int) : Int := a * fxOne / b

/-- A fixed-point value rounded once into FP32; a zero takes the sign given. -/
def fxRound (v : Int) (zneg : Bool) : W32 :=
  if v = 0 then (Fp.zero zneg).to32 else round32With .rne (decide (v < 0)) v.natAbs (-fxP) true

/-- Σ over n of term n, where term (n + 1) = term n × x / den (n + 1). -/
def fxSeries (x : Int) (den : Nat → Int) : Nat → Nat → Int → Int → Int
  | 0, _, _, acc => acc
  | k + 1, n, t, acc =>
    let t' := fxMul t x / den (n + 1)
    fxSeries x den k (n + 1) t' (acc + t')

/-- 2 × atanh(z) = 2 (z + z³/3 + z⁵/5 + …). -/
def fxAtanh2 (z : Int) : Int :=
  let z2 := fxMul z z
  let rec go : Nat → Nat → Int → Int → Int
    | 0, _, _, acc => acc
    | k + 1, n, p, acc =>
      let p' := fxMul p z2
      go k (n + 2) p' (acc + p' / (n : Int))
  2 * go 140 3 z z

/-- ln 2. -/
def fxLn2 : Int := fxAtanh2 (fxOne / 3)

/-- arctan(1/q) = 1/q − 1/(3q³) + … for a whole q. -/
def fxAtanInv (q : Int) : Int :=
  let rec go : Nat → Int → Int → Bool → Int → Int
    | 0, _, _, _, acc => acc
    | k + 1, n, p, sub, acc =>
      let p' := p / (q * q)
      go k (n + 2) p' (!sub) (if sub then acc - p' / n else acc + p' / n)
  let p := (fxOne * 2 ^ 200) / q
  go 150 3 p true p

/-- π × 2^200 in fixed point (Machin's formula), for the exact argument reduction of every finite FP32 value. -/
def fxPiWide : Int := 4 * (4 * fxAtanInv 5 - fxAtanInv 239)

/-- e^r for |r| < 1 in fixed point. -/
def fxExpSmall (r : Int) : Int := fxSeries r (fun n => (n : Int)) 110 0 fxOne fxOne

/-- e^x as (value in [1, 2) or so, binary exponent). -/
def fxExp (x : Int) : Int × Int :=
  let n := x / fxLn2
  (fxExpSmall (x - n * fxLn2), n)

/-- e^x in plain fixed point, for x no more than about 128. -/
def fxExpPlain (x : Int) : Int :=
  let (v, n) := fxExp x
  if 0 ≤ n then v * 2 ^ n.toNat else v / 2 ^ (-n).toNat

/-- EXP (Table 04-4). -/
def exp32 (a : W32) : W32 :=
  match decode32 a with
  | .nan => nan32
  | .inf n => if n then 0 else 0x7f800000
  | .fin s m e =>
    if m = 0 then one32
    else
      let x := fxOf s m e
      if 90 * fxOne < x then 0x7f800000
      else if x < -110 * fxOne then 0
      else
        let (v, n) := fxExp x
        round32With .rne false v.natAbs (n - fxP) true

/-- ln of a positive magnitude, in fixed point. -/
def fxLog (m : Nat) (e : Int) : Int :=
  let k := m.log2
  -- y = m / 2^k lies in [1, 2); take it to [0.75, 1.5)
  let y : Int := ((m * 2 ^ fxP / 2 ^ k : Nat) : Int)
  let (y, ex) : Int × Int := if 3 * fxOne ≤ 2 * y then (y / 2, e + k + 1) else (y, e + k)
  fxAtanh2 (fxDiv (y - fxOne) (y + fxOne)) + ex * fxLn2

/-- LOG (Table 04-4). -/
def log32 (a : W32) : W32 :=
  match decode32 a with
  | .nan => nan32
  | .inf n => if n then nan32 else 0x7f800000
  | .fin s m e =>
    if m = 0 then 0xff800000
    else if s then nan32
    else if a = one32 then 0
    else fxRound (fxLog m e) false

/-- RSQRT (Table 04-4): 1/√x, rounded once. -/
def rsqrt32 (a : W32) : W32 :=
  match decode32 a with
  | .nan => nan32
  | .inf n => if n then nan32 else 0
  | .fin s m e =>
    if m = 0 then (if s then 0xff800000 else 0x7f800000)
    else if s then nan32
    else
      -- 1/√(m 2^e) with an even exponent: √(2^(2k) / m) × 2^(−e/2 − k)
      let odd := e % 2 ≠ 0
      let m' : Nat := if odd then 2 * m else m
      let e' : Int := if odd then e - 1 else e
      let n : Nat := 2 ^ 200 / m'
      let q := isqrt n
      round32With .rne false q (-(e' / 2) - 100) (decide (q * q * m' ≠ 2 ^ 200))

/-- TANH (Table 04-4). -/
def tanh32 (a : W32) : W32 :=
  match decode32 a with
  | .nan => nan32
  | .inf n => if n then 0xbf800000 else one32
  | .fin s m e =>
    if m = 0 then a
    else
      let x := fxOf false m e
      if 20 * fxOne < x then (if s then 0xbf800000 else one32)
      else
        let t := fxExpPlain (2 * x)
        let v := fxDiv (t - fxOne) (t + fxOne)
        fxRound (if s then -v else v) s

/-- SIGMOID (Table 04-4): 1 / (1 + e^−x). -/
def sigmoid32 (a : W32) : W32 :=
  match decode32 a with
  | .nan => nan32
  | .inf n => if n then 0 else one32
  | .fin s m e =>
    let x := fxOf false m e
    if 120 * fxOne < x then (if s then 0 else one32)
    else
      let t := fxExpPlain (-x)
      fxRound (if s then fxDiv t (fxOne + t) else fxDiv fxOne (fxOne + t)) false

/-- The standard normal distribution function at −x for x ≥ 0, and at x: Φ(x) = 1/2 + φ(x) Σ x^(2n+1) / (1·3·…·(2n+1)). -/
def fxPhi (x : Int) : Int × Int :=
  let x2 := fxMul x x
  let sum := fxSeries x2 (fun n => (2 * n + 1 : Int)) 900 0 x x
  let dens := fxExpPlain (-(x2 / 2))
  let inv : Int := (isqrt ((fxOne * fxOne * fxOne * 2 ^ 200 / (2 * fxPiWide)).toNat) : Nat)
  let t := fxMul (fxMul dens inv) sum
  (fxOne / 2 - t, fxOne / 2 + t)

/-- GELU (Table 04-4): x Φ(x). -/
def gelu32 (a : W32) : W32 :=
  match decode32 a with
  | .nan => nan32
  | .inf n => if n then 0x80000000 else 0x7f800000
  | .fin s m e =>
    if m = 0 then a
    else
      let x := fxOf false m e
      if 16 * fxOne < x then (if s then 0x80000000 else a)
      else
        let (lo, hi) := fxPhi x
        -- the product with the exact magnitude keeps a relative error far below any FP32 position
        let p := if s then lo else hi
        if p ≤ 0 then (Fp.zero s).to32
        else round32With .rne s (m * p.natAbs) (e - fxP) true

/-- The sine and cosine of a reduced argument |r| ≤ π/4, in fixed point. -/
def fxSinCos (r : Int) : Int × Int :=
  let r2 := -(fxMul r r)
  (fxSeries r2 (fun n => (2 * n * (2 * n + 1) : Int)) 70 0 r r,
   fxSeries r2 (fun n => ((2 * n - 1) * (2 * n) : Int)) 70 0 fxOne fxOne)

/-- Exact argument reduction: (quadrant, reduced argument in fixed point). -/
def fxReduce (neg : Bool) (man : Nat) (exp : Int) : Nat × Int :=
  -- x in units of 2^-(P + 200)
  let s := exp + fxP + 200
  let v : Int := if 0 ≤ s then ((man * 2 ^ s.toNat : Nat) : Int) else ((man / 2 ^ (-s).toNat : Nat) : Int)
  let v := if neg then -v else v
  let q := fxPiWide / 2
  let k := (v + q / 2) / q
  ((k % 4).toNat, (v - k * q) / 2 ^ 200)

/-- SIN (Table 04-4). -/
def sin32 (a : W32) : W32 :=
  match decode32 a with
  | .nan => nan32
  | .inf _ => nan32
  | .fin s m e =>
    if m = 0 then a
    else if m.log2 + e < -60 then
      -- sin x = x (1 − x²/6 + …): just inside x
      round32With .rne s (m * 2 ^ 200 - 1) (e - 200) true
    else
      let (k, r) := fxReduce s m e
      let (sn, cs) := fxSinCos r
      fxRound (match k with
        | 0 => sn
        | 1 => cs
        | 2 => -sn
        | _ => -cs) s

/-- COS (Table 04-4). -/
def cos32 (a : W32) : W32 :=
  match decode32 a with
  | .nan => nan32
  | .inf _ => nan32
  | .fin s m e =>
    if m = 0 then one32
    else if m.log2 + e < -60 then one32
    else
      let (k, r) := fxReduce s m e
      let (sn, cs) := fxSinCos r
      fxRound (match k with
        | 0 => cs
        | 1 => -sn
        | 2 => -cs
        | _ => sn) false

end Sys2Proof.Machine
end

