-- ==== Sys2Proof/Machine/Gauge.lean ====
section
/-! DEFINITION. The seven gauges: codes, block and tensor scales, widening, rounding, saturation and the conversion
counts (02 R34 to R55). -/

namespace Sys2Proof.Machine

/-- The gauges of Table 02-1. -/
inductive Gauge where
  | fp32 | bf16 | e4m3 | e5m2 | q4f | q4i | q2
  deriving DecidableEq, Repr, Inhabited

/-- The gauge a code names; codes 0x7 to 0xF are reserved (02 R34). -/
def Gauge.ofCode : Nat → Option Gauge
  | 0 => some .fp32
  | 1 => some .bf16
  | 2 => some .e4m3
  | 3 => some .e5m2
  | 4 => some .q4f
  | 5 => some .q4i
  | 6 => some .q2
  | _ => none

/-- The code of a gauge (Table 02-1). -/
def Gauge.code : Gauge → Nat
  | .fp32 => 0
  | .bf16 => 1
  | .e4m3 => 2
  | .e5m2 => 3
  | .q4f => 4
  | .q4i => 5
  | .q2 => 6

/-- Is the gauge narrow (Table 02-1)? -/
def Gauge.narrow : Gauge → Bool
  | .q4f => true
  | .q4i => true
  | .q2 => true
  | _ => false

/-- The ladder rung of a gauge (Table 02-1). -/
def Gauge.rung : Gauge → Nat
  | .q2 => 0
  | .q4f => 1
  | .q4i => 1
  | .e4m3 => 2
  | .e5m2 => 2
  | .bf16 => 3
  | .fp32 => 4

/-- Bits per element (Table 02-1). -/
def Gauge.bitsPer : Gauge → Nat
  | .fp32 => 32
  | .bf16 => 16
  | .e4m3 => 8
  | .e5m2 => 8
  | .q4f => 4
  | .q4i => 4
  | .q2 => 2

/-- The gauge of a ladder rung: rung 1 is Q4f or Q4i as `q4sel` says (05 R127). -/
def rungGauge (q4i : Bool) : Nat → Gauge
  | 0 => .q2
  | 1 => if q4i then .q4i else .q4f
  | 2 => .e4m3
  | 3 => .bf16
  | _ => .fp32

/-- The counts a converting car keeps (02 R53). -/
structure Counts where
  sat : Nat := 0
  nan : Nat := 0
  inf : Nat := 0
  stray : Nat := 0
  nanBlocks : Nat := 0
  deriving DecidableEq, Repr, Inhabited

/-- Counts add up. -/
def Counts.add (a b : Counts) : Counts :=
  { sat := a.sat + b.sat, nan := a.nan + b.nan, inf := a.inf + b.inf,
    stray := a.stray + b.stray, nanBlocks := a.nanBlocks + b.nanBlocks }

/-- The overflow count of a pass: saturation, NaN and infinity (05 R120). -/
def Counts.overflow (a : Counts) : Nat := a.sat + a.nan + a.inf

/-- The exact value of a code before any scale (Tables 02-2, 02-3, 02-5, 02-6; 02 R37 to R39, R46 to R48). -/
def decodeCode (g : Gauge) (c : Nat) : Fp :=
  match g with
  | .fp32 => decodeIeee 8 23 127 (c % 2 ^ 32)
  | .bf16 => decodeIeee 8 7 127 (c % 2 ^ 16)
  | .e5m2 => decodeIeee 5 2 15 (c % 2 ^ 8)
  | .e4m3 =>
    let c := c % 2 ^ 8
    if c % 128 = 127 then .nan
    else
      let e := bits c 6 3
      let m := c % 8
      if e = 0 then .fin (c.testBit 7) m (-9) else .fin (c.testBit 7) (8 + m) ((e : Int) - 10)
  | .q4f =>
    let c := c % 16
    let e := bits c 2 1
    let m := c % 2
    if e = 0 then .fin (c.testBit 3 && m != 0) m (-1) else .fin (c.testBit 3) (2 + m) ((e : Int) - 2)
  | .q4i =>
    let v := signedOf 4 c
    .fin (decide (v < 0)) v.natAbs 0
  | .q2 =>
    match c % 4 with
    | 1 => .fin false 1 0
    | 3 => .fin true 1 0
    | _ => .zero false

/-- Is the code a stray code: Q2 0b10 (02 R37)? -/
def strayCode (g : Gauge) (c : Nat) : Bool := g == .q2 && c % 4 == 2

/-- May the word be a tensor scale: a positive normal FP32 number (02 R41)? -/
def tensorScaleOk (t : W32) : Bool :=
  let n := t.toNat
  decide (0x00800000 ≤ n ∧ n < 0x7f800000)

/-- The value of a stored element (02 R42): `e` is the block scale byte, `t` the tensor scale, if any; one given for a broad gauge
multiplies as it does for a standard one (log entry 64). -/
def dequant (g : Gauge) (code e : Nat) (t : Option W32) : W32 :=
  if (match t with | some t => !tensorScaleOk t | none => false) then nan32
  else if g.narrow && e == 0xff then nan32
  else
    match decodeCode g code with
    | .nan => nan32
    | v =>
      let w := if g.narrow then v.scale ((e : Int) - 127) else v
      let w32 := w.to32
      match t with
      | none => w32
      | some t => if t = one32 then w32 else mul32 w32 t

/-- The value Mg of the scale rule (02 R44). -/
def Gauge.mg : Gauge → Nat
  | .q2 => 1
  | .q4i => 7
  | _ => 6

/-- Is `man × 2^exp` at most `k × 2^s`? -/
def magLe (man : Nat) (exp : Int) (k : Nat) (s : Int) : Bool :=
  let g := min exp s
  decide (man * 2 ^ (exp - g).toNat ≤ k * 2 ^ (s - g).toNat)

/-- The smallest whole s with man × 2^exp ≤ Mg × 2^s (02 R44 step 3), for a non-zero magnitude. -/
def scaleExp (g : Gauge) (man : Nat) (exp : Int) : Int :=
  let k : Int := man.log2 + exp
  let rec go : Nat → Int → Int
    | 0, s => s
    | n + 1, s => if magLe man exp g.mg s then s else go n (s + 1)
  go 6 (k - 4)

/-- The largest magnitude of finite values. -/
def maxMag (ys : List Fp) : Fp :=
  ys.foldl (fun a y => if a.lt y.abs then y.abs else a) (.zero false)

/-- The scale rule's block scale byte (02 R44 steps 1 to 3). -/
def blockScale (g : Gauge) (ys : List Fp) : Nat :=
  if ys.any (fun y => y.isNan || y.isInf) then 0xff
  else
    match maxMag ys with
    | .fin _ m e =>
      if m = 0 then 0
      else (max (-127) (min 127 (scaleExp g m e)) + 127).toNat
    | _ => 0xff

/-- The value to be narrowed, under a tensor scale: x / T rounded once into FP32, or x itself (02 R44). A tensor scale
that is not a positive normal number makes it NaN (02 R41). -/
def scaled (x : Fp) (t : Option W32) : Fp :=
  match t with
  | none => x
  | some t => if tensorScaleOk t then decode32 (divFp x (decode32 t)) else .nan

/-- The code of one element of a narrow block, y × 2^−s rounded (02 R44 step 4, R50, R51), and whether it saturated. -/
def narrowCode (g : Gauge) (s : Int) (r : Rounding) (y : Fp) : Nat × Bool :=
  match y with
  | .fin neg m e =>
    match g with
    | .q4f =>
      let c := roundCode 1 (-1) r m (e - s) false
      let c' := min c 7
      (if c' = 0 then 0 else (if neg then 8 + c' else c'), decide (7 < c))
    | .q4i =>
      let q := (cutAt m (e - s) 0 false).round r
      if neg then (if q = 0 then 0 else 16 - min q 8, decide (8 < q)) else (min q 7, decide (7 < q))
    | _ =>
      let q := (cutAt m (e - s) 0 false).round r
      (if q = 0 then 0 else (if neg then 3 else 1), decide (1 < q))
  | _ => (0, false)

/-- The result of narrowing a block: its scale byte, one code per element and the counts. -/
structure NarrowBlock where
  scale : Nat
  codes : List Nat
  counts : Counts
  deriving DecidableEq, Repr

/-- Narrow the values of one block (02 R44, R45). `supplied` is the scale byte read under SUPPLIED scales, none under
LOCAL; each value comes with its rounding. -/
def narrowBlock (g : Gauge) (supplied : Option Nat) (ys : List (Fp × Rounding)) : NarrowBlock :=
  let e : Nat := match supplied with
    | some b => if ys.any (fun y => y.1.isNan || y.1.isInf) then 0xff else b
    | none => blockScale g (ys.map (·.1))
  if e = 0xff then
    { scale := 0xff, codes := ys.map (fun _ => 0), counts := { nan := ys.length, nanBlocks := 1 } }
  else
    let cs := ys.map (fun y => narrowCode g ((e : Int) - 127) y.2 y.1)
    { scale := e, codes := cs.map (fun c => c.1), counts := { sat := (cs.filter (·.2)).length } }

/-- Narrow one value into a standard or broad gauge (02 R50, R51): the code and the counts. -/
def narrowOne (g : Gauge) (r : Rounding) (y : Fp) : Nat × Counts :=
  match g with
  | .fp32 =>
    let w := y.to32With r
    (w.toNat, { nan := if y.isNan then 1 else 0, inf := if isInf32 w then 1 else 0 })
  | .bf16 =>
    match y with
    | .nan => (0x7fc0, { nan := 1 })
    | .inf n => (if n then 0xff80 else 0x7f80, { inf := 1 })
    | .fin n m e =>
      let c := min (roundCode 7 (-133) r m e false) 0x7f80
      ((if n then 0x8000 else 0) + c, { inf := if c = 0x7f80 then 1 else 0 })
  | .e5m2 =>
    match y with
    | .nan => (0x7e, { nan := 1 })
    | .inf n => (if n then 0xfc else 0x7c, { inf := 1 })
    | .fin n m e =>
      let c := roundCode 2 (-16) r m e false
      ((if n then 0x80 else 0) + min c 0x7b, { sat := if 0x7b < c then 1 else 0 })
  | _ =>
    match y with
    | .fin n m e =>
      let c := roundCode 3 (-9) r m e false
      ((if n then 0x80 else 0) + min c 0x7e, { sat := if 0x7e < c then 1 else 0 })
    | _ => (0x7f, { nan := 1 })

/-- Bytes of `n` element codes packed little-endian (02 R36, 00 R7). -/
def packCodes (g : Gauge) (cs : List Nat) : List Byte :=
  let b := g.bitsPer
  let v := cs.foldr (fun c acc => c % 2 ^ b + 2 ^ b * acc) 0
  bytesOfNat (ceilDiv (cs.length * b) 8) v

/-- The code of element `i` of a packed byte string (02 R36). -/
def unpackCode (g : Gauge) (bs : List Byte) (i : Nat) : Nat :=
  match g with
  | .fp32 => field bs (4 * i) 4
  | .bf16 => field bs (2 * i) 2
  | .e4m3 => field bs i 1
  | .e5m2 => field bs i 1
  | .q2 => field bs (i / 4) 1 / 2 ^ (2 * (i % 4)) % 4
  | _ => field bs (i / 2) 1 / 2 ^ (4 * (i % 2)) % 16

/-- The next wider gauge (Table 02-9); rung 1 as the tensor's Q4SEL says. -/
def Gauge.wider (q4i : Bool) : Gauge → Option Gauge
  | .q2 => some (if q4i then .q4i else .q4f)
  | .q4f => some .e4m3
  | .q4i => some .e4m3
  | .e4m3 => some .bf16
  | .e5m2 => some .bf16
  | .bf16 => some .fp32
  | .fp32 => none

end Sys2Proof.Machine
end

