-- ==== Sys2Proof/Machine/Hash.lean ====
section
/-! DEFINITION. CRC-32C (16 R359), SHAKE256 (06 R141, 17 R376) and KMAC256 (17 R388). The two hash functions are those of
FIPS 202 and SP 800-185, which the manual names and does not print: PRESUMED, log entry 21. -/

namespace Sys2Proof.Machine

/-- One bit of the reflected CRC (16 R359). -/
def crcBit (c : W32) : W32 := if c.getLsbD 0 then (c >>> 1) ^^^ 0x82f63b78 else c >>> 1

/-- One byte of the reflected CRC. -/
def crcByte (c : W32) (b : Byte) : W32 :=
  crcBit (crcBit (crcBit (crcBit (crcBit (crcBit (crcBit (crcBit (c ^^^ b.setWidth 32))))))))

/-- CRC-32C of a byte string (16 R359). -/
def crc32c (bs : List Byte) : W32 := bs.foldl crcByte 0xffffffff ^^^ 0xffffffff

/-- One step of the round-constant register of Keccak. -/
def lfsrStep (r : Nat) : Nat := if 128 ≤ r then ((2 * r) ^^^ 0x171) % 256 else 2 * r

/-- The round constant of Keccak round `i`: bit 2^j − 1 is output 7i + j of the register. -/
def keccakRC (i : Nat) : W64 :=
  (List.range 7).foldl (fun acc j =>
    if (Nat.iterate lfsrStep (7 * i + j) 1).testBit 0 then acc ^^^ (1 <<< (2 ^ j - 1)) else acc) 0

/-- The rotation offsets of Keccak, lane x + 5y. -/
def keccakRot : List Nat :=
  [0, 1, 62, 28, 27, 36, 44, 6, 55, 20, 3, 10, 43, 25, 39, 41, 45, 15, 21, 8, 18, 2, 61, 56, 14]

/-- One round of Keccak-f[1600] on 25 lanes. -/
def keccakRound (a : List W64) (i : Nat) : List W64 :=
  let l (s : List W64) (k : Nat) : W64 := s.getD k 0
  let c := tab 5 (fun x => l a x ^^^ l a (x + 5) ^^^ l a (x + 10) ^^^ l a (x + 15) ^^^ l a (x + 20))
  let d := tab 5 (fun x => l c ((x + 4) % 5) ^^^ (l c ((x + 1) % 5)).rotateLeft 1)
  let t := tab 25 (fun k => (l a k ^^^ l d (k % 5)).rotateLeft (keccakRot.getD k 0))
  -- lane (x, y) moves to (y, 2x + 3y): read it back from where it came
  let p := tab 25 (fun k => let x := k % 5; let y := k / 5; l t ((x + 3 * y) % 5 + 5 * x))
  let q := tab 25 (fun k =>
    let x := k % 5; let y := k / 5
    l p k ^^^ (~~~ (l p ((x + 1) % 5 + 5 * y)) &&& l p ((x + 2) % 5 + 5 * y)))
  q.set 0 (l q 0 ^^^ keccakRC i)

/-- Keccak-f[1600]. -/
def keccakF (a : List W64) : List W64 := (List.range 24).foldl keccakRound a

/-- Absorb one block of 136 bytes. -/
def keccakAbsorb (a : List W64) (blk : List Byte) : List W64 :=
  keccakF (tab 25 (fun k =>
    let w := a.getD k 0
    if k < 17 then w ^^^ BitVec.ofNat 64 (field blk (8 * k) 8) else w))

/-- Absorb all whole blocks of a padded string; `n` bounds their number. -/
def keccakBlocks : Nat → List W64 → List Byte → List W64
  | 0, a, _ => a
  | n + 1, a, bs => if bs.isEmpty then a else keccakBlocks n (keccakAbsorb a (bs.take 136)) (bs.drop 136)

/-- The sponge of rate 1,088 with domain byte `dom` and up to 136 bytes of output. -/
def sponge256 (dom : Byte) (msg : List Byte) (out : Nat) : List Byte :=
  let n := msg.length
  let pad := 136 - n % 136
  let tail : List Byte := if pad = 1 then [dom ||| 0x80] else dom :: (List.replicate (pad - 2) 0 ++ [0x80])
  let a := keccakBlocks (n / 136 + 1) (List.replicate 25 0) (msg ++ tail)
  (a.flatMap (fun w => bytesOfNat 8 w.toNat)).take out

/-- SHAKE256 with 512-bit output (06 R141). -/
def shake256 (msg : List Byte) : List Byte := sponge256 0x1f msg 64

/-- A KEY_ID: the first 8 bytes of the digest of a public key (17 R376). -/
def keyId (key : List Byte) : List Byte := (shake256 key).take 8

/-- The bytes of a number, most significant first, at least one. -/
def bigBytes (n : Nat) : List Byte :=
  let k := n.log2 / 8 + 1
  (bytesOfNat k n).reverse

/-- left_encode of SP 800-185. -/
def leftEncode (n : Nat) : List Byte := let b := bigBytes n; BitVec.ofNat 8 b.length :: b
/-- right_encode of SP 800-185. -/
def rightEncode (n : Nat) : List Byte := let b := bigBytes n; b ++ [BitVec.ofNat 8 b.length]
/-- encode_string of SP 800-185. -/
def encodeString (s : List Byte) : List Byte := leftEncode (8 * s.length) ++ s
/-- bytepad of SP 800-185 at width 136. -/
def bytepad (s : List Byte) : List Byte :=
  let t := leftEncode 136 ++ s
  t ++ List.replicate ((136 - t.length % 136) % 136) 0

/-- KMAC256 with 256-bit output (17 R388). -/
def kmac256 (key msg custom : List Byte) : List Byte :=
  let name : List Byte := [0x4b, 0x4d, 0x41, 0x43]
  sponge256 0x04 (bytepad (encodeString name ++ encodeString custom) ++ bytepad (encodeString key) ++ msg ++ rightEncode 256) 32

end Sys2Proof.Machine
end

