-- ==== Sys2Proof/Machine/Ticket.lean ====
section
/-! DEFINITION. The ticket generator and the values drawn from it (04 R109 to R111, 03 R70, 04 R98). -/

namespace Sys2Proof.Machine

/-- The key of a leg (04 R109). -/
def ticketKey (seed : W64) (leg : Nat) : W64 := seed ^^^ (BitVec.ofNat 64 leg * 0x9e3779b97f4a7c15)

/-- The four output words of a ticket. -/
structure Ticket where
  x0 : W32
  x1 : W32
  x2 : W32
  x3 : W32
  deriving DecidableEq, Repr

/-- The rotation counts of the rounds (04 R109). -/
def ticketRot (t : Nat) : Nat :=
  match t % 8 with
  | 0 => 7
  | 1 => 19
  | 2 => 11
  | 3 => 25
  | 4 => 3
  | 5 => 29
  | 6 => 17
  | _ => 13

/-- One round of the generator and, after an odd round, its key injection (04 R109). -/
def ticketRound (k0 k1 : W32) (s : Ticket) (r : Nat) : Ticket :=
  let x0 := s.x0 + s.x1
  let x1 := s.x1.rotateLeft (ticketRot (2 * r)) ^^^ x0
  let x2 := s.x2 + s.x3
  let x3 := s.x3.rotateLeft (ticketRot (2 * r + 1)) ^^^ x2
  if r % 2 = 1 then
    { x0 := x0 + k0, x1 := x3 + k1, x2 := x2 + (k0 ^^^ k1),
      x3 := x1 + BitVec.ofNat 32 ((r + 1) / 2) * 0x9e3779b9 }
  else { x0 := x0, x1 := x3, x2 := x2, x3 := x1 }

/-- The ticket generator (04 R109). -/
def ticket (key : W64) (stream step : W32) (pos : W64) : Ticket :=
  let k0 := key.setWidth 32
  let k1 := (key >>> 32).setWidth 32
  let s : Ticket :=
    { x0 := pos.setWidth 32 + k0, x1 := (pos >>> 32).setWidth 32 + k1, x2 := step ^^^ k0, x3 := stream ^^^ k1 }
  (List.range 10).foldl (ticketRound k0 k1) s

/-- What fixes a car's draws: the ticket key and the channel's ticket step (04 R110). -/
structure Draw where
  key : W64
  step : W32
  deriving DecidableEq, Repr

/-- The ticket of a stream and a position. -/
def Draw.at (d : Draw) (stream pos : Nat) : Ticket :=
  ticket d.key (BitVec.ofNat 32 stream) d.step (BitVec.ofNat 64 pos)

/-- The 16-bit ticket value of a stream and a position (04 R109). -/
def Draw.u16 (d : Draw) (stream pos : Nat) : Nat := (d.at stream pos).x0.toNat % 2 ^ 16

/-- The stream id of a layer (03 R70, 04 R98). -/
def streamId (stream layer : Nat) : Nat := stream * 2 ^ 12 + layer

/-- The position of a narrowing draw (03 R70, 04 R98). -/
def narrowPos (seedPos i : Nat) : Nat := seedPos * 2 ^ 40 + 2 ^ 39 + i

/-- UNIFORM of a ticket: (w >> 8) × 2^−24 (04 R111). -/
def uniform32 (w : W32) : W32 := (Fp.fin false (w.toNat / 256) (-24)).to32

/-- NORMAL of a ticket (04 R111). -/
def normal32 (t : Ticket) : W32 :=
  let u1 := (Fp.fin false (t.x0.toNat / 256 + 1) (-24)).to32
  let u2 := (Fp.fin false (t.x1.toNat / 256) (-24)).to32
  mul32 (sqrt32 (mul32 0xc0000000 (log32 u1))) (cos32 (mul32 0x40c90fdb u2))

end Sys2Proof.Machine
end

