-- ==== Sys2Proof/Syntax.lean ====
section
/-! DEFINITION. The commands of the M40: one constructor for each row of spec/opcode_table.json (the steps of
95_what_each_step_holds.md), with the row's operands. A step that a car makes names the place where it happens (a channel
and a cluster) and the state holds the car; a step that something outside the module makes carries what arrives. -/

namespace Sys2Proof

/-- What a read of a memory can meet: an error that was corrected or went away on a retry, or damage that poisons the granule (08 R220,
16 R362, Table 16-7). -/
inductive MemErr where
  | corrected | retried | ecc | onDie | crcRetries | cxlPoison | mismatch
  deriving DecidableEq, Repr, Inhabited

/-- An error that a step's reads meet: an address in the granule and the kind. -/
structure MemFault where
  addr : Nat
  kind : MemErr
  deriving DecidableEq, Repr, Inhabited

/-- Where a car's step happens: a cluster of a channel (01 R12); and the memory errors that its reads, its car's among them, meet (08
R220). -/
structure At where
  ch : Ch
  cl : Cl
  faults : List MemFault := []
  deriving DecidableEq, Repr, Inhabited

/-- What the patrol scrub finds in a granule (16 R370). -/
inductive ScrubFinding where
  | clean
  | corrected
  | bad (kind : MemErr)
  deriving DecidableEq, Repr, Inhabited

/-- The path a dictionary request takes (12 Table 12-8): a channel mailbox, the module mailbox, or a session of the
management Ethernet or of MCTP over I3C (session 0 is the unauthenticated one). -/
inductive Via where
  | chMbox (c : Ch)
  | modMbox
  | eth (session : Nat)
  | i3c (session : Nat)
  deriving DecidableEq, Repr, Inhabited

/-- The payload of a HELLO wagon (09 Table 09-14). -/
structure Hello where
  rank : Nat
  port : Nat
  windowOpen : Bool
  align : Nat
  hops : Nat
  resetGen : Nat
  identity : Nat
  echoDelta : Nat
  echoTx : Nat
  txCount : Nat
  deriving DecidableEq, Repr, Inhabited

/-- A request head granule (09 Table 09-6). -/
structure ReqHead where
  addr : Nat
  seq : Nat
  length : Nat
  rank : Nat
  port : Nat
  epoch : Nat
  deriving DecidableEq, Repr, Inhabited

/-- A READ as it arrives: its head (09 Table 09-6), and the memory errors that its reading meets. -/
structure ReadReq extends ReqHead where
  faults : List MemFault := []
  deriving DecidableEq, Repr, Inhabited

/-- An atomic head granule (09 Table 09-6), with the combining round of its descriptor (Table 09-7). -/
structure AtomHead where
  addr : Nat
  seq : Nat
  rank : Nat
  port : Nat
  epoch : Nat
  a : Nat
  b : Nat
  round : Nat
  members : Nat
  deriving DecidableEq, Repr, Inhabited

/-- A response head granule (09 Table 09-6). -/
structure RespHead where
  seq : Nat
  status : Nat
  epoch : Nat
  rank : Nat
  result : Nat
  length : Nat
  deriving DecidableEq, Repr, Inhabited

/-- A mail head (09 Table 09-10). -/
structure MailHead where
  dstRank : Nat
  srcRank : Nat
  queue : Nat
  hops : Nat
  dstLeg : Nat
  dstIter : Nat
  msg : Nat
  length : Nat
  fragFirst : Nat
  tag : Nat
  deriving DecidableEq, Repr, Inhabited

/-- A mail acknowledgement (09 Table 09-10). -/
structure AckHead where
  dstRank : Nat
  srcRank : Nat
  status : Nat
  queue : Nat
  msg : Nat
  nextFrag : Nat
  deriving DecidableEq, Repr, Inhabited

/-- A CTRL wagon (09 Table 09-2): the acknowledged LSEQ, NAK, and the credits returned per lane. -/
structure Ctrl where
  ackSeq : Nat
  nak : Bool
  reqCredit : Nat
  respCredit : Nat
  mailCredit : Nat
  deriving DecidableEq, Repr, Inhabited

/-- The operation a DETOUR train carries (09 R239, Table 09-5). -/
inductive Inner where
  | read (h : ReqHead)
  | write (h : ReqHead) (data : List Byte) (poisoned : List Nat)
  | atomic (op : Nat) (h : AtomHead)
  deriving DecidableEq, Repr, Inhabited

/-- A yard message that has arrived whole (10 Table 10-6): its sender, the queue, the chunk and receiver slot it is for, and its bytes. -/
structure YardMsg where
  srcRank : Nat
  queue : Nat
  seg : Nat
  owner : Nat
  chunk : Nat
  slot : Nat
  data : List Byte
  poisoned : Bool
  deriving DecidableEq, Repr, Inhabited

/-- The measured figures of one millisecond (13 Table 13-7): FP32 watts, volts and amperes. -/
structure Measured where
  modulePower : W32
  volts : W32
  amps : W32
  channelPower : List W32
  moduleMilliJ : Nat
  channelMilliJ : List Nat
  deriving DecidableEq, Repr, Inhabited

/-- The scopes of easing (13 R313). -/
inductive EaseScope where
  | region (c : Ch) (r : Rg)
  | channel (c : Ch)
  | module
  deriving DecidableEq, Repr, Inhabited

/-- The averages that easing guards (13 R311, R313): of a region, its own current over 10 µs and the stay current it carries; of a channel,
its rail currents over 10 µs and over 1 ms, in the order VCORE_IN, VSRAM, VIO, VMEM; of the module, its input power over 10 µs. Currents
are in mA, power in mW. -/
structure Averages where
  own : Nat
  stay : Nat
  window : List Nat
  sustained : List Nat
  power : Nat
  deriving DecidableEq, Repr, Inhabited

/-- How a supply sag holds a region (14 R333, R334): the cycles by which it stretches the clock, and the counts for which the supply stands
below the set voltage. -/
structure Stretch where
  cycles : Nat
  counts : Nat
  deriving DecidableEq, Repr, Inhabited

/-- What the forecast reads of one region (15 R351, R352): four sensors in 1/64 °C and the region's power in FP32 watts. -/
structure RegionReading where
  temps : List Int
  power : W32
  deriving DecidableEq, Repr, Inhabited

/-- What the boot test and the characterisation find in one region (18 R396): the mask of failed cells and the lowest
voltage in mV at which it meets each reef step. -/
structure RegionBoot where
  failedCells : Nat
  mv : List Nat
  deriving DecidableEq, Repr, Inhabited

/-- The commands, one for each row of spec/opcode_table.json. -/
inductive Instr where
  /-- MATMUL (R56): A tile car with OP = MATMUL adds the products of its A and B tile blocks into 32 × 32 accumulators and writes the narrowed output tile. -/
  | matmul (w : At) (eng : Fin 4) (faults : List MemFault)
  /-- SUM (R80): A tile car with OP = SUM adds the elements of each active row and writes one FP32 value per row. -/
  | sum (w : At) (eng : Fin 4)
  /-- MAXABS (R81): A tile car with OP = MAXABS writes row or block maxima, or scale bytes in place, as RMODE selects. -/
  | maxabs (w : At) (eng : Fin 4)
  /-- TOPK (R82): A tile car with OP = TOPK writes the k largest or k smallest values of each row, with their positions and status. -/
  | topk (w : At) (eng : Fin 4)
  /-- REFETCH_DONE (R216): The shunter signals that it has written the last re-fetched block, and the mispredicted tile car restarts from its start. -/
  | refetchDone (w : At) (eng : Fin 4)
  /-- CROWSNEST_CHECK (R135): The checking engine completes its reference computation and compares each output element against the limit λ, with mismatches making cause C. -/
  | crowsnestCheck (c : Ch) (wrong : List (Nat × W32))
  /-- ADD (R99): A vector car writes s1 + s2 for each element. -/
  | add (w : At)
  /-- SUB (R99): A vector car writes s1 − s2 for each element. -/
  | sub (w : At)
  /-- MUL (R99): A vector car writes s1 × s2 for each element. -/
  | mul (w : At)
  /-- FMA (R99): A vector car writes s1 × s2 + s3 with one rounding for each element. -/
  | fma (w : At)
  /-- AXPBY (R99): A vector car writes fma(a, s1, mul(b, s2)) for each element. -/
  | axpby (w : At)
  /-- MIN (R99): A vector car writes the smaller of s1 and s2 for each element. -/
  | min (w : At)
  /-- MAX (R99): A vector car writes the larger of s1 and s2 for each element. -/
  | max (w : At)
  /-- ABS (R99): A vector car writes |s1| for each element. -/
  | abs (w : At)
  /-- NEG (R99): A vector car writes −s1 for each element. -/
  | neg (w : At)
  /-- DIV (R99): A vector car writes s1 / s2, correctly rounded, for each element. -/
  | div (w : At)
  /-- SQRT (R99): A vector car writes √s1, correctly rounded, for each element. -/
  | sqrt (w : At)
  /-- LDEXP (R99): A vector car writes s1 × 2^a for each element. -/
  | ldexp (w : At)
  /-- CLAMP (R99): A vector car writes min(max(s1, a), b) for each element. -/
  | clamp (w : At)
  /-- EXP (R104): A vector car writes the correctly rounded e^x of each element. -/
  | exp (w : At)
  /-- LOG (R104): A vector car writes the correctly rounded ln x of each element. -/
  | log (w : At)
  /-- RSQRT (R104): A vector car writes the correctly rounded 1/√x of each element. -/
  | rsqrt (w : At)
  /-- TANH (R104): A vector car writes the correctly rounded tanh x of each element. -/
  | tanh (w : At)
  /-- SIGMOID (R104): A vector car writes the correctly rounded sigmoid of each element. -/
  | sigmoid (w : At)
  /-- GELU (R104): A vector car writes the correctly rounded GELU of each element. -/
  | gelu (w : At)
  /-- SIN (R104): A vector car writes the correctly rounded sin x of each element. -/
  | sin (w : At)
  /-- COS (R104): A vector car writes the correctly rounded cos x of each element. -/
  | cos (w : At)
  /-- LT (R99): A vector car writes 1.0 where s1 < s2 and +0.0 otherwise. -/
  | lt (w : At)
  /-- LE (R99): A vector car writes 1.0 where s1 ≤ s2 and +0.0 otherwise. -/
  | le (w : At)
  /-- EQ (R99): A vector car writes 1.0 where s1 = s2 and +0.0 otherwise. -/
  | eq (w : At)
  /-- NE (R99): A vector car writes 1.0 where s1 ≠ s2 and +0.0 otherwise. -/
  | ne (w : At)
  /-- SELECT (R99): A vector car writes s1 where s3 is non-zero and not NaN, and s2 otherwise. -/
  | select (w : At)
  /-- GATHER (R103): A vector car writes the table values at the U32 indices of S2, or +0 for indices out of range. -/
  | gather (w : At)
  /-- SCATTER_ADD (R103): A vector car adds S1 elements into table D at the indices of S2, in element order. -/
  | scatterAdd (w : At)
  /-- SCAN_SUM (R101): A vector car computes a segmented inclusive sum along each lane. -/
  | scanSum (w : At)
  /-- SCAN_XSUM (R101): A vector car computes a segmented exclusive sum along each lane. -/
  | scanXsum (w : At)
  /-- SCAN_MAX (R101): A vector car computes a segmented running maximum along each lane. -/
  | scanMax (w : At)
  /-- DISC_REV (R101): A vector car computes reverse discounted sums along each lane, restarting at marked episode ends. -/
  | discRev (w : At)
  /-- SORT (R102): A vector car performs a stable sort of up to 4,096 keys, with an optional payload. -/
  | sort (w : At)
  /-- CONVERT (R97): A vector car converts s1 to the destination gauge. -/
  | convert (w : At)
  /-- SCALEGEN (R100): A vector car writes one block scale byte for each 32-element block of S1, for gauge GD. -/
  | scalegen (w : At)
  /-- RAW (R111): A vector car writes all 128 ticket output bits for each element. -/
  | raw (w : At)
  /-- UNIFORM (R111): A vector car writes a uniform value drawn from the ticket for each element. -/
  | uniform (w : At)
  /-- NORMAL (R111): A vector car writes a Box–Muller normal value drawn from the ticket for each element. -/
  | normal (w : At)
  /-- BERNOULLI (R111): A vector car writes 1.0 or +0.0 by comparing a ticket value with THR. -/
  | bernoulli (w : At)
  /-- DROPOUT (R112): A vector car keeps s1 × a or writes zero for each element, by a mask regenerated from tickets. -/
  | dropout (w : At)
  /-- ADAMW (R106): A fused optimiser car applies AdamW updates in place to FP32 master weights. -/
  | adamw (w : At)
  /-- LION (R106): A fused optimiser car applies Lion updates in place to FP32 master weights. -/
  | lion (w : At)
  /-- SGDM (R106): A fused optimiser car applies SGD-with-momentum updates in place to FP32 master weights. -/
  | sgdm (w : At)
  /-- RED_SUM (R100): A vector car reduces its elements to one FP32 sum in the fixed lane and tree order. -/
  | redSum (w : At)
  /-- RED_SUMSQ (R100): A vector car reduces its elements to one FP32 sum of squares. -/
  | redSumsq (w : At)
  /-- RED_MAX (R100): A vector car reduces its elements to their FP32 maximum. -/
  | redMax (w : At)
  /-- RED_MIN (R100): A vector car reduces its elements to their FP32 minimum. -/
  | redMin (w : At)
  /-- RED_MAXABS (R100): A vector car reduces its elements to their largest magnitude. -/
  | redMaxabs (w : At)
  /-- COPY (R210): A MOVE car in COPY mode moves bytes unchanged, linearly or as a gather, with optional zero-skip of blocks. -/
  | copy (w : At) (ahead : List Nat) (faults : List MemFault)
  /-- COMPRESS (R211): A MOVE car in COMPRESS mode writes the chunked compressed stream and, optionally, its length. -/
  | compress (w : At) (ahead : List Nat) (faults : List MemFault)
  /-- DECOMPRESS (R211): A MOVE car in DECOMPRESS mode restores the original bytes from a compressed stream. -/
  | decompress (w : At) (ahead : List Nat) (faults : List MemFault)
  /-- NARROW_E4M3 (R210): A MOVE car narrows BF16 or FP32 elements to E4M3 by RNE or SR. -/
  | narrowE4m3 (w : At) (ahead : List Nat) (faults : List MemFault)
  /-- WIDEN_E4M3 (R210): A MOVE car widens E4M3 elements exactly to BF16 or FP32. -/
  | widenE4m3 (w : At) (ahead : List Nat) (faults : List MemFault)
  /-- DEMAND_POINT (R212): A MOVE's destination wait is satisfied; demand bytes are fetched, stale granules are re-fetched, and the destination is written. -/
  | demandPoint (w : At) (slot : Nat) (faults : List MemFault)
  /-- END (R178): A world operation records END and TERM masks at ring step HEAD and updates the step, reset flag and counters of each slot. -/
  | worldEnd (w : At)
  /-- WORLD_RESET (R179): A world operation copies templates into flagged slots, increments EPISODE, applies randomised parameters, and clears RESET. -/
  | worldReset (w : At)
  /-- RECORD (R180): A world operation copies tender words of every world in range into the ring at step HEAD. -/
  | record (w : At)
  /-- ADVANCE (R181): A world operation advances the ring's HEAD, FILL and WRAPS. -/
  | advance (w : At)
  /-- SEND (R240): A doorbell write of a mail send descriptor starts sending a message in fragments to a receive queue of the destination rank. -/
  | send (w : At)
  /-- ATOMIC (R231): A doorbell write of an atomic descriptor sends an atomic request through the partner window. -/
  | atomic (w : At)
  /-- FENCE (R238): A FENCE doorbell write closes the current epoch and completes once all operations of the closed epochs are acknowledged. -/
  | fence (w : At)
  /-- SIGNAL_ADD (R153): A signal car adds AMOUNT to TARGET_SIG. -/
  | signalAdd (w : At)
  /-- SIGNAL_WAIT (R153): A signal car raises the wait target and holds the read point until the target is satisfied, acting as a consist fence. -/
  | signalWait (w : At)
  /-- LEG (R154): A LEG control car marks the start of a leg, where the read point stops until the boundary. -/
  | leg (w : At)
  /-- LOOP (R155): A LOOP control car opens a loop whose body is read ITER + 1 times. -/
  | loop (w : At)
  /-- ENDLOOP (R155): An ENDLOOP control car closes the innermost loop, repeating its body or leaving it. -/
  | endloop (w : At)
  /-- MARK (R165): A MARK control car opens a replay span and records the counts and targets of its signal range. -/
  | mark (w : At)
  /-- NOP (R155): A NOP control car has no effect. -/
  | nop (w : At)
  /-- COMMIT (R117): A COMMIT watch car reports its occurrence to the watch once every earlier car of its span has completed. -/
  | commit (w : At)
  /-- VERDICT (R124): The watch, holding PARTS + 1 reports and all crow's nest checks, decides commit, replay or HOLD for the pass. -/
  | verdict (c : Ch) (layer occ : Nat)
  /-- CONTRIBUTE_START (R256): A yard car sets the accumulator to the widened gradient. -/
  | contributeStart (w : At)
  /-- CONTRIBUTE_ADD (R256): A yard car adds the widened gradient into the accumulator. -/
  | contributeAdd (w : At)
  /-- CONTRIBUTE_FINAL (R256): A yard car adds the gradient to the accumulator and sends the narrowed leaves of every slice into the tree. -/
  | contributeFinal (w : At)
  /-- CONTRIBUTE_ONLY (R256): A yard car sends the narrowed gradient leaves of every slice into the tree. -/
  | contributeOnly (w : At)
  /-- DELIVER (R256): A yard car writes the slice's root sums to SUM_ADDR once they are complete, or receives them on a backup rank. -/
  | deliver (w : At)
  /-- PUBLISH (R254): A yard car on the owner sends its updated slice to every module's head. -/
  | publish (w : At)
  /-- AWAIT (R256): A yard car completes once every slice, and the statistics record where applicable, has been written. -/
  | await (w : At)
  /-- POST (R158): A car whose writes are all complete and visible makes its block-signal post. -/
  | post (c : Ch) (slot : Nat)
  /-- LEG_BOUNDARY (R162): Once all read points stand at the next LEG car and the leg has drained, the boundary actions run: the ticket step, rungs, exponents, signals, averages and settings are updated. -/
  | legBoundary (c : Ch)
  /-- SIGNAL_DEADLOCK (R160): Deadlock lasting 1,024 counts puts the channel in HOLD and logs the read points. -/
  | signalDeadlock (c : Ch)
  /-- SIGNAL_STALL (R160): STALL_LIMIT counts without a car completing put the channel in HOLD and log the read points. -/
  | signalStall (c : Ch)
  /-- TT_LOAD (R148): A TT_LOAD write discards any loaded image, then checks the staged image and writes its contents. -/
  | ttLoad (via : Via) (c : Ch) (addr : Nat)
  /-- LOAD_END (R148): A load ends, setting LOAD_RESULT and leaving the channel READY with or without the image. -/
  | loadEnd (c : Ch)
  /-- START (R149): LAUNCH START zeroes signals and loop counters and begins the run at START_LEG. -/
  | start (via : Via) (c : Ch)
  /-- RESUME (R149): LAUNCH RESUME continues a HOLD_REQUESTED channel with the next leg. -/
  | resume (via : Via) (c : Ch)
  /-- HOLD_REQUEST (R162): A HOLD_REQUEST write makes a RUNNING channel hold at its next leg boundary. -/
  | holdRequest (via : Via) (c : Ch)
  /-- STANDBY (R403): CHANNEL_CMD STANDBY writes back the depot, switches regions off into retention, and puts GDDR7 in self refresh. -/
  | standby (via : Via) (c : Ch)
  /-- WAKE (R403): CHANNEL_CMD WAKE brings GDDR7 out of self refresh and switches the required regions on. -/
  | wake (via : Via) (c : Ch)
  /-- RELEASE (R305): CHANNEL_CMD RELEASE returns a non-resumable HOLD to READY and discards the yard's work. -/
  | release (via : Via) (c : Ch)
  /-- RESET (R305): CHANNEL_CMD RESET performs a containment reset with cause 5. -/
  | reset (via : Via) (c : Ch)
  /-- POWER_OFF (R405): CHANNEL_CMD POWER_OFF stops the channel and switches off its rails in order. -/
  | powerOff (via : Via) (c : Ch)
  /-- POWER_ON (R305): CHANNEL_CMD POWER_ON starts the channel's boot sequence. -/
  | powerOn (via : Via) (c : Ch)
  /-- CLEAR_SAFE (R357): MODULE_CMD CLEAR_SAFE returns the module to NORMAL when the exit conditions hold. -/
  | clearSafe (via : Via)
  /-- BEGIN (R298): A BEGIN write opens a transaction for the session. -/
  | begin (via : Via)
  /-- TXN_COMMIT (R300): A COMMIT write checks the staged writes and either refuses the transaction or schedules it for a commit count. -/
  | txnCommit (via : Via)
  /-- ROLLBACK (R298): A ROLLBACK write discards the open transaction. -/
  | rollback (via : Via)
  /-- COMMIT_COUNT (R301): At the commit count, the keepers recheck and apply every staged write together, or none of them. -/
  | commitCount
  /-- TXN_TIMEOUT (R303): A transaction open for 10 s without COMMIT is rolled back. -/
  | txnTimeout (via : Via)
  /-- DB_START (R281): A doorbell entry with CMD START acts as LAUNCH START and writes a completion record. -/
  | dbStart (c : Ch)
  /-- DB_RESUME (R281): A doorbell entry with CMD RESUME acts as LAUNCH RESUME and writes a completion record. -/
  | dbResume (c : Ch)
  /-- DB_HOLD_REQUEST (R281): A doorbell entry with CMD HOLD_REQUEST acts as HOLD_REQUEST. -/
  | dbHoldRequest (c : Ch)
  /-- DB_TT_LOAD (R281): A doorbell entry with CMD TT_LOAD starts a load of the image at ARG. -/
  | dbTtLoad (c : Ch)
  /-- DB_NOP (R281): A doorbell entry with CMD NOP writes only its completion record. -/
  | dbNop (c : Ch)
  /-- DB_TAIL (R280): A DB_TAIL write advances the doorbell ring tail, or is discarded as an overrun. -/
  | dbTail (c : Ch) (value : Nat)
  /-- EVT_CONSUMED (R284): An EVT_CONSUMED write frees event-ring space, after which copying resumes with a NOTIFY_OVERFLOW entry. -/
  | evtConsumed (c : Ch) (value : Nat)
  /-- EVENT_NOTIFY (R284): The M40 writes the pending event entries, the producer count and the message-signalled write for a ring. -/
  | eventNotify (ring : Option Ch)
  /-- CH_MBOX_GO (R283): A write to a channel mailbox GO word submits the request in CH_MBOX_REQ. -/
  | chMboxGo (c : Ch)
  /-- MOD_MBOX_GO (R283): A write to the module mailbox GO word submits the request in MOD_MBOX_REQ. -/
  | modMboxGo (c : Ch)
  /-- LAYER_STATE (R139): A LAYER_STATE write is checked against the loaded image and restores layer state, clearing the interval statistics. -/
  | layerState (via : Via) (c : Ch) (offset : Nat) (value : List Byte)
  /-- ATTEST_NONCE (R393): A nonce write makes the keeper generate a signed attestation report within 5 ms. -/
  | attestNonce (via : Via) (scope : Option Ch) (offset : Nat) (value : List Byte)
  /-- FW_PENDING (R381): The last piece of a staged firmware block is verified, and FW_PENDING_STATE reads valid or refused. -/
  | fwPending (via : Via) (offset : Nat) (value : List Byte)
  /-- FLOOR_CERT (R380): A floor certificate write is verified and, if accepted, raises the floors. -/
  | floorCert (via : Via) (offset : Nat) (value : List Byte)
  /-- OWNER_KEY (R385): An owner key write in UNOWNED stores the key and, together with a floor certificate, takes the module to NORMAL. -/
  | ownerKey (via : Via) (offset : Nat) (value : List Byte)
  /-- OWNER_TRANSFER (R386): An owner-transfer block written to OWNER_KEY in NORMAL replaces the owner key and closes the old owner's sessions. -/
  | ownerTransfer (via : Via) (offset : Nat) (value : List Byte)
  /-- TENANT_SLOT (R390): A TENANT_SLOT write changes the channel's tenant through a containment reset, or at once while OFF. -/
  | tenantSlot (via : Via) (c : Ch) (value : List Byte)
  /-- CONFIG_MODULE (R400): A module configuration block write is verified and stored. -/
  | configModule (via : Via) (offset : Nat) (value : List Byte)
  /-- CONFIG_CHANNEL (R400): A channel configuration block write is verified and stored. -/
  | configChannel (via : Via) (c : Ch) (offset : Nat) (value : List Byte)
  /-- DEPOT_SIZE (R205): A DEPOT_SIZE write resizes the depot cache after writing back its dirty lines. -/
  | depotSize (via : Via) (c : Ch) (value : List Byte)
  /-- FAR_ENABLE (R200): Writing FAR_ENABLE to 1 releases expander reset and starts training of the CXL port. -/
  | farEnable (via : Via) (c : Ch) (value : List Byte)
  /-- FAR_TRAINED (R200): CXL training ends, with the far tier present or FAR_STATUS failed. -/
  | farTrained (c : Ch) (link : Option (Nat × Nat))
  /-- FAR_TIER_DOWN (R201): Loss of the CXL link poisons outstanding reads, discards writes, and puts a RUNNING channel in HOLD. -/
  | farTierDown (c : Ch)
  /-- LINK_ENABLE (R224): A LINK_ENABLE write starts training of a junction port. -/
  | linkEnable (via : Via) (c : Ch) (p : Pt) (value : List Byte)
  /-- LINK_UP (R224): A junction port's training succeeds and PARTNER reports the far end. -/
  | linkUp (c : Ch) (p : Pt) (hello : Hello)
  /-- PORT_FAILED (R224): A port's third successive failed training marks it FAILED. -/
  | portFailed (c : Ch) (p : Pt)
  /-- POWER_ALLOWANCE (R319): A POWER_ALLOWANCE change takes effect at its commit count with equal shares until the next share computation. -/
  | powerAllowance (via : Via) (value : List Byte)
  /-- ENTRY_WRITE (R290): A write to a dictionary entry without behaviour of its own is checked and stored, or refused. -/
  | entryWrite (via : Via) (index sub offset : Nat) (value : List Byte)
  /-- MANAGEMENT_DATAGRAM (R297): A management datagram is authenticated by TAG and SEQ; it is executed, answered with the stored response, or discarded. -/
  | managementDatagram (i3c : Bool) (datagram : List Byte)
  /-- OPEN (R387): An OPEN set-up message begins a session set-up and is answered with CHALLENGE. -/
  | openSession (i3c : Bool) (setup : Nat) (payload : List Byte)
  /-- RESPONSE (R388): A RESPONSE set-up message is verified and, if valid, opens the session with derived keys. -/
  | response (i3c : Bool) (setup : Nat) (payload : List Byte)
  /-- SETUP_TIMEOUT (R387): A session set-up not finished within 2 s is dropped. -/
  | setupTimeout (number : Nat)
  /-- SESSION_CLOSED (R297): A session with no accepted datagram for 60 s closes and rolls back its transaction. -/
  | sessionClosed (number : Nat)
  /-- READ (R235): A received READ request is applied in sequence order and answered with READ_DATA. -/
  | read (c : Ch) (p : Pt) (h : ReadReq)
  /-- WRITE (R235): A received WRITE request is applied in sequence order, made visible and acknowledged. -/
  | write (c : Ch) (p : Pt) (h : ReqHead) (data : List Byte) (poisoned : List Nat)
  /-- ATOMIC_ADD_64 (R233): A received 64-bit ADD atomic is applied once and answered with the old value. -/
  | atomicAdd64 (c : Ch) (p : Pt) (h : AtomHead)
  /-- ATOMIC_UMIN_64 (R233): A received 64-bit UMIN atomic is applied once and answered with the old value. -/
  | atomicUmin64 (c : Ch) (p : Pt) (h : AtomHead)
  /-- ATOMIC_UMAX_64 (R233): A received 64-bit UMAX atomic is applied once and answered with the old value. -/
  | atomicUmax64 (c : Ch) (p : Pt) (h : AtomHead)
  /-- ATOMIC_SMIN_64 (R233): A received 64-bit SMIN atomic is applied once and answered with the old value. -/
  | atomicSmin64 (c : Ch) (p : Pt) (h : AtomHead)
  /-- ATOMIC_SMAX_64 (R233): A received 64-bit SMAX atomic is applied once and answered with the old value. -/
  | atomicSmax64 (c : Ch) (p : Pt) (h : AtomHead)
  /-- ATOMIC_SWAP_64 (R233): A received 64-bit SWAP atomic stores A and is answered with the old value. -/
  | atomicSwap64 (c : Ch) (p : Pt) (h : AtomHead)
  /-- ATOMIC_CAS_64 (R233): A received 64-bit CAS atomic stores B when the old value equals A, and is answered with the old value. -/
  | atomicCas64 (c : Ch) (p : Pt) (h : AtomHead)
  /-- ATOMIC_ADD_32 (R233): A received 32-bit ADD atomic is applied once and answered with the old value. -/
  | atomicAdd32 (c : Ch) (p : Pt) (h : AtomHead)
  /-- ATOMIC_UMIN_32 (R233): A received 32-bit UMIN atomic is applied once and answered with the old value. -/
  | atomicUmin32 (c : Ch) (p : Pt) (h : AtomHead)
  /-- ATOMIC_UMAX_32 (R233): A received 32-bit UMAX atomic is applied once and answered with the old value. -/
  | atomicUmax32 (c : Ch) (p : Pt) (h : AtomHead)
  /-- ATOMIC_SMIN_32 (R233): A received 32-bit SMIN atomic is applied once and answered with the old value. -/
  | atomicSmin32 (c : Ch) (p : Pt) (h : AtomHead)
  /-- ATOMIC_SMAX_32 (R233): A received 32-bit SMAX atomic is applied once and answered with the old value. -/
  | atomicSmax32 (c : Ch) (p : Pt) (h : AtomHead)
  /-- ATOMIC_SWAP_32 (R233): A received 32-bit SWAP atomic stores A and is answered with the old value. -/
  | atomicSwap32 (c : Ch) (p : Pt) (h : AtomHead)
  /-- ATOMIC_CAS_32 (R233): A received 32-bit CAS atomic stores B when the old value equals A, and is answered with the old value. -/
  | atomicCas32 (c : Ch) (p : Pt) (h : AtomHead)
  /-- ROUND_TIMEOUT (R237): An incomplete combining round is applied after ROUND_TIMEOUT with the members present, and ROUND_INCOMPLETE is logged. -/
  | roundTimeout (c : Ch) (addr round : Nat)
  /-- READ_DATA (R235): A READ_DATA response is accepted once for its SEQ and its data is stored, poisoned where indicated. -/
  | readData (c : Ch) (p : Pt) (h : RespHead) (data : List Byte) (poisoned : List Nat)
  /-- WRITE_ACK (R232): A WRITE_ACK completes a WRITE train, which can complete a fence and a shunt car. -/
  | writeAck (c : Ch) (p : Pt) (h : RespHead)
  /-- ATOMIC_RESULT (R232): An ATOMIC_RESULT response writes the result record, or leads to HOLD on a refusing status. -/
  | atomicResult (c : Ch) (p : Pt) (h : RespHead)
  /-- MAIL (R242): A received mail train is checked, its fragments are written to the slot, and on the last fragment the completion record and post are made. -/
  | mail (c : Ch) (p : Pt) (h : MailHead) (data : List Byte) (poisoned : List Nat)
  /-- MAIL_ACK (R244): A MAIL_ACK advances the sender's acknowledged fragments, completes delivery, or ends the message undelivered. -/
  | mailAck (c : Ch) (p : Pt) (h : AckHead)
  /-- DETOUR (R239): A DETOUR train is applied by the partner's hub as if it had arrived on the original port. -/
  | detour (c : Ch) (p : Pt) (h : MailHead) (inner : Inner)
  /-- FORWARD (R241): A hub forwards a mail-lane or response-lane train for another rank by route table, or discards it when HOPS is 0. -/
  | forward (c : Ch) (p : Pt) (lane op : Nat) (h : MailHead) (data : List Byte) (poisoned : List Nat)
  /-- HELLO (R225): A received HELLO wagon updates PARTNER and time alignment, and treats a new reset generation as a partner reset. -/
  | hello (c : Ch) (p : Pt) (hello : Hello)
  /-- HELLO_TRANSMIT (R225): A junction-mode end sends a HELLO wagon every 2^16 counts while the port is up. -/
  | helloTransmit (c : Ch) (p : Pt)
  /-- CTRL (R228): A received CTRL wagon returns credits and, with NAK set, makes the sender resend from ACKSEQ + 1. -/
  | ctrl (c : Ch) (p : Pt) (k : Ctrl)
  /-- FAILED_WAGON (R228): A wagon failing LCRC or FEC makes the receiver send a NAK and discard up to the resent wagon. -/
  | failedWagon (c : Ch) (p : Pt) (lseq : Nat)
  /-- PORT_DOWN (R229): After 8 successive failures of one LSEQ, or 10 µs without FEC lock, the port goes DOWN, unacknowledged operations are resent elsewhere, and retraining starts. -/
  | portDown (c : Ch) (p : Pt) (lockLost : Bool)
  /-- CREDIT_RETURN (R230): A port returns freed lane credits in a CTRL wagon. -/
  | creditReturn (c : Ch) (p : Pt)
  /-- MAIL_TIMEOUT (R244): A message without acknowledgement progress for MAIL_TIMEOUT is resent from NEXT_FRAG. -/
  | mailTimeout (c : Ch) (slot : Nat)
  /-- MAIL_RETRY (R244): After MAIL_RETRY following MAIL_BUSY or MAIL_NOT_DUE, the message is resent. -/
  | mailRetry (c : Ch) (slot : Nat)
  /-- PARTNER_TIMEOUT (R239): Operations without a path or messages without progress for PARTNER_TIMEOUT put the channel in HOLD with PARTNER_LOST or MAIL_UNDELIVERABLE. -/
  | partnerTimeout (c : Ch) (mail : Bool) (slot : Nat)
  /-- DISCARDED_FRAME (R245): An Ethernet-mode frame that is not a valid mail datagram from a known peer is discarded and counted. -/
  | discardedFrame (c : Ch) (p : Pt)
  /-- NEIGHBOUR_SOLICITATION (R245): The M40 answers an IPv6 neighbour solicitation for its own address. -/
  | neighbourSolicitation (port : Option (Ch × Pt)) (target : List Byte)
  /-- LEAF (R260): A yard receives a BF16 LEAF message for a level-1 node against a credit. -/
  | leaf (c : Ch) (m : YardMsg)
  /-- PAIR (R260): A yard head receives an FP32 PAIR message against a credit. -/
  | pair (c : Ch) (m : YardMsg)
  /-- QUAD (R262): An owner receives a QUAD message from a head, starting the chunk's deadline clock or comparing backup copies. -/
  | quad (c : Ch) (m : YardMsg)
  /-- ROOT (R260): A backup rank receives the owner's FP32 slice sums in a ROOT message. -/
  | root (c : Ch) (m : YardMsg)
  /-- YARD_COPY (R254): A head receives the owner's updated slice in a COPY message and passes it on within its module. -/
  | yardCopy (c : Ch) (m : YardMsg)
  /-- SPREAD (R254): A rank receives an updated slice within its module and writes it to PCOPY_ADDR. -/
  | spread (c : Ch) (m : YardMsg)
  /-- CREDIT (R261): A yard receives a CREDIT message that permits it to send one data message. -/
  | credit (c : Ch) (m : YardMsg)
  /-- YARD_CREDIT (R261): A yard issues a credit in consumption order while more than 12 slots remain free. -/
  | yardCredit (c : Ch)
  /-- NODE_EVALUATION (R251): A tree node is evaluated once both of its inputs are available. -/
  | nodeEvaluation (c : Ch) (seg owner chunk level pos : Nat)
  /-- DEADLINE (R262): At a chunk's deadline, the owner uses the backup copy for a late primary. -/
  | deadline (c : Ch) (seg owner chunk m : Nat)
  /-- YARD_TIMEOUT (R264): YARD_TIMEOUT counts without yard progress put the channel in HOLD with RANK_LOST. -/
  | yardTimeout (c : Ch)
  /-- HOST_READ (R273): An inbound host read of channel memory is answered with current data, or with an unsupported-request completion. -/
  | hostRead (c : Ch) (addr len : Nat) (faults : List MemFault)
  /-- HOST_WRITE (R274): An inbound host write is applied in order, forms waybills, and completes once visible. -/
  | hostWrite (c : Ch) (addr : Nat) (data : List Byte)
  /-- RECALL (R275): A recall from the companion writes back the line's dirty sectors, invalidates the line, and marks watched staged copies stale. -/
  | recall (c : Ch) (hostAddr : Nat)
  /-- FLIT_REPLAY (R285): A FLIT failing CRC is replayed by the FLIT layer and counted. -/
  | flitReplay (c : Ch)
  /-- SLICE_UP (R272): A Sigiron slice completes training and carries traffic. -/
  | sliceUp (c : Ch) (link : Nat)
  /-- HOST_LINK_DOWN (R285): A slice going down poisons outstanding reads, discards writes and host lines, and may put the channel in HOLD. -/
  | hostLinkDown (c : Ch)
  /-- HOST_TIMEOUT (R285): A host-memory read without completion after HOST_TIMEOUT is handled as a slice loss. -/
  | hostTimeout (c : Ch)
  /-- SHED_N_ASSERT (R321): SHED_N low for 1 µs eases the module to SHED_POWER and schedules SHED_STEP in every channel. -/
  | shedNAssert
  /-- SHED_N_RELEASE (R321): SHED_N high for 10 µs removes the shed source, and the steps return upward. -/
  | shedNRelease
  /-- INPUT_RANGE (R309): An input from 33 V to 36 V for 100 µs sheds the module, and an input above 50 V is logged. -/
  | inputRange (volts : W32)
  /-- INPUT_RANGE_END (R309): An input at or above 36.5 V for 10 ms ends the low-input shed. -/
  | inputRangeEnd (volts : W32)
  /-- INPUT_LOSS (R404): An input below 33 V for 20 µs, or above 52 V, starts the power-loss sequence. -/
  | inputLoss (volts : W32)
  /-- MODULE_RESET_N (R404): Assertion of MODULE_RESET_N starts the power-loss sequence and holds the station master in reset. -/
  | moduleResetN
  /-- POWER_SHARE (R320): Every 1 ms the station master divides the allowance among channels by water-filling, and each channel re-evaluates its step. -/
  | powerShare (power : Measured)
  /-- SUSTAINED_LIMIT (R317): Each 1 ms, heavy sustained-limit easing takes a channel one step down, and 10 ms without it allows one step up. -/
  | sustainedLimit (c : Ch) (easedOf16 : Nat) (amps : List Nat)
  /-- EASING_RISE (R313): Every 0.25 µs, an easing level rises while a 10 µs average is within 3 % of its limit. -/
  | easingRise (scope : EaseScope) (a : Averages)
  /-- EASING_FALL (R313): Every 10 µs, an easing level falls while every guarded average is below 90 %. -/
  | easingFall (scope : EaseScope) (a : Averages)
  /-- MARGIN_MONITOR (R312): Every 2^20 counts, critical-path margins are read and region voltages adjusted, or the region is slowed. -/
  | marginMonitor (c : Ch) (r : Rg) (margin : Nat)
  /-- UPSHIFT_RAMP (R318): 1,024 counts before an upward change, regions start raising their voltage. -/
  | upshiftRamp (c : Ch)
  /-- VOLTAGE_CHECK (R318): 64 counts before an upward change, a region short of its voltage cancels the change. -/
  | voltageCheck (c : Ch) (mv : List Nat)
  /-- FREQUENCY_CHANGE (R337): At the change count, every divider switches and λ is reset, unless a droop report cancels an upward change. -/
  | frequencyChange (c : Ch)
  /-- DROOP (R333): A supply sag stretches the region's cycles and trips its droop detector. -/
  | droop (c : Ch) (r : Rg) (mvBelow : Nat) (held : Stretch)
  /-- CELL_FAILED (R326): A faulty regulator cell is disconnected and the region is derated. -/
  | cellFailed (c : Ch) (r : Rg) (cell : Fin 16) (cause : Nat)
  /-- REGION_LOST (R327): A lost region closes its stays, goes dark, and the channel enters HOLD with REGION_LOST or discards an image that requires it. -/
  | regionLost (c : Ch) (r : Rg) (cause : Nat)
  /-- CONVERTER_FAULT (R365): A stage-one converter fault switches off that channel's rails and puts the channel in OFF. -/
  | converterFault (c : Ch) (rail : Fin 4)
  /-- RAMP_GRANT (R324): A waiting region receives a ramp grant once 60 A of headroom exists, and starts ramping. -/
  | rampGrant (c : Ch) (amps : Nat)
  /-- REGION_ON (R324): A ramping region reaches its voltage, its clock starts, and its consists may issue. -/
  | regionOn (c : Ch) (r : Rg)
  /-- RAMP_RELEASE (R324): 10 µs after a region is on, its 60 A reservation is released. -/
  | rampRelease (c : Ch) (r : Rg)
  /-- RAMP_DENIED (R324): 2 ms without a grant puts a RUNNING channel in HOLD with RAMP_DENIED. -/
  | rampDenied (c : Ch) (r : Rg) (amps : Nat)
  /-- RAMP_WAIT (R324): A channel that is not RUNNING logs RAMP_WAIT at 2 ms and every 100 ms while it waits. -/
  | rampWait (c : Ch) (r : Rg)
  /-- THERMAL_FORECAST (R352): Every 250 µs, sensors are read, pair rules applied, and the forecast and model computed to set each region's thermal step. -/
  | thermalForecast (c : Ch) (readings : List RegionReading)
  /-- SENSOR_CLEARED (R351): A suspect pair in agreement for 60 s returns to agree. -/
  | sensorCleared (c : Ch) (r : Rg) (pair : Fin 2)
  /-- THERMAL_TRIP (R354): A 110 °C comparator fires, asserting TRIP_N, stopping every region, and putting the module in SAFE. -/
  | thermalTrip (c : Ch) (r : Rg) (sensor : Fin 4) (reading : Int)
  /-- COOLANT_POLL (R349): Every 10 ms the coolant sensors are read and checked, sensors are marked lost, and the module becomes NORMAL on the first good poll. -/
  | coolantPoll (first second third : Option (Nat × Nat))
  /-- COOLANT_LOSS (R348): Flow below 4.0 L/min, or a lost flow sensor, for 500 ms puts the module in SAFE. -/
  | coolantLoss
  /-- INLET_HIGH (R348): Inlet above 55 °C for 500 ms puts the module in SAFE. -/
  | inletHigh
  /-- THERMAL_POWER_OFF (R356): A sensor at 105 °C or more 1 s after entry to SAFE switches off every channel's rails. -/
  | thermalPowerOff (c : Ch) (r : Rg) (sensor : Fin 4) (reading : Int)
  /-- CONTROL_UNCORRECTABLE (R365): An uncorrectable error in control state starts a containment reset. -/
  | controlUncorrectable (c : Ch) (structureNo cluster : Nat)
  /-- COMPARATOR_TRIP (R366): A safety comparator fires and starts a containment reset. -/
  | comparatorTrip (c : Ch) (comparator die : Nat)
  /-- ROOT_PLL_LOCK_LOSS (R22): Loss of lock of a channel's root PLL starts a containment reset. -/
  | rootPllLockLoss (c : Ch)
  /-- WATCHDOG_EXPIRY (R365): Expiry of the signal box firmware watchdog after 100 ms starts a containment reset. -/
  | watchdogExpiry (c : Ch)
  /-- COMPARATOR_TEST (R366): Every 2^24 counts the comparators are tested, and a failure starts a containment reset. -/
  | comparatorTest (c : Ch) (failed : Option (Nat × Nat))
  /-- RESET_DONE (R367): The containment reset completes, HELLO is sent with a new reset generation, and the channel is READY. -/
  | resetDone (c : Ch)
  /-- PATROL_SCRUB (R370): The patrol scrub reads granules periodically, corrects errors, and poisons uncorrectable granules. -/
  | patrolScrub (c : Ch) (addr : Nat) (found : ScrubFinding)
  /-- REFCLK_LOST (R342): Loss or drift of REFCLK puts the roots into holdover. -/
  | refclkLost
  /-- REFCLK_RESTORED (R342): REFCLK within 100 ppm for 10 ms makes the roots relock together. -/
  | refclkRestored
  /-- ALIGN_TIMEOUT (R344): 2^20 counts with no time source make the module fall back to UNALIGNED. -/
  | alignTimeout
  /-- POWER_UP (R395): At t0, the standby converter starts and the mask ROM verifies firmware, falling back to the other bank or to RECOVERY. -/
  | powerUp
  /-- STATION_MASTER_READY (R395): The station master becomes ready, applies the module configuration block, and sets boot start B for the channels. -/
  | stationMasterReady
  /-- ROOT_LOCK (R397): A booting channel's root locks once REFCLK is in tolerance, and the departure count is released or loaded. -/
  | rootLock (c : Ch)
  /-- GDDR7_TRAINING (R197): A GDDR7 training attempt ends, with success or retry, or with FAULT after three attempts. -/
  | gddr7Training (c : Ch) (device : Fin 8) (ok : Bool)
  /-- REGION_GROUP (R396): A region group is switched on, cell-tested, characterised and switched off, with failing regions lost. -/
  | regionGroup (c : Ch) (group : Fin 4) (results : List RegionBoot)
  /-- CHANNEL_BOOTED (R395): After the comparator tests and the channel configuration block, the booting channel enters READY. -/
  | channelBooted (c : Ch) (failed : Option (Nat × Nat))
  /-- BOOT_WAIT (R397): A boot waiting for REFCLK or for NORMAL logs BOOT_WAIT. -/
  | bootWait (c : Ch)
  /-- JOULES_PER_TOKEN (R329): JOULES_PER_TOKEN is recomputed once 1 s has passed and tokens have been added. -/
  | joulesPerToken
  /-- LIFETIME_SERVICE (R375): LIFETIME_SERVICE is written to flash every hour. -/
  | lifetimeService
  /-- HOST_COMPLETION (R278): A completion from the companion arrives for an outbound host-memory read or write, returning the data, poisoned where the FLIT layer indicates, or completing the write for R158. -/
  | hostCompletion (c : Ch) (id : Nat) (data : List Byte) (poisoned : Bool)
  /-- DYNAMIC_ADDRESS_ASSIGNMENT (R412): The tray's I3C controller assigns the M40's I3C target a dynamic address by ENTDAA, or by SETDASA at static address 0x52. -/
  | dynamicAddressAssignment (addr : Nat) (setdasa : Bool)
  deriving DecidableEq, Repr, Inhabited

end Sys2Proof
end

