-- ==== Sys2Proof/Machine/State.lean ====
section
/-! DEFINITION. The state of one module: the station master, the four channels with their clusters, memories, ports, yards,
host slices and regions, the messages sent, and the queue of waiting commands. Plain data throughout. -/

namespace Sys2Proof.Machine

/-- The reasons the machine could stop with a fault. There is none: every outcome the manual describes is a state. Nothing
raises one, which is safe. -/
inductive Fault where
  deriving DecidableEq, Repr

/-- The reasons a command has no meaning. -/
inductive Refusal where
  /-- Raised by an arm of `exec` whose command has no meaning yet; safe (the model stops where the hardware goes on). -/
  | notModelled (mnemonic : String)
  deriving DecidableEq, Repr

/-! ### The event log -/

/-- An event-log entry (16 Table 16-5): its parameters are bytes 12 to 31. `order` is the SOURCE that places it among
entries of equal COUNT: its own, or that of the entry it follows (16 R372, R373). -/
structure LogEntry where
  count : Nat
  source : Nat
  code : Nat
  param : List Byte
  order : Nat
  deriving DecidableEq, Repr, Inhabited

/-! ### Sequencers and engines -/

/-- An open loop: the car after its LOOP, its last iteration number, and the iteration in progress (06 R155). -/
structure LoopFrame where
  body : Nat
  last : Nat
  iter : Nat
  deriving DecidableEq, Repr, Inhabited

/-- The replay pass a car belongs to (05 R126, R127): layer, occurrence, pass, rung, and the engines a relocated replay
moves (05 R136). -/
structure SpanRef where
  layer : Nat
  occ : Nat
  pass : Nat
  rung : Nat
  moved : List (Nat × Nat)
  deriving DecidableEq, Repr, Inhabited

/-- A car in a queue: its bits, its place in the consist, the wait targets formed when it was read (06 R156, 08 R208), the
iteration numbers of its open loops, the span it stands in, its number among the cars its cluster has read, and its
tile-car ordinal (05 R133). -/
structure QCar where
  car : Car
  pos : Nat
  wait : Option (Nat × W16)
  dst : Option (Nat × W16)
  iters : List Nat
  span : Option SpanRef
  inst : Nat
  ordinal : Nat
  deriving DecidableEq, Repr, Inhabited

/-- The state of a tile engine inside a chain (03 R71): the record and addresses that the chain's cars share, the 1,024
long accumulators, the tile blocks and runs done, what the reductions carry, and whether every run so far was exact (03 R67). -/
structure Chain where
  setAddr : Nat
  cAddr : Nat
  mAct : Nat
  nAct : Nat
  op : Nat
  blocks : Nat
  included : List Nat
  acc : Tab W32
  refAcc : Tab W32
  top : Tab (List (W32 × Nat))
  nans : Tab Nat
  maxes : Tab W32
  sigma : Tab W32
  promos : Nat
  sampled : Bool
  exact : Bool
  ids : List Nat
  deriving DecidableEq, Repr, Inhabited

/-- Staged bytes that lie within one granule, the count at which they arrived, and whether run-ahead brought them (08 R212, R219). -/
structure Staged where
  addr : Nat
  data : List Byte
  poisoned : Bool
  stale : Bool
  cameAt : Nat
  ahead : Bool
  deriving DecidableEq, Repr, Inhabited

/-- A mispredicted car waiting for its missing blocks (03 R84, 08 R216), with what the shunter has fetched from outside the
channel. -/
structure Refetch where
  q : QCar
  blocks : List Nat
  id : Nat
  staged : List Staged
  deriving DecidableEq, Repr, Inhabited

/-- An active MOVE (08 R208, R212): its car number, its descriptor, the tile blocks it carries under NZ_EN, what it has staged,
whether its demand point has passed, and when. -/
structure Move where
  q : QCar
  id : Nat
  desc : Nat
  blocks : List Nat
  staged : List Staged
  started : Bool
  demandAt : Nat
  deriving DecidableEq, Repr, Inhabited

/-- The open replay span of a consist: its MARK, the signal range it owns, the tile-car ordinal, the open loops and the wait
targets of the range at the MARK (06 R164, R165). -/
structure OpenSpan where
  ref : SpanRef
  markPos : Nat
  sigLo : Nat
  sigHi : Nat
  ordinal : Nat
  loops : List LoopFrame
  targets : Tab W16
  deriving DecidableEq, Repr, Inhabited

/-- A replay in progress in a consist: where reading goes on after it, and the cars it displaced (05 R126). -/
structure Replay where
  span : OpenSpan
  backPos : Nat
  backLoops : List LoopFrame
  backQueues : Tab (List QCar)
  backSpan : Option OpenSpan
  backOrdinal : Nat
  deriving DecidableEq, Repr, Inhabited

/-- A COMMIT car that the read point has passed and that has not reported yet (05 R117). -/
structure WaitingCommit where
  car : Car
  pos : Nat
  span : OpenSpan
  deriving DecidableEq, Repr, Inhabited

/-- One cluster (01 R12 to R16). `lastNz` holds, by map pair, descriptor and consist offset of the latest completed MOVE with NZ_EN
(08 R216). -/
structure Cluster where
  sigs : Tab W16
  targets : Tab W16
  pos : Nat
  loops : List LoopFrame
  queues : Tab (List QCar)
  chains : Tab (Option Chain)
  refetch : Tab (Option Refetch)
  moves : List Move
  lastNz : Tab (Option (Nat × Nat))
  vregs : Tab W32
  span : Option OpenSpan
  replays : List Replay
  commits : List WaitingCommit
  issued : Tab Nat
  inst : Nat
  ordinal : Nat
  deadCars : Bool
  zsPred : Nat
  zsMis : Nat
  zsLost : Nat
  oor : Nat
  cycles : Tab Nat
  deriving DecidableEq, Repr, Inhabited

/-- A cluster at launch: nothing read, every count and target 0 (06 R149). -/
def Cluster.fresh : Cluster :=
  { sigs := [], targets := [], pos := 0, loops := [], queues := [], chains := [], refetch := [], moves := [], lastNz := []
    vregs := [], span := none, replays := [], commits := [], issued := [], inst := 0, ordinal := 0
    deadCars := false, zsPred := 0, zsMis := 0, zsLost := 0, oor := 0, cycles := [] }

/-- A completed car whose post is still to be made (06 R158): `id` names the car, `sig` its signal. -/
structure PendPost where
  id : Nat
  cl : Nat
  sig : Nat
  deriving DecidableEq, Repr, Inhabited

/-! ### The watch -/

/-- The state of a watched layer (05 Table 05-6, LAYER_STATE). -/
structure LayerState where
  outAvg : W32
  gradAvg : W32
  outCount : Nat
  gradCount : Nat
  sg : Int
  rung : Nat
  hold : Nat
  deriving DecidableEq, Repr, Inhabited

/-- The zero layer state. -/
def LayerState.zero : LayerState :=
  { outAvg := 0, gradAvg := 0, outCount := 0, gradCount := 0, sg := 0, rung := 0, hold := 0 }

/-- What one contributing car adds to the telltales (05 R121). -/
structure Contrib where
  cl : Nat
  inst : Nat
  grad : Bool
  sum : W32
  codes : Nat
  gauge : Nat
  rawGauge : Nat
  deriving DecidableEq, Repr, Inhabited

/-- A consist's report of an occurrence: its COMMIT car and the span it closes (05 R117). -/
structure Report where
  cl : Nat
  car : Car
  span : OpenSpan
  deriving DecidableEq, Repr, Inhabited

/-- An undecided occurrence and the pass in progress (05 R114 to R126). -/
structure Occ where
  layer : Nat
  occ : Nat
  pass : Nat
  rung : Nat
  startRung : Nat
  parts : Option Nat
  reports : List Report
  counts : Counts
  contribs : List Contrib
  maxExp : Option Int
  causeC : Bool
  suspect : Bool
  mismatched : List (Nat × Nat)
  toldT : Bool
  moved : List (Nat × Nat)
  sigLo : Nat
  sigHi : Nat
  saved : Tab W16
  savedLocal : List (Nat × Tab W16)
  deriving DecidableEq, Repr, Inhabited

/-- What a committed occurrence leaves for the boundary (05 R123, R128), and the stored gauge of its reference car (05 R140). -/
structure Committed where
  layer : Nat
  occ : Nat
  ref : Option Nat
  out : Option W32
  grad : Option W32
  deriving DecidableEq, Repr, Inhabited

/-- A crow's nest check outstanding (05 R133 to R135): the chain's cars, the layer, occurrence and pass, the engines, the
accumulators, the reference results and limits of the output cells, and the cells whose limit is infinite. -/
structure Check where
  ids : List Nat
  layer : Nat
  occ : Option Nat
  pass : Nat
  sampled : Nat
  checker : Nat
  acc : Tab W32
  ref : Tab W32
  limit : Tab W32
  cells : List Nat
  free : List Nat
  deriving DecidableEq, Repr, Inhabited

/-! ### Junction ports and mail -/

/-- A wagon (09 Table 09-2). -/
structure Wagon where
  lseq : Nat
  vl : Nat
  kind : Nat
  train : Nat
  index : Nat
  waybill : W32
  payload : List Byte
  deriving DecidableEq, Repr, Inhabited

/-- One junction port (09 Table 09-11 and the link layer's own state); `solicited` lists the peers' addresses it has asked for since it came
up in Ethernet mode (09 R245). -/
structure Port where
  mode : Nat
  linkState : Nat
  linkEnable : Bool
  partner : Nat
  retries : Nat
  fecCorrected : Nat
  linkDowns : Nat
  mailPool : Nat
  ipv6 : List Byte
  udpPort : Nat
  ethData : Nat
  trafficClass : Nat
  ethDiscards : Nat
  rxLseq : Nat
  txLseq : Nat
  unacked : List Wagon
  waiting : List Wagon
  nakSent : Bool
  failLseq : Nat
  failRun : Nat
  credit : List Nat
  freed : List Nat
  train : Nat
  hello : Option Hello
  helloAt : Nat
  helloSent : Nat
  hellos : List (Nat × Nat)
  trainFails : Nat
  seq : Nat
  solicited : List (List Byte)
  deriving DecidableEq, Repr, Inhabited

/-- An operation sent to a partner and not acknowledged (09 R235, R238): `op` is its code, `dst` the own address that
receives READ data or the result record, `id` the car it belongs to, `via` the port it was last sent on. -/
structure PartnerOp where
  id : Nat
  port : Nat
  seq : Nat
  epoch : Nat
  op : Nat
  addr : Nat
  length : Nat
  data : List Byte
  poisoned : List Nat
  a : Nat
  b : Nat
  round : Nat
  members : Nat
  dst : Nat
  via : Option Nat
  noPathAt : Option Nat
  deriving DecidableEq, Repr, Inhabited

/-- A message being sent (09 R240, R244): a car's, from channel memory, or the yard's, with its own bytes (10 R260). `ways` are the ports
that what is not acknowledged has gone by. -/
structure MsgOut where
  id : Nat
  src : Nat
  head : MailHead
  epoch : Nat
  acked : Nat
  sent : Nat
  progressAt : Nat
  status : Nat
  statusAt : Nat
  triedAt : Nat
  ways : List Nat
  yard : Option (List Byte)
  deriving DecidableEq, Repr, Inhabited

/-- A message being received (09 R242). -/
structure MsgIn where
  srcRank : Nat
  queue : Nat
  msg : Nat
  length : Nat
  tag : Nat
  nextFrag : Nat
  deriving DecidableEq, Repr, Inhabited

/-- An operation that waits behind a held round; `arrival` is the number of its way in (09 R237). -/
structure Behind where
  inner : Inner
  arrival : Nat
  deriving DecidableEq, Repr, Inhabited

/-- What the destination keeps for one (RANK, PORT): NEXT_SEQ, the replay table, newest first, and the operations that wait behind a held
round, oldest first (09 R235 to R237). -/
structure Peer where
  rank : Nat
  port : Nat
  next : Nat
  table : List (Nat × (Nat × Nat))
  behind : List Behind
  deriving DecidableEq, Repr, Inhabited

/-- An atomic held for its round (09 R237). -/
structure Held where
  op : Nat
  head : AtomHead
  arrival : Nat
  deriving DecidableEq, Repr, Inhabited

/-- An open combining round (09 R237). -/
structure Round where
  addr : Nat
  round : Nat
  members : Nat
  openedAt : Nat
  held : List Held
  deriving DecidableEq, Repr, Inhabited

/-- The first arrival of reads or atomics that later ones on other ports combine with (09 R237): `key` is the length of a READ, or 8,192
and the code of an atomic. -/
structure Recent where
  addr : Nat
  key : Nat
  arrival : Nat
  since : Nat
  deriving DecidableEq, Repr, Inhabited

/-- The junction hub (09). -/
structure Hub where
  ports : Vector Port 5
  routeTable : Tab Byte
  ethPeers : Tab Byte
  recvQueues : Tab Byte
  mailTimeout : Nat
  mailRetry : Nat
  partnerTimeout : Nat
  roundTimeout : Nat
  epoch : Nat
  combined : Nat
  mailResends : Nat
  detours : Nat
  duplicates : Nat
  doorbellRefused : Nat
  mailHops : Nat
  ops : List PartnerOp
  fences : List (Nat × Nat)
  msgsOut : List MsgOut
  msgsIn : List MsgIn
  peers : List Peer
  rounds : List Round
  recent : List Recent
  resetGen : Nat
  deriving DecidableEq, Repr, Inhabited

/-! ### The marshalling yard -/

/-- A yard car that the yard holds (10 R248). -/
structure YardCar where
  id : Nat
  cl : Nat
  func : Nat
  seg : Nat
  post : Option Nat
  deriving DecidableEq, Repr, Inhabited

/-- A credit: the peer, the kind of message it permits and the chunk it is for (10 R261). -/
structure YardCredit where
  peer : Nat
  kind : Nat
  seg : Nat
  owner : Nat
  chunk : Nat
  slot : Nat
  deriving DecidableEq, Repr, Inhabited

/-- A data message that waits for its credit (10 R261). -/
structure YardSend where
  dst : Nat
  kind : Nat
  seg : Nat
  owner : Nat
  chunk : Nat
  data : List Byte
  since : Nat
  deriving DecidableEq, Repr, Inhabited

/-- A value of a tree node over one chunk: level and position of the node, its FP32 words (10 R251), and the slot that holds it; the
statistics record counts as words of 4 bytes (10 R266). -/
structure NodeVal where
  seg : Nat
  owner : Nat
  chunk : Nat
  level : Nat
  pos : Nat
  vals : List W32
  slot : Option Nat
  deriving DecidableEq, Repr, Inhabited

/-- A copy of a leaf module's level-2 value at the owner (10 R262, R263): the leaf module, the module it came from, whether it was used,
the count at which it was complete, and the slot that holds it. -/
structure QuadCopy where
  seg : Nat
  owner : Nat
  chunk : Nat
  leafMod : Nat
  fromMod : Nat
  data : List Byte
  used : Bool
  doneAt : Nat
  slot : Option Nat
  deriving DecidableEq, Repr, Inhabited

/-- A chunk at its owner: when its deadline falls, its running sum in RELAXED mode with the modules added, and whether its sum is complete
(10 R262, R263, R267). -/
structure ChunkState where
  seg : Nat
  owner : Nat
  chunk : Nat
  due : Option Nat
  running : Option (List W32)
  added : List Nat
  summed : Bool
  deriving DecidableEq, Repr, Inhabited

/-- A yard message that is arriving in fragments (10 R260, 09 R242). -/
structure YardIn where
  srcRank : Nat
  tag : Nat
  msg : Nat
  length : Nat
  nextFrag : Nat
  data : List Byte
  poisoned : Bool
  deriving DecidableEq, Repr, Inhabited

/-- The marshalling yard of a channel (10). `toCredit` lists the credits to issue in consumption order (R261); `diverged` the segments in
which copies have differed since the boundary, with the parameters of the first entry (R263). -/
structure Yard where
  rank : Nat
  rankCount : Nat
  exchangeN : Nat
  deadline : Nat
  timeout : Nat
  divergenceHold : Bool
  divergenceHoldNow : Bool
  backupsUsed : Nat
  divergences : Nat
  uncompared : Nat
  exchanges : Nat
  creditWait : Nat
  cars : List YardCar
  vals : List NodeVal
  toCredit : List YardCredit
  issued : List YardCredit
  held : List YardCredit
  dropped : List YardCredit
  outbox : List YardSend
  arriving : List YardIn
  slots : List Nat
  quads : List QuadCopy
  chunks : List ChunkState
  roots : List NodeVal
  slices : List (Nat × (Nat × Nat))
  delivered : List Nat
  statsRec : List Byte
  progressAt : Nat
  diverged : List (Nat × List Byte)
  deriving DecidableEq, Repr, Inhabited

/-! ### The host link -/

/-- A mailbox (11 R283): request, response and state (0 idle, 1 busy, 2 response ready). -/
structure Mailbox where
  req : List Byte
  rsp : List Byte
  state : Nat
  deriving DecidableEq, Repr, Inhabited

/-- A host-memory access without a completion (11 R275, R278, R285): `kind` is 0 uncached, 1 shared, 2 owning, 3 write-back; `dst` is the
channel address a read is for, and of an owning read the host address that `data` will be written to. A read beyond the outstanding
granules of Table 11-1 waits unsent. -/
structure HostOp where
  tag : Nat
  id : Nat
  read : Bool
  kind : Nat
  addr : Nat
  length : Nat
  data : List Byte
  poisoned : Bool
  dst : Nat
  sent : Bool
  sentAt : Nat
  deriving DecidableEq, Repr, Inhabited

/-- A notification ring of a channel or of the module (11 R284, R287). -/
structure EvtRing where
  ring : List Byte
  mask : W64
  msiAddr : Nat
  msiData : Nat
  dropped : Nat
  lost : Nat
  prod : Nat
  consumed : Nat
  pend : List LogEntry
  lastMsg : Option Nat
  deriving DecidableEq, Repr, Inhabited

/-- The host slice of a channel (11 Tables 11-2 and 11-4). `startWait` and `loadWait` hold token and ring index of a START or RESUME, and
of a TT_LOAD, without a completion; `goTail` is the DB_TAIL behind which a mailbox request waits (11 R281 to R283). -/
structure HostLink where
  link : Nat
  cplRing : List Byte
  evt : EvtRing
  timeout : Nat
  flitReplays : Nat
  overrun : Nat
  dbTail : Nat
  dbHead : Nat
  dbRing : Tab Byte
  cplProd : Nat
  mbox : Mailbox
  ops : List HostOp
  tag : Nat
  startWait : Option (Nat × Nat)
  loadWait : Option (Nat × Nat)
  goTail : Option Nat
  deriving DecidableEq, Repr, Inhabited

/-! ### Power, clocks and temperature -/

/-- The supply state of a region (13 R322 to R327). -/
inductive RegionSt where
  | off | waiting | ramping | on | lost
  deriving DecidableEq, Repr, Inhabited

/-- One region's supply, clock and sensors (13, 14, 15). `mv` is the voltage its regulator is set to, or holds its arrays at; `lagRem` is what
has been caught up of the next cycle, in eightieths, and `lagAt` the count that lag stands for, later than the present one while catch-up
waits; `expect` is the count a ramping region is expected on; `control` holds the control values of the two sensor pairs. -/
structure Region where
  st : RegionSt
  since : Nat
  reserved : Bool
  waited : Nat
  waitLogs : Nat
  cells : Nat
  fastest : Nat
  stepMv : List Nat
  mv : Nat
  easing : Nat
  lag : Nat
  lagRem : Nat
  lagAt : Nat
  expect : Nat
  lowSince : Option Nat
  stays : Bool
  temps : List Int
  pairSt : List Nat
  pairSince : List Nat
  tmodel : Option W32
  control : List W32
  fc : W32
  tstep : Nat
  deriving DecidableEq, Repr, Inhabited

/-- A scheduled frequency change (14 R337 to R339); `after` is a further change, its count and target. -/
structure Change where
  due : Nat
  target : Nat
  up : Bool
  raised : Bool
  after : Option (Nat × Nat)
  deriving DecidableEq, Repr, Inhabited

/-- Power, clocking and thermal state of a channel. -/
structure Supply where
  regions : Vector Region 24
  step : Nat
  cause : Nat
  easing : Nat
  power : W32
  share : W32
  shareStep : Nat
  energy : Nat
  sustained : Nat
  quietSince : Nat
  change : Option Change
  reports : List (Nat × Nat)
  changesDone : Nat
  upshiftsCancelled : Nat
  droopEvents : Nat
  distantSignals : Nat
  stretchCycles : Nat
  maxLag : Nat
  lastUp : Nat
  locked : Bool
  refresh : Bool
  deriving DecidableEq, Repr, Inhabited

/-! ### A channel -/

/-- The states of a channel (12 Table 12-5, P.01). -/
inductive ChState where
  | off | boot | standby | ready | running | hold | fault
  deriving DecidableEq, Repr, Inhabited

/-- Where a channel's boot or containment reset stands (16 Table 16-4, 18 Table 18-2). -/
inductive BootPhase where
  | none
  | rails        -- rails on, waiting for the root to lock
  | training     -- GDDR7 training; region groups go on beside it
  | reset        -- containment reset: cleared, GDDR7 training
  deriving DecidableEq, Repr, Inhabited

/-- The boot or reset in progress. -/
structure Boot where
  phase : BootPhase
  since : Nat
  cause : Nat
  lockAt : Nat
  restarts : Nat
  attempts : List Nat
  trained : Nat
  groups : Nat
  waitLogged : List Nat
  powerOn : Bool
  deriving DecidableEq, Repr, Inhabited

/-- The pages, descriptors and header of a loaded image (06 R141 to R149). -/
structure Image where
  base : Nat
  length : Nat
  flags : Nat
  version : Nat
  regionMask : Nat
  ladder : Nat
  rankCount : Nat
  legCount : Nat
  stepEnd : Nat
  seed : W64
  iterations : Nat
  ttId : Nat
  digest : List Byte
  consists : Tab (Nat × Nat)
  pages : List Nat
  tableAddr : Nat
  descCount : Nat
  layers : Tab Nat
  slotBase : Nat
  slots : Nat
  rdescs : Nat
  rings : Nat
  rdescBase : Nat
  hasWorld : Bool
  hasYard : Bool
  chunkKib : Nat
  yq : Nat
  ystore : Nat
  statsSeg : Nat
  statsAddr : Nat
  backupMap : List Nat
  segs : List Nat
  occupied : List Nat
  deriving DecidableEq, Repr, Inhabited

/-- A mid-leg stop on its way to HOLD (03 R89, 13 R327): the cause and its parameters. -/
structure Stop where
  cause : Nat
  order : Nat
  param : List Byte
  since : Nat
  deriving DecidableEq, Repr, Inhabited

/-- The run-control state of a channel (06 Table 06-4, 12 Table 12-5). `vregsFree` is set between a channel reset and the next launch,
while the vector registers are undefined (04 R92): they are then free values from that number on. -/
structure Run where
  ttLoad : Nat
  leg : Nat
  ticketStep : W32
  loadResult : Nat
  holdRequested : Bool
  iteration : Nat
  startLeg : Nat
  stallLimit : Nat
  regionIdleOff : Bool
  tokensPerIter : Nat
  holdStatus : Nat
  faultStatus : Nat
  resumable : Bool
  stops : List Stop
  loading : Option Nat
  image : Option Image
  sigs : Tab W16
  legElapsed : List Nat
  legStart : Nat
  progressAt : Nat
  activeAt : Nat
  posts : List PendPost
  nextId : Nat
  firstIssued : Bool
  vregsFree : Option Nat
  clusters : Tab Cluster
  deriving DecidableEq, Repr, Inhabited

/-- The watch unit's settings and state (05 Table 05-6). A run-affecting setting has its stored value and the value in
effect (12 R302). `refs` holds one more than the stored gauge code of the reference car of each layer's last committed occurrence
(05 R140); `interval` the local statistics of an interval whose exchange has not completed, where no message carries them (05 R131). -/
structure Watch where
  detMode : Nat
  zeroSkip : Bool
  zeroSkipNow : Bool
  telltales : Bool
  telltalesNow : Bool
  crowRate : Nat
  crowRateNow : Nat
  sgMin : Int
  sgMax : Int
  layers : Tab LayerState
  highest : Tab Nat
  suspect : Tab (Nat × Nat)
  skips : Nat
  unchecked : Nat
  totals : Counts
  occs : List Occ
  committed : List Committed
  refs : Tab Nat
  checks : List Check
  stats : Tab (Option Int × Bool)
  interval : Option (Tab (Option Int × Bool))
  combined : Option (Tab (Option Int × Bool))
  deriving DecidableEq, Repr, Inhabited

/-- A sector of 256 bytes that a depot line holds (08 R206). Of a host line, `bytes` and `poisoned` are what it holds. Of a line of board
memory or the far tier the channel's memory shows what the depot holds, and while the sector is dirty these are the bytes and the mark
beneath it, which come back when the depot is discarded. -/
structure Sector where
  no : Nat
  dirty : Bool
  bytes : List Byte
  poisoned : Bool
  deriving DecidableEq, Repr, Inhabited

/-- A line of the depot cache: of host memory, or of the channel's own board memory or far tier; its address, and the sectors it holds
(08 R206). -/
structure DepotLine where
  host : Bool
  addr : Nat
  sectors : List Sector
  deriving DecidableEq, Repr, Inhabited

/-- An access to the far tier that may still be outstanding, its car's post not yet made: of a write, what the granule held before; of a
COPY from the far tier, a granule of its destination (08 R201). -/
structure FarOp where
  id : Nat
  granule : Nat
  beneath : Option (List Byte × Bool)
  deriving DecidableEq, Repr, Inhabited

/-- The memory system's settings and counters (08 Table 08-10), and the channel's memory; `lines` are the depot's lines, the most
recently used first, `farOps` the far-tier accesses that may be outstanding, newest first. -/
structure Memory where
  bytes : Tab Byte
  marks : Tab Nat
  lines : List DepotLine
  farOps : List FarOp
  depotSize : Nat
  watchEn : Bool
  watchEnNow : Bool
  watchRanges : Tab Byte
  watchRangesNow : Tab Byte
  farEnable : Bool
  farStatus : Nat
  farLink : Nat
  farCapacity : Nat
  gddr7 : Nat
  pfUsed : Nat
  pfLate : Nat
  pfUnused : Nat
  pfLead : Nat
  raDropped : Nat
  depotHits : Nat
  depotMisses : Nat
  eccCorrected : Nat
  crcRetries : Nat
  poisoned : Nat
  worldResets : Nat
  epTerminal : Nat
  epTruncated : Nat
  lateEnds : Nat
  doneNan : Nat
  deriving DecidableEq, Repr, Inhabited

/-- Where the answer to a request goes: to a command's own path, to a session's datagram, or into a mailbox (12 R295). -/
inductive Reply where
  | plain (via : Via)
  | datagram (session : Nat) (request : List Byte)
  | chMbox (c : Ch)
  | modMbox
  deriving DecidableEq, Repr, Inhabited

/-- Events, counters and security entries of a channel (12 Table 12-5, 16 Table 16-9, 17 Table 17-6, 18 Table 18-4). `waking` lists
the WAKE commands without an answer (12 R305); `tenantNew` says that the tenant has changed and the channel has not been READY since
(17 R390). -/
structure Ctl where
  st : ChState
  boot : Boot
  log : List LogEntry
  logNext : Nat
  refusals : Nat
  resets : Nat
  downtime : Nat
  service : Nat
  serviceFrom : Nat
  lifeMark : Nat × Nat
  lastReset : List Byte
  mismatches : Nat
  bootTime : Nat
  tenantSlot : Nat
  tenantNew : Bool
  signedOnly : Bool
  config : List Byte
  safeFrom : Option Nat
  waking : List Reply
  deriving DecidableEq, Repr, Inhabited

/-- One channel (00 R4). -/
structure Chan where
  ctl : Ctl
  run : Run
  watch : Watch
  mem : Memory
  hub : Hub
  yard : Yard
  host : HostLink
  sup : Supply
  deriving DecidableEq, Repr, Inhabited

/-! ### The station master -/

/-- What runs on the station master (01 R27, 17 R382 to R385, 18 R395). -/
inductive SmState where
  | off | rom | ready | restarting
  deriving DecidableEq, Repr, Inhabited

/-- The states of the module (12 Table 12-4). -/
inductive ModState where
  | boot | normal | safe
  deriving DecidableEq, Repr, Inhabited

/-- An open management session (12 R297, 17 R387, R388). -/
structure Session where
  number : Nat
  i3c : Bool
  slot : Nat
  role : Nat
  kreq : List Byte
  krsp : List Byte
  seq : Nat
  lastRsp : List Byte
  lastAt : Nat
  deriving DecidableEq, Repr, Inhabited

/-- A session set-up in progress (17 R387). -/
structure Setup where
  number : Nat
  i3c : Bool
  session : Nat
  slot : Nat
  openPay : List Byte
  challenge : List Byte
  secret : List Byte
  since : Nat
  deriving DecidableEq, Repr, Inhabited

/-- A write staged in a transaction (12 R298). -/
structure StagedWrite where
  index : Nat
  sub : Nat
  offset : Nat
  value : List Byte
  deriving DecidableEq, Repr, Inhabited

/-- The transaction slot of a session or mailbox and its STATUS record (12 Table 12-10). -/
structure Txn where
  via : Via
  tstate : Nat
  code : Nat
  entry : Nat
  index : Nat
  sub : Nat
  staged : List StagedWrite
  stagedNo : Nat
  count : Nat
  openedAt : Nat
  deriving DecidableEq, Repr, Inhabited

/-- An accepted commit waiting for its count (12 R300, R301). -/
structure PendCommit where
  via : Via
  count : Nat
  acceptedAt : Nat
  writes : List StagedWrite
  deriving DecidableEq, Repr, Inhabited

/-- The attestation nonce and report of one requester (17 R393). -/
structure Attest where
  via : Via
  scope : Option Ch
  nonce : List Byte
  report : List Byte
  deriving DecidableEq, Repr, Inhabited

/-- The firmware in one flash bank: its block, and whether it carries the trailers the state asks for. -/
structure Bank where
  block : List Byte
  deriving DecidableEq, Repr, Inhabited

/-- One coolant sensor (15 R349, R350): missed polls, lost, last valid raw reading and the count of its poll. -/
structure Coolant where
  missed : Nat
  lost : Bool
  raw : Int
  polledAt : Nat
  value : W32
  deriving DecidableEq, Repr, Inhabited

/-- The pins of M1 and H1 that hold state (19 R409, R413): true is high, or released for an open-drain output. ALERT_N and
CXL_PERST_N follow from the rest of the state (`Module.alertN`, `State.perstN`); PRESENT_N is always low. -/
structure Pins where
  shedN : Bool
  resetN : Bool
  tripN : Bool
  cxlPrsntN : List Bool
  deriving DecidableEq, Repr, Inhabited

/-- Module-wide state, kept by the station master (01 R26). -/
structure Module where
  st : ModState
  sm : SmState
  secState : Nat
  service : Bool
  refusals : Nat
  log : List LogEntry
  logNext : Nat
  flash : List LogEntry
  evt : EvtRing
  mgmtIpv6 : List Byte
  mgmtPort : Nat
  hostRole : Nat
  allowance : Nat
  ceiling : Nat
  shedStep : Nat
  shedPower : Nat
  power : W32
  volts : W32
  amps : W32
  easing : Nat
  rampWaits : Nat
  joules : W32
  energy : Nat
  tokens : Nat
  tokenEnergy : Nat
  tokenAt : Nat
  shedPin : Bool
  shedLow : Bool
  overLogged : Bool
  inlet : Coolant
  outlet : Coolant
  flow : Coolant
  coolState : Nat
  flowLowSince : Option Nat
  inletHighSince : Option Nat
  goodSince : Option Nat
  pausedFrom : Option Nat
  sensorIds : List Byte
  sensorAddrs : List (Nat × Nat)
  safeCause : Nat
  safeAt : Nat
  trips : Nat
  tripping : List (Nat × Nat)
  refclk : Nat
  refclkAt : Nat
  alignOffset : Int
  alignTarget : Int
  alignRate : Int
  alignRef : Nat
  alignHops : Nat
  alignState : Nat
  alignSource : Option Nat
  alignLast : Nat
  alignHeard : Nat
  sessions : List Session
  setups : List Setup
  sessionNo : Nat
  authDiscards : Nat
  setupsRefused : Nat
  ownerKey : List Byte
  floorCert : List Byte
  fwFloor : Nat
  cfgFloor : Nat
  floorSeq : Nat
  fwPending : List Byte
  fwState : Nat
  keyTable : Tab Byte
  config : List Byte
  partKey : List Byte
  partFloor : List Byte
  partConfig : List Byte
  partChan : Tab (List Byte)
  banks : List Bank
  activeBank : Nat
  boots : Nat
  mbox : Mailbox
  txns : List Txn
  commits : List PendCommit
  attests : List Attest
  lifetime : List (Nat × Nat)
  i3cAddr : Option Nat
  pins : Pins
  deriving DecidableEq, Repr, Inhabited

/-! ### Messages sent -/

/-- What the module sends: its answers, wagons, datagrams, host traffic and bus messages, oldest first. -/
inductive Out where
  | answer (via : Via) (status : Nat) (value : List Byte)
  | datagram (port : Nat) (bytes : List Byte)
  | mctp (message : List Byte)
  | i3cAssign (provisionalId addr : Nat)
  | i3cRead (addr : Nat)
  | wagon (c : Ch) (p : Pt) (w : Wagon)
  | udp (c : Ch) (p : Pt) (packet : List Byte)
  | hostWrite (c : Ch) (tag addr : Nat) (bytes : List Byte) (poisoned : Bool)
  | hostRead (c : Ch) (kind tag addr length : Nat)
  | hostAnswer (c : Ch) (data : List Byte) (poisoned unsupported : Bool)
  | recallAnswer (c : Ch) (addr : Nat) (dirty : Bool)
  | advert (target : List Byte)
  | solicit (c : Ch) (p : Pt) (target : List Byte)
  deriving DecidableEq, Repr, Inhabited

/-- The state of the machine. `pending` holds the waiting commands, first in first out; `count` is the departure count and
`counting` says that it has been released (14 R341, 18 Table 18-2); `freeNo` numbers the free values drawn (log entry 3);
`out` lists the messages sent, oldest first. -/
structure State where
  pending : List Instr
  count : Nat
  counting : Bool
  freeNo : Nat
  m : Module
  chs : Vector Chan 4
  out : List Out
  deriving DecidableEq, Repr, Inhabited

/-! ### Reset -/

/-- `n` zero bytes. -/
def zeros (n : Nat) : List Byte := List.replicate n 0

/-- An event ring at reset (11 Table 11-4). -/
def EvtRing.reset : EvtRing :=
  { ring := zeros 32, mask := BitVec.allOnes 64, msiAddr := 0, msiData := 0, dropped := 0, lost := 0, prod := 0,
    consumed := 0, pend := [], lastMsg := none }

/-- An idle mailbox (log entry 9). -/
def Mailbox.reset : Mailbox := { req := [], rsp := [], state := 0 }

/-- A junction port at reset (09 Table 09-11). -/
def Port.reset : Port :=
  { mode := 0, linkState := 0, linkEnable := false, partner := 0, retries := 0, fecCorrected := 0, linkDowns := 0
    mailPool := 0, ipv6 := zeros 16, udpPort := 45632, ethData := 1, trafficClass := 0, ethDiscards := 0, rxLseq := 0
    txLseq := 0, unacked := [], waiting := [], nakSent := false, failLseq := 0, failRun := 0, credit := [0, 0, 0]
    freed := [0, 0, 0], train := 0, hello := none, helloAt := 0, helloSent := 0, hellos := [], trainFails := 0, seq := 0
    solicited := [] }

/-- A junction hub at reset (09 Table 09-11). -/
def Hub.reset : Hub :=
  { ports := Vector.replicate 5 Port.reset, routeTable := [], ethPeers := [], recvQueues := [], mailTimeout := 23750
    mailRetry := 1188, partnerTimeout := 11875000, roundTimeout := 118750, epoch := 0, combined := 0, mailResends := 0
    detours := 0, duplicates := 0, doorbellRefused := 0, mailHops := 0, ops := [], fences := [], msgsOut := [], msgsIn := []
    peers := [], rounds := [], recent := [], resetGen := 0 }

/-- A yard at reset (10 Table 10-8). -/
def Yard.reset : Yard :=
  { rank := 0, rankCount := 1, exchangeN := 1, deadline := 11875, timeout := 118750000, divergenceHold := false
    divergenceHoldNow := false, backupsUsed := 0, divergences := 0, uncompared := 0, exchanges := 0, creditWait := 0
    cars := [], vals := [], toCredit := [], issued := [], held := [], dropped := [], outbox := [], arriving := []
    slots := [], quads := [], chunks := [], roots := [], slices := [], delivered := [], statsRec := [], progressAt := 0
    diverged := [] }

/-- A host slice at reset (11 Table 11-4; log entry 9). -/
def HostLink.reset : HostLink :=
  { link := 0, cplRing := zeros 32, evt := EvtRing.reset, timeout := 1187500, flitReplays := 0, overrun := 0, dbTail := 0
    dbHead := 0, dbRing := [], cplProd := 0, mbox := Mailbox.reset, ops := [], tag := 0, startWait := none
    loadWait := none, goTail := none }

/-- A region at reset (13, 14, 15; log entry 5). -/
def Region.reset : Region :=
  { st := .off, since := 0, reserved := false, waited := 0, waitLogs := 0, cells := 0xffff, fastest := 0, stepMv := [], mv := 0
    easing := 0, lag := 0, lagRem := 0, lagAt := 0, expect := 0, lowSince := none, stays := false, temps := [0, 0, 0, 0]
    pairSt := [0, 0], pairSince := [0, 0], tmodel := none, control := [0, 0], fc := 0, tstep := 0 }

/-- The supply of a channel at reset (13, 14, 15; log entry 5). -/
def Supply.reset : Supply :=
  { regions := Vector.replicate 24 Region.reset, step := 0, cause := 0, easing := 0, power := 0, share := 0, shareStep := 0, energy := 0
    sustained := 0, quietSince := 0, change := none, reports := [], changesDone := 0, upshiftsCancelled := 0, droopEvents := 0
    distantSignals := 0, stretchCycles := 0, maxLag := 0, lastUp := 0, locked := false, refresh := false }

/-- No boot in progress. -/
def Boot.idle : Boot :=
  { phase := .none, since := 0, cause := 0, lockAt := 0, restarts := 0, attempts := [], trained := 0, groups := 0
    waitLogged := [], powerOn := false }

/-- Control state of a channel at reset (12 Table 12-5, 16 Table 16-9, 17 Table 17-6; log entry 4). -/
def Ctl.reset : Ctl :=
  { st := .off, boot := Boot.idle, log := [], logNext := 0, refusals := 0, resets := 0, downtime := 0, service := 0
    serviceFrom := 0, lifeMark := (0, 0), lastReset := zeros 32, mismatches := 0, bootTime := 0, tenantSlot := 255, tenantNew := false, signedOnly := false
    config := [], safeFrom := none, waking := [] }

/-- Run control of a channel at reset (06 Table 06-4, 12 Table 12-5). -/
def Run.reset : Run :=
  { ttLoad := 0, leg := 0, ticketStep := 0, loadResult := 0xfffe, holdRequested := false, iteration := 0, startLeg := 0
    stallLimit := 0x40000000, regionIdleOff := false, tokensPerIter := 0, holdStatus := 0, faultStatus := 0
    resumable := false, stops := [], loading := none, image := none, sigs := [], legElapsed := List.replicate 64 0
    legStart := 0, progressAt := 0, activeAt := 0, posts := [], nextId := 1, firstIssued := false, vregsFree := none, clusters := [] }

/-- The watch at reset (05 Table 05-6, 12 Table 12-5). -/
def Watch.reset : Watch :=
  { detMode := 0, zeroSkip := true, zeroSkipNow := true, telltales := true, telltalesNow := true, crowRate := 10
    crowRateNow := 10, sgMin := -16, sgMax := 24, layers := [], highest := [], suspect := [], skips := 0, unchecked := 0
    totals := {}, occs := [], committed := [], refs := [], checks := [], stats := [], interval := none, combined := none }

/-- Memory of a channel at reset (08 Table 08-10): nothing listed, every byte zero (16 Table 16-4, 18 Table 18-2). -/
def Memory.reset : Memory :=
  { bytes := [], marks := [], lines := [], farOps := [], depotSize := 0, watchEn := true, watchEnNow := true, watchRanges := [], watchRangesNow := []
    farEnable := false, farStatus := 0, farLink := 0, farCapacity := 0, gddr7 := 0, pfUsed := 0, pfLate := 0, pfUnused := 0
    pfLead := 0, raDropped := 0, depotHits := 0, depotMisses := 0, eccCorrected := 0, crcRetries := 0, poisoned := 0
    worldResets := 0, epTerminal := 0, epTruncated := 0, lateEnds := 0, doneNan := 0 }

/-- A channel at reset. -/
def Chan.reset : Chan :=
  { ctl := Ctl.reset, run := Run.reset, watch := Watch.reset, mem := Memory.reset, hub := Hub.reset, yard := Yard.reset
    host := HostLink.reset, sup := Supply.reset }

/-- A coolant sensor before its first poll (15 R349). -/
def Coolant.reset : Coolant := { missed := 0, lost := false, raw := 0, polledAt := 0, value := 0 }

/-- The station master's state at reset (12 Table 12-4, 13 Table 13-7, 15 Table 15-5, 17 Table 17-6; log entries 4 to 6). -/
def Module.reset : Module :=
  { st := .boot, sm := .off, secState := 0, service := false, refusals := 0, log := [], logNext := 0, flash := []
    evt := EvtRing.reset, mgmtIpv6 := zeros 16, mgmtPort := 23410, hostRole := 0, allowance := 4800, ceiling := 0
    shedStep := 6, shedPower := 1500, power := 0, volts := 0, amps := 0, easing := 0, rampWaits := 0, joules := 0
    energy := 0, tokens := 0, tokenEnergy := 0, tokenAt := 0, shedPin := false, shedLow := false, overLogged := false
    inlet := Coolant.reset, outlet := Coolant.reset, flow := Coolant.reset, coolState := 0, flowLowSince := none
    inletHighSince := none, goodSince := none, pausedFrom := none, sensorIds := zeros 24, sensorAddrs := [], safeCause := 0, safeAt := 0, trips := 0
    tripping := [], refclk := 0, refclkAt := 0, alignOffset := 0, alignTarget := 0, alignRate := 0, alignRef := 0, alignHops := 0
    alignState := 0, alignSource := none, alignLast := 0, alignHeard := 0, sessions := [], setups := [], sessionNo := 0, authDiscards := 0
    setupsRefused := 0, ownerKey := zeros 1793, floorCert := [], fwFloor := 0, cfgFloor := 0, floorSeq := 0
    fwPending := [], fwState := 0, keyTable := [], config := [], partKey := [], partFloor := [], partConfig := []
    partChan := [], banks := [], activeBank := 0, boots := 0, mbox := Mailbox.reset, txns := [], commits := [], attests := []
    lifetime := List.replicate 4 (0, 0), i3cAddr := none
    pins := { shedN := true, resetN := true, tripN := true, cxlPrsntN := List.replicate 4 false } }

/-- The machine right after reset: 42 V has been applied and nothing has started (18 Table 18-1, offset 0). -/
def State.reset : State :=
  { pending := [], count := 0, counting := false, freeNo := 0, m := Module.reset, chs := Vector.replicate 4 Chan.reset
    out := [] }

/-- A channel of the machine. -/
def State.ch (s : State) (c : Ch) : Chan := s.chs[c]

/-- The machine with a channel replaced. -/
def State.setCh (s : State) (c : Ch) (x : Chan) : State := { s with chs := s.chs.set c x }

end Sys2Proof.Machine
end

