-- ==== Sys2Proof/Machine/Ops.lean ====
section
/-! DEFINITION. The operations every family shares: the address map, channel memory with its poison marks, the event logs,
messages sent, entry to HOLD, the containment reset and the state changes that go with them. -/

namespace Sys2Proof.Machine

/-! ### Places and records -/

/-- Every GDDR7 device has trained (18 Table 18-2). -/
def Boot.allTrained (b : Boot) : Bool := b.trained == 0xff

/-- The machine with a channel changed. -/
def State.onCh (s : State) (c : Ch) (f : Chan → Chan) : State := s.setCh c (f (s.ch c))

/-- The machine with the module's state changed. -/
def State.onM (s : State) (f : Module → Module) : State := { s with m := f s.m }

/-- Append a message sent. -/
def State.send (s : State) (o : Out) : State := { s with out := s.out ++ [o] }

/-- The four channels. -/
def allCh : List Ch := [0, 1, 2, 3]

/-- Do something for every channel, in increasing number. -/
def State.eachCh (s : State) (f : Ch → State → State) : State := allCh.foldl (fun t c => f c t) s

/-- The channel with a number, taken modulo 4. -/
def chOf (n : Nat) : Ch := ⟨n % 4, by omega⟩

/-- The port with a number, taken modulo 5. -/
def ptOf (n : Nat) : Pt := ⟨n % 5, by omega⟩

/-- The region with a number, taken modulo 24. -/
def rgOf (n : Nat) : Rg := ⟨n % 24, by omega⟩

/-- Change the run-control state of a channel. -/
def State.onRun (s : State) (c : Ch) (f : Run → Run) : State := s.onCh c (fun x => { x with run := f x.run })
/-- Change the watch state of a channel. -/
def State.onWatch (s : State) (c : Ch) (f : Watch → Watch) : State := s.onCh c (fun x => { x with watch := f x.watch })
/-- Change the memory state of a channel. -/
def State.onMem (s : State) (c : Ch) (f : Memory → Memory) : State := s.onCh c (fun x => { x with mem := f x.mem })
/-- Change the hub of a channel. -/
def State.onHub (s : State) (c : Ch) (f : Hub → Hub) : State := s.onCh c (fun x => { x with hub := f x.hub })
/-- Change the yard of a channel. -/
def State.onYard (s : State) (c : Ch) (f : Yard → Yard) : State := s.onCh c (fun x => { x with yard := f x.yard })
/-- Change the host slice of a channel. -/
def State.onHost (s : State) (c : Ch) (f : HostLink → HostLink) : State := s.onCh c (fun x => { x with host := f x.host })
/-- Change the supply state of a channel. -/
def State.onSup (s : State) (c : Ch) (f : Supply → Supply) : State := s.onCh c (fun x => { x with sup := f x.sup })
/-- Change the control state of a channel. -/
def State.onCtl (s : State) (c : Ch) (f : Ctl → Ctl) : State := s.onCh c (fun x => { x with ctl := f x.ctl })

/-- Cluster `k` of a channel. -/
def Run.cluster (r : Run) (k : Nat) : Cluster := Tab.get Cluster.fresh r.clusters k

/-- A channel's run state with a cluster replaced. -/
def Run.setCluster (r : Run) (k : Nat) (x : Cluster) : Run := { r with clusters := Tab.put Cluster.fresh r.clusters k x }

/-- Cluster `k` of channel `c`. -/
def State.cluster (s : State) (c : Ch) (k : Nat) : Cluster := (s.ch c).run.cluster k

/-- Change a cluster. -/
def State.onCluster (s : State) (c : Ch) (k : Nat) (f : Cluster → Cluster) : State :=
  s.onRun c (fun r => r.setCluster k (f (r.cluster k)))

/-- Change a port. -/
def State.onPort (s : State) (c : Ch) (p : Pt) (f : Port → Port) : State :=
  s.onHub c (fun h => { h with ports := h.ports.set p (f h.ports[p]) })

/-- Change a region's supply state. -/
def State.onRegion (s : State) (c : Ch) (r : Rg) (f : Region → Region) : State :=
  s.onSup c (fun u => { u with regions := u.regions.set r (f u.regions[r]) })

/-- The region a cluster belongs to (01 R12). -/
def regionOf (k : Nat) : Nat := k / 16

/-- The region numbers. -/
def allRegions : List Nat := List.range 24

/-- A region of a channel. -/
def Supply.region (u : Supply) (r : Nat) : Region := u.regions[rgOf r]

/-- Row and column of a region on the die grid (01 R29). -/
def gridOf (r : Nat) : Nat × Nat := (r / 12 * 2 + r % 6 / 3, r / 6 % 2 * 3 + r % 3)

/-- Are two regions edge neighbours (01 R29)? -/
def edgeNeighbours (a b : Nat) : Bool :=
  let p := gridOf a
  let q := gridOf b
  decide ((p.1 = q.1 ∧ (p.2 + 1 = q.2 ∨ q.2 + 1 = p.2)) ∨ (p.2 = q.2 ∧ (p.1 + 1 = q.1 ∨ q.1 + 1 = p.1)))

/-- The edge neighbours of a region. -/
def neighboursOf (r : Nat) : List Nat := allRegions.filter (edgeNeighbours r)

/-- The channel's rank (00 R4, 10 Table 10-8). -/
def Chan.rank (x : Chan) : Nat := x.yard.rank

/-! ### The address map (08 R191) -/

/-- What an address names (08 Table 08-2). -/
inductive Zone where
  | region (r : Nat)
  | tender (k : Nat)
  | board
  | far
  | host
  | partner (p : Pt)
  | control
  | hole
  deriving DecidableEq, Repr

/-- Bytes of a region's memory (01 R31). -/
def regionBytes : Nat := 0x14000000
/-- Bytes of a tender (01 R31). -/
def tenderBytes : Nat := 0x200000
/-- The first tender window (01 R31). -/
def tenderBase : Nat := 0x200000000
/-- The first board-memory address (08 Table 08-2). -/
def boardBase : Nat := 0x1000000000
/-- The end of board memory (08 Table 08-2). -/
def boardEnd : Nat := 0x15e8000000
/-- The first far-tier address. -/
def farBase : Nat := 0x10000000000
/-- The first host-range address. -/
def hostBase : Nat := 0x20000000000
/-- The first partner window. -/
def partnerBase : Nat := 0x40000000000
/-- The control space. -/
def controlBase : Nat := 0xf0000000000
/-- The host page (11 R279). -/
def hostPage : Nat := 0xf0000f00000

/-- The zone of an address (08 Table 08-2). -/
def zoneOf (a : Nat) : Zone :=
  if a < 24 * regionBytes then .region (a / regionBytes)
  else if tenderBase ≤ a ∧ a < tenderBase + 384 * tenderBytes then .tender ((a - tenderBase) / tenderBytes)
  else if boardBase ≤ a ∧ a < boardEnd then .board
  else if farBase ≤ a ∧ a < farBase + 0x8000000000 then .far
  else if hostBase ≤ a ∧ a < hostBase + 0x10000000000 then .host
  else if partnerBase ≤ a ∧ a < partnerBase + 5 * 0x4000000000 then .partner (ptOf ((a - partnerBase) / 0x4000000000))
  else if controlBase ≤ a ∧ a < controlBase + 0x1000000 then .control
  else .hole

/-- The channel address of byte `off` of a cluster's tender (01 R31). -/
def tenderAt (k off : Nat) : Nat := tenderBase + k * tenderBytes + off

/-- Where a board-memory address lies (08 R198): device, byte offset in the device's data area, bank group, bank within the group, and the
place of its granule's waybill in the device's sidecar. -/
structure BoardPlace where
  dev : Nat
  off : Nat
  group : Nat
  bank : Nat
  sidecar : Nat
  deriving DecidableEq, Repr

/-- The place of a board-memory address (08 R198). -/
def boardPlace (a : Nat) : BoardPlace :=
  let o := a - boardBase
  let d := o / 2 ^ 11 * 256 + o % 256
  { dev := ((o / 256) ^^^ (o / 65536)) % 8, off := d, group := d / 256 % 4, bank := d / 1024 % 4, sidecar := 4 * (d / 256) }

/-- The SOURCE of a reader of an address, for checks made at the memory itself (16 Table 16-6). -/
def memSource (a : Nat) : Nat :=
  match zoneOf a with
  | .region r => 0x0300 + r
  | .tender k => 0x0200 + k
  | .board => 0x0430 + (boardPlace a).dev
  | .far => 0x0440
  | .host => 0x0420
  | .partner p => 0x0410 + p.val
  | _ => 0

/-! ### Channel memory -/

/-- What an address that nothing has written reads as: zero, as every memory is after its clear (16 Table 16-4,
18 Table 18-2; the far tier by log entry 8). -/
def Memory.unwritten : Byte := 0

/-- The memory keeps its canonical form. -/
abbrev Memory.wf (x : Memory) : Prop := Tab.wf Memory.unwritten x.bytes = true ∧ Tab.wf 0 x.marks = true

/-- One byte of channel memory. -/
def Memory.byte (x : Memory) (a : Nat) : Byte := Tab.get Memory.unwritten x.bytes a

/-- `n` bytes of channel memory. -/
def Memory.read (x : Memory) (a n : Nat) : List Byte := Tab.getAll Memory.unwritten x.bytes a n

/-- A little-endian number in channel memory. -/
def Memory.nat (x : Memory) (a n : Nat) : Nat := natOfBytes (x.read a n)

/-- The 256-byte granules that `n` bytes from `a` touch. -/
def granules (a n : Nat) : List Nat :=
  if n = 0 then [] else (List.range ((a + n - 1) / 256 - a / 256 + 1)).map (fun i => a / 256 + i)

/-- Is a granule poisoned (16 R360)? -/
def Memory.poisoned? (x : Memory) (g : Nat) : Bool := Tab.get 0 x.marks g != 0

/-- The address of the first poisoned granule that a range touches. -/
def Memory.poisonIn (x : Memory) (a n : Nat) : Option Nat :=
  if x.marks.isEmpty then none
  else ((granules a n).find? (fun g => x.poisoned? g)).map (· * 256)

/-- Poison a granule. -/
def Memory.poison (x : Memory) (g : Nat) : Memory := { x with marks := Tab.put 0 x.marks g 1 }

/-- The marks after a write of `n` bytes at `a`: a granule written whole gets a valid waybill, a granule written in part keeps
a poison mark (16 R361). -/
def marksAfter (marks : Tab Nat) (a n : Nat) : Tab Nat :=
  if marks.isEmpty then marks
  else marks.filter (fun e => !decide (a ≤ e.1 * 256 ∧ e.1 * 256 + 256 ≤ a + n))

/-- Write bytes to channel memory, forming waybills (16 R361). -/
def Memory.write (x : Memory) (a : Nat) (bs : List Byte) : Memory :=
  { x with bytes := Tab.putAll Memory.unwritten x.bytes a bs, marks := marksAfter x.marks a bs.length }

/-- Clear every byte below a limit, or in a range: the reset clears (16 Table 16-4). -/
def Memory.clear (x : Memory) (lo hi : Nat) : Memory :=
  { x with bytes := x.bytes.filter (fun e => !decide (lo ≤ e.1 ∧ e.1 < hi)),
           marks := x.marks.filter (fun e => !decide (lo ≤ e.1 * 256 ∧ e.1 * 256 < hi)) }

/-- Write the given bytes of a range and leave the others: a granule of which every byte is given gets a valid waybill, any other
keeps a poison mark (03 R74, 16 R361). -/
def Memory.writeMask (x : Memory) (a : Nat) (bs : List (Option Byte)) : Memory :=
  let bytes := bs.zipIdx.foldl (fun t e =>
    match e.1 with | some b => Tab.put Memory.unwritten t (a + e.2) b | none => t) x.bytes
  let whole := fun g => decide (a ≤ g * 256 ∧ g * 256 + 256 ≤ a + bs.length) &&
    ((bs.drop (g * 256 - a)).take 256).all (fun b => b.isSome)
  { x with bytes := bytes, marks := if x.marks.isEmpty then x.marks else x.marks.filter (fun e => !whole e.1) }

/-- Write to a channel's memory. -/
def State.store (s : State) (c : Ch) (a : Nat) (bs : List Byte) : State := s.onMem c (fun x => x.write a bs)

/-! ### Event logs (16 R371 to R373) -/

/-- A parameter of an entry: its size in bytes and its value (16 R371). -/
abbrev Param := Nat × Nat

/-- Bytes 12 to 31 of an entry. -/
def paramBytes (ps : List Param) : List Byte := fitBytes 20 (ps.flatMap (fun p => bytesOfNat p.1 p.2))

/-- The place of an entry: after every entry of a smaller COUNT, and of the same COUNT and an order not above its own
(16 R372). -/
def logPlace (e : LogEntry) (l : List LogEntry) : List LogEntry :=
  let before := fun x : LogEntry => decide (x.count < e.count ∨ (x.count = e.count ∧ x.order ≤ e.order))
  l.takeWhile before ++ e :: l.dropWhile before

/-- The last `n` elements of a list. -/
def lastN {α : Type} (n : Nat) (l : List α) : List α := l.drop (l.length - n)

/-- Is an entry of a class copied to flash (16 R372)? -/
def flashClass (code : Nat) : Bool := [0x02, 0x0d, 0x0f, 0x10].contains (code / 256)

/-- An entry waits to be copied when the ring's mask selects its class and the ring has a base (11 R284, Table 11-4). -/
def EvtRing.note (r : EvtRing) (e : LogEntry) : EvtRing :=
  if field r.ring 0 8 ≠ 0 ∧ e.code / 256 < 64 ∧ r.mask.getLsbD (e.code / 256) = true then
    { r with pend := logPlace e r.pend } else r

/-- Copy an entry of a flash class to FLASH_HISTORY (16 R372). -/
def State.toFlash (s : State) (e : LogEntry) : State :=
  if flashClass e.code then s.onM (fun m => { m with flash := lastN 256 (m.flash ++ [e]) }) else s

/-- Log an entry of a channel, placed by `order` among entries of its COUNT. -/
def State.logAs (s : State) (c : Ch) (order source code : Nat) (param : List Byte) : State :=
  let e : LogEntry := { count := s.count, source := source, code := code, param := param, order := order }
  (s.onCh c (fun x =>
    { x with ctl := { x.ctl with log := lastN 4096 (logPlace e x.ctl.log), logNext := (x.ctl.logNext + 1) % 2 ^ 32 }
             host := { x.host with evt := x.host.evt.note e } })).toFlash e

/-- Log an entry of a channel (16 R371, R372). -/
def State.log (s : State) (c : Ch) (source code : Nat) (ps : List Param) : State :=
  s.logAs c source source code (paramBytes ps)

/-- Log an entry of the module (16 R372). -/
def State.logM (s : State) (source code : Nat) (ps : List Param) : State :=
  let e : LogEntry := { count := s.count, source := source, code := code, param := paramBytes ps, order := source }
  (s.onM (fun m => { m with log := lastN 1024 (logPlace e m.log), logNext := m.logNext + 1,
                            evt := m.evt.note e })).toFlash e

/-! ### Time of service (16 R374) -/

/-- SERVICE of a channel as it reads now (16 Table 16-9). -/
def Chan.serviceNow (x : Chan) (now : Nat) : Nat :=
  if x.ctl.st = .off then x.ctl.service else x.ctl.service + (now - x.ctl.serviceFrom)

/-- Put a channel into a state, counting SERVICE while it is not OFF (16 R374). -/
def State.setChState (s : State) (c : Ch) (st : ChState) : State :=
  s.onCtl c (fun k =>
    let svc := if k.st = .off then k.service else k.service + (s.count - k.serviceFrom)
    { k with st := st, service := svc, serviceFrom := s.count })

/-- Add downtime (16 R374). -/
def State.addDown (s : State) (c : Ch) (since : Nat) : State :=
  s.onCtl c (fun k => { k with downtime := k.downtime + (s.count - since) })

/-! ### Accesses to host memory (11 R271, R273, R278) -/

/-- The granules that an access asks for. -/
def HostOp.granules (o : HostOp) : Nat := ceilDiv o.length 256

/-- The granules of host memory asked for and not answered (11 Table 11-1). -/
def HostLink.asked (h : HostLink) : Nat := ((h.ops.filter (fun o => o.read && o.sent)).map HostOp.granules).sum

/-- May an access be sent: the slice is up, and a read keeps to the 256 outstanding granules (11 Table 11-1)? -/
def HostLink.maySend (h : HostLink) (o : HostOp) : Bool :=
  h.link != 0 && !o.sent && (!o.read || decide (h.asked + o.granules ≤ 256))

/-- Send a waiting access over the slice, when it may be sent (11 R273, R275). -/
def State.sendHostOp (s : State) (c : Ch) (o : HostOp) : State :=
  if (s.ch c).host.maySend o then
    (s.onHost c (fun h =>
      { h with ops := h.ops.map (fun p => if p.tag = o.tag then { p with sent := true, sentAt := s.count } else p) })).send
      (if o.read then .hostRead c o.kind o.tag o.addr o.length else .hostWrite c o.tag o.addr o.data o.poisoned)
  else s

/-- Send the accesses that wait, oldest first, as far as they may be sent. -/
def State.hostPump (s : State) (c : Ch) : State := (s.ch c).host.ops.foldl (fun t o => t.sendHostOp c o) s

/-- Start an outbound host access under a fresh tag; it waits while the slice is down or its reads are all outstanding (11 R273). -/
def State.hostOp (s : State) (c : Ch) (o : HostOp) : State :=
  let t := (s.ch c).host.tag + 1
  let o := { o with tag := t, sent := false, sentAt := s.count }
  (s.onHost c (fun h => { h with tag := t, ops := h.ops ++ [o] })).sendHostOp c o

/-! ### The depot cache (08 R205 to R207) -/

/-- Is a line the one of an address? -/
def DepotLine.is (l : DepotLine) (host : Bool) (a : Nat) : Bool := l.host == host && l.addr == a / 4096 * 4096

/-- A sector of a line. -/
def DepotLine.sector? (l : DepotLine) (no : Nat) : Option Sector := l.sectors.find? (fun x => x.no == no)

/-- Does a line hold a dirty sector? -/
def DepotLine.dirty (l : DepotLine) : Bool := l.sectors.any (fun x => x.dirty)

/-- A line whose dirty sectors have been written back. -/
def DepotLine.clean (l : DepotLine) : DepotLine :=
  { l with sectors := l.sectors.map (fun x =>
      if x.dirty then { x with dirty := false, bytes := if l.host then x.bytes else [], poisoned := l.host && x.poisoned } else x) }

/-- The line that the depot holds for an address. -/
def Memory.line? (m : Memory) (host : Bool) (a : Nat) : Option DepotLine := m.lines.find? (fun l => l.is host a)

/-- The sector that the depot holds for an address. -/
def Memory.sector? (m : Memory) (host : Bool) (a : Nat) : Option Sector :=
  (m.line? host a).bind (fun l => l.sector? (a % 4096 / 256))

/-- The depot holds the sector of an address, and its line is the most recently used. -/
def Memory.putSector (m : Memory) (host : Bool) (a : Nat) (x : Sector) : Memory :=
  let old := ((m.line? host a).map (·.sectors)).getD []
  { m with lines := { host := host, addr := a / 4096 * 4096, sectors := x :: old.filter (fun y => y.no != x.no) } ::
      m.lines.filter (fun l => !l.is host a) }

/-- The depot no longer holds the line of an address. -/
def Memory.dropLine (m : Memory) (host : Bool) (a : Nat) : Memory := { m with lines := m.lines.filter (fun l => !l.is host a) }

/-- The set that a line falls into: DEPOT_SIZE holds 4,096 sets of 16 lines in each 256 MiB (08 R206; log entry 65). -/
def Memory.setOf (m : Memory) (host : Bool) (line : Nat) : Nat :=
  let n := 4096 * m.depotSize
  Config.depotSet n host line % n

/-- The line that a new line takes the place of: the least recently used of its set, when that holds 16 (08 R206). -/
def Memory.victim (m : Memory) (host : Bool) (a : Nat) : Option DepotLine :=
  if m.lines.length < 16 || m.lines.any (fun l => l.is host a) then none
  else
    let mates := m.lines.filter (fun l => m.setOf l.host l.addr == m.setOf host (a / 4096 * 4096))
    if mates.length < 16 then none else mates.getLast?

/-- Write back the dirty sectors of host lines over the slice; the channel's own memory already shows what its lines hold (08 R206,
11 R275). -/
def State.writeBack (s : State) (c : Ch) (ls : List DepotLine) : State :=
  ls.foldl (fun t l =>
    if l.host then
      (l.sectors.filter (fun x => x.dirty)).foldl (fun t x =>
        t.hostOp c { tag := 0, id := 0, read := false, kind := 3, addr := l.addr + 256 * x.no, length := 256, data := x.bytes
                     poisoned := x.poisoned, dst := 0, sent := false, sentAt := 0 }) t
    else t) s

/-- Put a sector into the depot, replacing a line where its set is full. -/
def State.depotPut (s : State) (c : Ch) (host : Bool) (a : Nat) (x : Sector) : State :=
  let s := match (s.ch c).mem.victim host a with
    | some l => (s.writeBack c [l]).onMem c (fun m => m.dropLine l.host l.addr)
    | none => s
  s.onMem c (fun m => m.putSector host a x)

/-- A granule gets back what it held: its bytes, and its poison mark or none. -/
def Memory.beneath (m : Memory) (g : Nat) (old : List Byte × Bool) : Memory :=
  let m := m.write (g * 256) old.1
  if old.2 then m.poison g else m

/-- The depot is discarded: what its dirty sectors of the channel's own memory hold is lost (08 R207). -/
def Memory.discardDepot (m : Memory) : Memory :=
  { m.lines.foldl (fun m l =>
      l.sectors.foldl (fun m x => if x.dirty && !l.host then m.beneath (l.addr / 256 + x.no) (x.bytes, x.poisoned) else m) m) m with
    lines := [] }

/-! ### HOLD (12 R308, 16 R373) -/

/-- Write back every dirty line of the depot; the lines stay (08 R207, 11 R275). -/
def State.depotWriteBack (s : State) (c : Ch) : State :=
  (s.writeBack c (s.ch c).mem.lines).onMem c (fun m => { m with lines := m.lines.map DepotLine.clean })

/-- Empty the depot, its dirty lines written back (08 R205, R207). -/
def State.depotEmpty (s : State) (c : Ch) : State := (s.depotWriteBack c).onMem c (fun m => { m with lines := [] })

/-- HOLD causes whose time to the HOLD is downtime (16 R374): ENGINE_SUSPECT and REGION_LOST. -/
def downCause (code : Nat) : Bool := code == 0x105 || code == 0x106

/-- Enter HOLD: HOLD_STATUS takes the cause, the HOLD is resumable only when a boundary request made it and the channel was
not already held, dirty depot lines are written back, and an entry whose CODE is the cause is logged (12 R308, 16 R373,
08 R207). -/
def State.enterHold (s : State) (c : Ch) (code order : Nat) (param : List Byte) : State :=
  let held := (s.ch c).ctl.st == .hold
  let t := (s.depotWriteBack c).setChState c .hold
  let t := t.onRun c (fun r =>
    { r with holdStatus := code, resumable := code == 0x101 && !held, stops := [], holdRequested := false })
  t.logAs c order 0 code param

/-- A HOLD cause may arise: the channel is RUNNING or already in HOLD (12 Table 12-11a). -/
def Chan.holdable (x : Chan) : Bool := x.ctl.st == .running || x.ctl.st == .hold

/-- A cause that holds the channel at once. -/
def State.holdNow (s : State) (c : Ch) (code order : Nat) (param : List Byte) : State :=
  if (s.ch c).holdable then s.enterHold c code order param else s

/-- A cause that holds the channel once every other consist has reached the leg boundary or waits for good (03 R89): the
stop stands until then; in HOLD it acts at once. -/
def State.stopFor (s : State) (c : Ch) (code order : Nat) (param : List Byte) : State :=
  match (s.ch c).ctl.st with
  | .running =>
    s.onRun c (fun r =>
      { r with stops := r.stops ++ [{ cause := code, order := order, param := param, since := s.count }] })
  | .hold => s.enterHold c code order param
  | _ => s

/-! ### Containment reset (16 R367) -/

/-- The image and the run of a channel discarded: no image, no counts, no consists (06 R148, 16 Table 16-4). -/
def Run.discard (r : Run) (result : Nat) : Run :=
  { r with image := none, loadResult := result, loading := none, sigs := [], posts := [], clusters := [], stops := []
           holdRequested := false, firstIssued := false }

/-- A cluster at launch, with the counters that return to 0 at each load (12 Table 12-5). -/
def Cluster.rest (cl : Cluster) : Cluster :=
  { Cluster.fresh with zsPred := cl.zsPred, zsMis := cl.zsMis, zsLost := cl.zsLost, oor := cl.oor, cycles := cl.cycles }

/-- Every cluster at launch, its counters kept. -/
def restAll (t : Tab Cluster) : Tab Cluster :=
  (t.map (fun (e : Nat × Cluster) => (e.1, e.2.rest))).filter (fun e => e.2 != Cluster.fresh)

/-- The image of a run is discarded outside a load: the counters of the load stay (12 Table 12-5). -/
def Run.drop (r : Run) : Run := { r.discard 0xfffe with clusters := restAll r.clusters, resumable := false }

/-- The watch without a run: no occurrence, no check. -/
def Watch.idle (w : Watch) : Watch :=
  { w with occs := [], committed := [], refs := [], checks := [], highest := [] }

/-- The yard with its outstanding work discarded (10 R265). -/
def Yard.idle (y : Yard) : Yard :=
  { y with cars := [], vals := [], toCredit := [], issued := [], held := [], dropped := [], outbox := [], arriving := []
           slots := [], quads := [], chunks := [], roots := [], slices := [], delivered := [], statsRec := [], diverged := [] }

/-- The hub without the yard's messages (10 R265). -/
def Hub.yardEnded (h : Hub) : Hub := { h with msgsOut := h.msgsOut.filter (fun m => m.yard.isNone) }

/-- The hub with its operations, messages, sequence and replay tables cleared (09 R236, 16 Table 16-4). -/
def Hub.cleared (h : Hub) : Hub :=
  { h with ops := [], fences := [], msgsOut := [], msgsIn := [], peers := [], rounds := [], recent := [], epoch := 0
           ports := h.ports.map (fun p => { p with seq := 0, waiting := [] }) }

/-- The counters that return to 0 at each load (05 R139, 08 R221, 10 R269, 12 Table 12-5). -/
def Chan.clearLoadCounters (x : Chan) : Chan :=
  { x with watch := { x.watch with totals := {}, layers := [], stats := [], interval := none, combined := none, skips := x.watch.skips }
           mem := { x.mem with pfUsed := 0, pfLate := 0, pfUnused := 0, pfLead := 0, raDropped := 0, depotHits := 0
                               depotMisses := 0, worldResets := 0, epTerminal := 0, epTruncated := 0, lateEnds := 0
                               doneNan := 0 }
           yard := { x.yard with backupsUsed := 0, divergences := 0, uncompared := 0, exchanges := 0, creditWait := 0 } }

/-- The host slice after a channel reset: doorbells and mailbox ended (11 R286). -/
def HostLink.cleared (h : HostLink) : HostLink :=
  { h with dbTail := 0, dbHead := 0, mbox := Mailbox.reset, ops := [], startWait := none, loadWait := none
           goTail := none }

/-- Switch a region off: its arrays are held at 500 mV (13 R322, R325; log entry 5). -/
def Region.offNow (x : Region) : Region :=
  if x.st = .lost then x
  else { x with st := .off, reserved := false, easing := 0, lag := 0, lagRem := 0, mv := 500, lowSince := none }

/-- A region switched off by a reset: a lost region stays lost, its stays open and its contents go (13 R327, 16 Table 16-4). -/
def Region.dark (r : Region) : Region := if r.st = .lost then { r with stays := false, mv := 0 } else r.offNow

/-- Every region switched off (13 R322, 16 Table 16-4). -/
def Supply.dark (u : Supply) : Supply := { u with regions := u.regions.map Region.dark }

/-- Start a containment reset with a cause of Table 16-7; during a reset the cause is logged and absorbed (16 R369). -/
def State.containment (s : State) (c : Ch) (cause : Nat) : State :=
  let x := s.ch c
  if x.ctl.st = .off then s
  else
    let t := s.log c 0 0x1005 [(2, cause)]
    if x.ctl.st = .boot && x.ctl.boot.phase == .reset then t
    else
      let t := t.setChState c .boot
      ({ t with freeNo := t.freeNo + 384 * 4096 } : State).onCh c (fun y =>
        { y with
          ctl := { y.ctl with boot := { Boot.idle with phase := .reset, since := s.count, cause := cause },
                              resets := y.ctl.resets + 1, waking := [] }
          run := { y.run.discard 0xfffe with resumable := false, vregsFree := some t.freeNo }
          watch := y.watch.idle
          mem := { y.mem.discardDepot.clear 0 (tenderBase + 384 * tenderBytes) with farOps := [], gddr7 := 0 }
          hub := y.hub.cleared
          yard := y.yard.idle
          host := y.host.cleared
          sup := y.sup.dark }
        |>.clearLoadCounters)

/-- A consumer has read a poisoned granule: WAYBILL is logged and the containment reset starts (16 R363). -/
def State.consumePoison (s : State) (c : Ch) (addr source : Nat) : State :=
  (s.log c source 0x1001 [(8, addr), (2, source)]).containment c 1

/-- A check or a memory finds a granule damaged: it is poisoned, counted and logged, unless it was poisoned already
(16 R362). -/
def State.spoil (s : State) (c : Ch) (f : MemFault) (source : Nat) : State :=
  let g := f.addr / 256
  if (s.ch c).mem.poisoned? g then s
  else
    let t := s.onMem c (fun m => { m.poison g with poisoned := m.poisoned + 1 })
    match f.kind with
    | .ecc => t.log c source 0x1003 [(8, g * 256), (2, 0)]
    | .onDie => t.log c source 0x1003 [(8, g * 256), (2, 1)]
    | .crcRetries => t.log c source 0x1003 [(8, g * 256), (2, 2)]
    | .cxlPoison => t.log c source 0x1003 [(8, g * 256), (2, 3)]
    | _ => (t.onCtl c (fun k => { k with mismatches := k.mismatches + 1 })).log c source 0x1002 [(8, g * 256), (2, source)]

/-- A read meets an error: a corrected one or a retried burst is counted (08 R220), any other poisons the granule (16 R362). -/
def State.damage (s : State) (c : Ch) (f : MemFault) (source : Nat) : State :=
  match f.kind with
  | .corrected => s.onMem c (fun m => { m with eccCorrected := m.eccCorrected + 1 })
  | .retried => s.onMem c (fun m => { m with crcRetries := m.crcRetries + 1 })
  | _ => s.spoil c f source

/-- Does an address lie in the channel's own memory? -/
def ownMemory (a : Nat) : Bool :=
  match zoneOf a with
  | .region _ => true
  | .tender _ => true
  | .board => true
  | .far => true
  | _ => false

/-- A step's reads meet the errors there are, before what they read is used (08 R220, 16 R362). -/
def State.meetAll (s : State) (c : Ch) (faults : List MemFault) : State :=
  faults.foldl (fun t f => if ownMemory f.addr then t.damage c f (memSource f.addr) else t) s

/-- The reads of a car's step meet the errors there are. -/
def State.meet (s : State) (w : At) : State := s.meetAll w.ch w.faults

end Sys2Proof.Machine
end

