-- ==== Sys2Proof/Machine/Operands.lean ====
section
/-! DEFINITION. Cars: their fields, how a sequencer reads them into its queues, when a car may start, what makes it invalid in
common, and what completes it (03 R88, R89, 06 R152 to R160). -/

namespace Sys2Proof.Machine

/-! ### Fields (03 Table 03-5, 06 Tables 06-5 to 06-7) -/

/-- Bits [hi:lo] of a car. -/
def Car.get (x : Car) (hi lo : Nat) : Nat := bits x.toNat hi lo
/-- CLASS. -/
def Car.cls (x : Car) : Nat := Car.get x 127 124
/-- WAIT_SIG. -/
def Car.waitSig (x : Car) : Nat := Car.get x 123 112
/-- WAIT_STEP. -/
def Car.waitStep (x : Car) : Nat := Car.get x 111 108
/-- POST_SIG. -/
def Car.postSig (x : Car) : Nat := Car.get x 107 96
/-- POST_EN. -/
def Car.postEn (x : Car) : Bool := Car.get x 95 95 == 1
/-- FUNC of a signal, control, watch, shunt or yard car. -/
def Car.func (x : Car) : Nat := Car.get x 94 91
/-- ENG of a tile car. -/
def Car.eng (x : Car) : Nat := Car.get x 94 93

/-- The rule of R152: no wait without a step, no post signal without a post. -/
def Car.commonOk (x : Car) : Bool :=
  (Car.waitStep x != 0 || Car.waitSig x == 0) && (Car.postEn x || Car.postSig x == 0)

/-! ### Reading -/

/-- Address and number of cars of a cluster's consist in the staged image (06 R143). -/
def Image.consist (i : Image) (k : Nat) : Nat × Nat := Tab.get (0, 0) i.consists k

/-- The consist of a cluster, or an empty one. -/
def Chan.consist (x : Chan) (k : Nat) : Nat × Nat :=
  match x.run.image with
  | some i => i.consist k
  | none => (0, 0)

/-- Car `i` of cluster `k`'s consist, read from the staged image (06 R147). -/
def Chan.carAt (x : Chan) (k i : Nat) : Car := BitVec.ofNat 128 (x.mem.nat ((x.consist k).1 + 16 * i) 16)

/-- The address of a poisoned granule that reading car `i` meets (16 Table 16-2). -/
def Chan.carPoison (x : Chan) (k i : Nat) : Option Nat := x.mem.poisonIn ((x.consist k).1 + 16 * i) 16

/-- The clusters whose consist is not empty. -/
def Chan.live (x : Chan) : List Nat :=
  match x.run.image with
  | some i => (i.consists.filter (fun e => e.2.2 != 0)).map (·.1)
  | none => []

/-- In a replay pass, a signal outside the span's range keeps its target: the wait was satisfied in the first pass
(06 R165; log entry 27). -/
def Cluster.outside (cl : Cluster) (sig : Nat) : Bool :=
  match cl.span with
  | some p => p.ref.pass != 0 && !decide (p.sigLo ≤ sig ∧ sig ≤ p.sigHi)
  | none => false

/-- Raise the consist's wait target for a signal; the car keeps the value formed (06 R156). -/
def Cluster.raise (cl : Cluster) (sig step : Nat) : Cluster × Option (Nat × W16) :=
  if step = 0 || cl.outside sig then (cl, none)
  else
    let t := Tab.get 0 cl.targets sig + BitVec.ofNat 16 step
    ({ cl with targets := Tab.put 0 cl.targets sig t }, some (sig, t))

/-- The queue a car goes to: the tile engines 0 to 3, 4 the vector engine, 5 the shunter (01 R14); none for a car the sequencer
handles at the read point. -/
def queueOf (car : Car) : Option Nat :=
  match Car.cls car with
  | 1 => some (Car.eng car)
  | 2 => some 4
  | 3 => some 5
  | _ => none

/-- The cars in a queue. -/
def Cluster.queue (cl : Cluster) (q : Nat) : List QCar := Tab.get [] cl.queues q

/-- Replace a queue. -/
def Cluster.setQueue (cl : Cluster) (q : Nat) (l : List QCar) : Cluster := { cl with queues := Tab.put [] cl.queues q l }

/-- Read one car into its queue: its wait targets are formed now, the source wait before the destination wait
(06 R156, 08 R208). -/
def Cluster.enqueue (cl : Cluster) (q : Nat) (car : Car) : Cluster :=
  let w := cl.raise (Car.waitSig car) (Car.waitStep car)
  let d := if Car.cls car = 3 then w.1.raise (Car.get car 90 79) (Car.get car 78 75) else (w.1, none)
  let isTile := Car.cls car == 1
  let e : QCar :=
    { car := car, pos := cl.pos, wait := w.2, dst := d.2, iters := (cl.loops.map (·.iter)).reverse,
      span := cl.span.map (·.ref), inst := cl.inst, ordinal := cl.ordinal }
  { d.1.setQueue q (d.1.queue q ++ [e]) with
    pos := cl.pos + 1, inst := cl.inst + 1, ordinal := if isTile then cl.ordinal + 1 else cl.ordinal }

/-- Where reading a consist stops. -/
inductive ReadStop where
  /-- At the end of the consist, at a full queue, or because the cluster reads no more. -/
  | idle
  /-- At a car that the sequencer handles at the read point. -/
  | at (car : Car)
  /-- At a car of a reserved class. -/
  | invalid
  /-- At a car in a poisoned granule. -/
  | poison (addr : Nat)
  deriving DecidableEq, Repr

/-- Read cars in consist order until the read point must stop (01 R15, 06 R159). -/
def readCars (x : Chan) (k : Nat) : Nat → Cluster → Cluster × ReadStop
  | 0, cl => (cl, .idle)
  | n + 1, cl =>
    if cl.deadCars || decide ((x.consist k).2 ≤ cl.pos) then (cl, .idle)
    else
      match x.carPoison k cl.pos with
      | some a => (cl, .poison a)
      | none =>
        let car := x.carAt k cl.pos
        match queueOf car with
        | some q => if (cl.queue q).length < 16 then readCars x k n (cl.enqueue q car) else (cl, .idle)
        | none => if Car.cls car = 4 || Car.cls car = 5 || Car.cls car = 6 || Car.cls car = 7 then (cl, .at car)
                  else (cl, .invalid)

/-- Cluster `k` after the sequencer has read as far as it can, and where it stands. The six queues hold 16 cars each. -/
def Chan.readAhead (x : Chan) (k : Nat) : Cluster × ReadStop :=
  if x.ctl.st = .running then readCars x k 97 (x.run.cluster k) else (x.run.cluster k, .idle)

/-- A word of cluster `k`'s vector registers, 64 words a register: undefined after a channel reset, zero at launch (04 R92; log entry
7). -/
def Run.vreg (r : Run) (k i : Nat) : W32 :=
  match r.vregsFree with
  | some n => Config.freeWord (n + k * 4096 + i)
  | none => Tab.get 0 (r.cluster k).vregs i

/-! ### Signals -/

/-- The count of a signal as cluster `k` names it (06 R156). -/
def Chan.sigCount (x : Chan) (k sig : Nat) : W16 :=
  if sig < 256 then Tab.get 0 (x.run.cluster k).sigs sig else Tab.get 0 x.run.sigs sig

/-- Add to a signal (06 R156). -/
def State.addSignal (s : State) (c : Ch) (k sig amount : Nat) : State :=
  if sig < 256 then
    s.onCluster c k (fun cl => { cl with sigs := Tab.put 0 cl.sigs sig (Tab.get 0 cl.sigs sig + BitVec.ofNat 16 amount) })
  else s.onRun c (fun r => { r with sigs := Tab.put 0 r.sigs sig (Tab.get 0 r.sigs sig + BitVec.ofNat 16 amount) })

/-- Is a formed wait satisfied (06 R157)? -/
def Chan.waitMet (x : Chan) (k : Nat) (w : Option (Nat × W16)) : Bool :=
  match w with
  | none => true
  | some (sig, t) => decide ((x.sigCount k sig - t).toNat < 0x8000)

/-! ### Starting and completing cars -/

/-- A region has been lost in this run: the other regions issue nothing more (13 R327). -/
def Run.losing (r : Run) : Bool := r.stops.any (fun p => p.cause == 0x106)

/-- The channel runs, the cluster's region is on and no region loss has stopped issue (01 R13, 13 R324, R327). -/
def Chan.clusterOn (x : Chan) (k : Nat) : Bool :=
  x.ctl.st == .running && !(x.run.cluster k).deadCars && (x.sup.region (regionOf k)).st == .on && !x.run.losing

/-- Note that the channel did something (06 R160). -/
def State.touch (s : State) (c : Ch) : State := s.onRun c (fun r => { r with activeAt := s.count })

/-- A completed car counts for the stall watch (06 R160). -/
def State.progress (s : State) (c : Ch) : State :=
  s.onRun c (fun r => { r with progressAt := s.count, activeAt := s.count })

/-- A car has met a condition that makes it invalid: the cluster issues and reads no further car, and the channel will hold with
CAR_INVALID (03 R89). `row` numbers the condition of its class. -/
def State.carInvalid (s : State) (c : Ch) (k : Nat) (car : Car) (pos row : Nat) : State :=
  let eng := if Car.cls car = 1 then Car.eng car else Config.carEngine (Car.cls car)
  let t := s.onCluster c k (fun cl => { cl with deadCars := true })
  (t.touch c).stopFor c 0x102 0
    (paramBytes [(2, k), (2, eng), (4, pos), (2, Config.carCondition (Car.cls car) row)])

/-- The post of a completed car waits for its step: `id` names what must complete first (06 R158). -/
def State.pendPost (s : State) (c : Ch) (k : Nat) (car : Car) (id : Nat) : State :=
  let t := s.progress c
  if Car.postEn car then
    t.onRun c (fun r => { r with posts := r.posts ++ [{ id := id, cl := k, sig := Car.postSig car }] })
  else t

/-- A fresh car number. -/
def State.newId (s : State) (c : Ch) : Nat × State :=
  ((s.ch c).run.nextId, s.onRun c (fun r => { r with nextId := r.nextId + 1 }))

/-- The first car of a run has issued: a doorbell START or RESUME that waits for it may complete (11 R282). -/
def State.issued (s : State) (c : Ch) : State := (s.touch c).onRun c (fun r => { r with firstIssued := true })

/-- The channel with cluster `k` read as far as it can be. -/
def State.withRead (s : State) (c : Ch) (k : Nat) : State × ReadStop :=
  let r := (s.ch c).readAhead k
  (s.onRun c (fun q => q.setCluster k r.1), r.2)

/-- What reading met that ends it by itself: a poisoned granule of the image (16 Table 16-2) or a car of a reserved class
(06 R152). -/
def State.readStop (s : State) (c : Ch) (k : Nat) : Option State :=
  let r := s.withRead c k
  match r.2 with
  | .poison a => some (r.1.consumePoison c (a / 256 * 256) (0x0200 + k))
  | .invalid =>
    let pos := (r.1.cluster c k).pos
    some (r.1.carInvalid c k ((s.ch c).carAt k pos) pos 0)
  | _ => none

/-- The car at the head of a queue, when its cluster may issue and its wait is satisfied (01 R15). -/
def State.headCar (s : State) (c : Ch) (k q : Nat) : Option QCar :=
  let x := s.ch c
  if x.clusterOn k then
    match (x.run.cluster k).queue q with
    | e :: _ => if x.waitMet k e.wait then some e else none
    | [] => none
  else none

/-- Take the head of a queue. -/
def State.popCar (s : State) (c : Ch) (k q : Nat) : State :=
  s.onCluster c k (fun cl => cl.setQueue q ((cl.queue q).drop 1))

/-! ### Standing still (06 R160, 03 R89) -/

/-- The wait that holds a read point at a car: the formed target of its common wait, or of a signal car WAIT (06 R153, R159). -/
def readWait (cl : Cluster) (car : Car) : Option (Nat × W16) × Option (Nat × W16) :=
  let w := cl.raise (Car.waitSig car) (Car.waitStep car)
  if Car.cls car = 4 && Car.func car == 1 then (w.2, (w.1.raise (Car.get car 90 79) (Car.get car 78 67)).2) else (w.2, none)

/-- Is a read point at a LEG car of another leg than the current one (06 R162)? -/
def atNextLeg (x : Chan) (car : Car) : Bool :=
  Car.cls car == 6 && Car.func car == 0 && Car.get car 90 85 != x.run.leg

/-- Every earlier car of a span in its consist has completed (05 R117). -/
def Cluster.spanDone (cl : Cluster) (k : Nat) (posts : List PendPost) (p : OpenSpan) : Bool :=
  let mine := fun (e : QCar) => match e.span with
    | some r => r.layer == p.ref.layer && r.occ == p.ref.occ
    | none => false
  !cl.queues.any (fun q => q.2.any mine) && !cl.moves.any (fun m => mine m.q) &&
    !cl.refetch.any (fun r => match r.2 with | some f => mine f.q | none => false) &&
    !posts.any (fun q => q.cl == k && decide (p.sigLo ≤ q.sig ∧ q.sig ≤ p.sigHi))

/-- A COMMIT that the read point has passed may report (05 R117). -/
def Cluster.reportDue (cl : Cluster) (k : Nat) (posts : List PendPost) : Bool :=
  match cl.commits with
  | w :: _ => cl.spanDone k posts w.span
  | [] => false

/-- Nothing more can happen in a cluster until a signal is posted or the leg ends; a region switched off for the leg stands idle
(13 R322; log entry 36). -/
def Chan.stuck (x : Chan) (k : Nat) : Bool :=
  let r := x.readAhead k
  let cl := r.1
  let y : Chan := { x with run := x.run.setCluster k cl }
  !cl.reportDue k x.run.posts &&
  (cl.deadCars && cl.refetch.isEmpty && cl.moves.all (fun m => !m.started && !y.waitMet k m.q.dst) ||
  (List.range 6).all (fun q => match cl.queue q with | e :: _ => !y.waitMet k e.wait | [] => true) &&
   cl.refetch.isEmpty && cl.moves.all (fun m => !m.started && !y.waitMet k m.q.dst) &&
   (match r.2 with
    | .idle => (x.sup.region (regionOf k)).st == .on || (x.sup.region (regionOf k)).st == .off
    | .at car =>
      (x.sup.region (regionOf k)).st == .off || (x.sup.region (regionOf k)).st == .on &&
      (atNextLeg x car ||
       (Car.cls car == 6 && Car.func car == 3 && decide (64 ≤ x.watch.occs.length)) ||
       (Car.cls car != 6 && (!y.waitMet k (readWait cl car).1 || !y.waitMet k (readWait cl car).2)))
    | _ => false))

/-- An occurrence that the watch can decide: all its reports and checks are in (05 R117). -/
def Occ.ready (o : Occ) (w : Watch) : Bool :=
  o.parts == some (o.reports.length - 1) && !o.reports.isEmpty &&
    !w.checks.any (fun q => q.layer == o.layer && q.occ == o.occ)

/-- No mail of a car is outstanding; the yard's own messages do not count (10 R265). -/
def Hub.mailDone (h : Hub) : Bool := h.msgsOut.all (fun m => m.yard.isSome)

/-- No car executes and no work of the shunters, ports, host slice or watch, and no yard car, is outstanding (06 R160, R162); what
the yard does after its cars have completed is not asked (10 R256, R265). -/
def Chan.noWork (x : Chan) : Bool :=
  x.run.posts.isEmpty && x.hub.ops.isEmpty && x.hub.fences.isEmpty && x.hub.mailDone && x.host.ops.isEmpty &&
    x.yard.cars.isEmpty && x.watch.checks.isEmpty && x.watch.occs.all (fun o => !o.ready x.watch)

/-- Every consist stands still (06 R160). -/
def Chan.quiet (x : Chan) : Bool := x.noWork && x.live.all (fun k => x.stuck k)

/-- The cars in progress when a region was lost have completed; the yard is not waited for (13 R327, 10 R265). -/
def Chan.drained (x : Chan) : Bool :=
  x.run.posts.isEmpty && x.hub.ops.isEmpty && x.hub.fences.isEmpty && x.hub.mailDone && x.host.ops.isEmpty &&
    x.watch.checks.isEmpty &&
    x.run.clusters.all (fun e => !e.2.reportDue e.1 x.run.posts && e.2.refetch.isEmpty &&
      e.2.moves.all (fun m => !m.started && !x.waitMet e.1 m.q.dst))

/-- Once the channel stands still, the causes that have stopped it mid-leg hold it, in the order they arose; the time since an
ENGINE_SUSPECT verdict or a region loss is downtime (03 R89, 12 R308, 13 R327, 16 R374). -/
def State.settle (s : State) (c : Ch) : State :=
  let x := s.ch c
  if x.run.stops.isEmpty || x.ctl.st != .running || !(if x.run.losing then x.drained else x.quiet) then s
  else
    let t := x.run.stops.foldl (fun t p => t.enterHold c p.cause p.order p.param) s
    match x.run.stops.find? (fun p => downCause p.cause) with
    | some p => t.addDown c p.since
    | none => t

/-- Issue the head of a queue: read ahead first, then take the car to its meaning. Nothing happens when no car can start
there (log entry 26). -/
def State.issueFrom (s : State) (c : Ch) (k q : Nat) (body : QCar → State → Option State) : State :=
  match s.readStop c k with
  | some t => t.settle c
  | none =>
    let t := (s.withRead c k).1
    match t.headCar c k q with
    | some e => ((body e t).map (fun u => u.settle c)).getD s
    | none => s

/-- Handle the car at the read point: `body` takes the car and the cluster as read; nothing happens when the read point stands
elsewhere (06 R159, log entry 26). -/
def State.readPoint (s : State) (c : Ch) (k : Nat) (body : Car → State → Option State) : State :=
  match s.readStop c k with
  | some t => t.settle c
  | none =>
    let r := s.withRead c k
    match r.2 with
    | .at car => if (s.ch c).clusterOn k then ((body car r.1).map (fun u => u.settle c)).getD s else s
    | _ => s

/-- Move the read point past a car. -/
def State.pass (s : State) (c : Ch) (k : Nat) : State :=
  s.onCluster c k (fun cl => { cl with pos := cl.pos + 1, inst := cl.inst + 1 })

/-- The common wait of a car at the read point is formed and tested; `none` while it is not satisfied (06 R156, R159). -/
def State.commonWait (s : State) (c : Ch) (k : Nat) (car : Car) : Option State :=
  let cl := s.cluster c k
  let w := cl.raise (Car.waitSig car) (Car.waitStep car)
  if (s.ch c).waitMet k w.2 then some (s.onCluster c k (fun _ => w.1)) else none

/-- The signal rule of a span for a car at the read point: its post lies in the range (05 R115). -/
def spanPostOk (cl : Cluster) (car : Car) : Bool :=
  match cl.span with
  | some p => !Car.postEn car || decide (p.sigLo ≤ Car.postSig car ∧ Car.postSig car ≤ p.sigHi)
  | none => true

/-! ### Spans and layers -/

/-- The layer record of a layer of the loaded image, 0 when there is none (05 Table 05-2). -/
def Chan.layerRec (x : Chan) (layer : Nat) : Nat :=
  match x.run.image with
  | some i => Tab.get 0 i.layers layer
  | none => 0

/-- Is the layer watched (05 R113)? -/
def Chan.watched (x : Chan) (layer : Nat) : Bool := x.layerRec layer != 0

/-- LAYER, BASE, CEIL, Q4SEL of a record (05 Table 05-2). -/
def recLayer (r : Nat) : Nat := bits r 91 80
/-- The base rung. -/
def recBase (r : Nat) : Nat := bits r 15 13
/-- The ceiling rung. -/
def recCeil (r : Nat) : Nat := bits r 12 10
/-- Rung 1 is Q4i. -/
def recQ4i (r : Nat) : Bool := r.testBit 9
/-- The gradient exponent applies. -/
def recScale (r : Nat) : Bool := r.testBit 8
/-- Telltales apply. -/
def recTell (r : Nat) : Bool := r.testBit 7
/-- Crow's nest sampling applies. -/
def recCrow (r : Nat) : Bool := r.testBit 6
/-- The layer whose gradient this layer consumes. -/
def recSrc (r : Nat) : Nat := bits r 103 92

/-- The state of a layer. -/
def Watch.layer (w : Watch) (l : Nat) : LayerState := Tab.get LayerState.zero w.layers l

/-- The rules of a span for a car inside it (05 R115): its posts lie in the span's range; tile and vector cars name the span's
layer. -/
def spanOk (e : QCar) (x : Chan) (k : Nat) (layer : Option Nat) : Bool :=
  match e.span with
  | none => true
  | some r =>
    (match layer with | some l => l == r.layer | none => true) &&
    (!Car.postEn e.car ||
      (match x.watch.occs.find? (fun o => o.layer == r.layer && o.occ == r.occ) with
       | some o => decide (o.sigLo ≤ Car.postSig e.car ∧ Car.postSig e.car ≤ o.sigHi)
       | none => match (x.run.cluster k).span with
                 | some p => decide (p.sigLo ≤ Car.postSig e.car ∧ Car.postSig e.car ≤ p.sigHi)
                 | none => true))

/-- What fixes a car's draws: the key of the leg (or of KEY_LEG) and the ticket step (04 R110). -/
def Chan.draw (x : Chan) (leg : Nat) : Draw :=
  { key := ticketKey (match x.run.image with | some i => i.seed | none => 0) leg, step := x.run.ticketStep }

/-- SG − SGsrc of a GRAD car of a layer (05 R129). -/
def Chan.gradShift (x : Chan) (layer : Nat) (grad : Bool) : Int :=
  let r := x.layerRec layer
  if grad && recScale r then
    let src := recSrc r
    let sgs := if src ≠ 0 ∧ recScale (x.layerRec src) then (x.watch.layer src).sg else 0
    (x.watch.layer layer).sg - sgs
  else 0

/-! ### Substitution (05 R127) -/

/-- A gauge code as a pass at rung `r` sees it: a code on a rung from BASE to r − 1 takes the gauge of rung r; the second part
says whether it moved, the third whether it moved from rung 1 to rung 2 (05 R127). -/
def substGauge (base r : Nat) (q4i : Bool) (code : Nat) : Nat × Bool × Bool :=
  match Gauge.ofCode code with
  | none => (code, false, false)
  | some g =>
    if base ≤ g.rung ∧ g.rung < r then ((rungGauge q4i r).code, true, g.rung == 1 && r == 2) else (code, false, false)

/-- The tensor-scale flag after substitution: cleared unless the field moved from rung 1 to rung 2 (05 R127). -/
def substFlag (m : Nat × Bool × Bool) (flag : Bool) : Bool := flag && (!m.2.1 || m.2.2)

/-- The base rung and the rung of the pass that a car's span runs at, when it replays above BASE (05 R127). -/
def Chan.substOf (x : Chan) (e : QCar) : Option (Nat × Nat × Bool) :=
  match e.span with
  | none => none
  | some r =>
    let rc := x.layerRec r.layer
    if recBase rc < r.rung then some (recBase rc, r.rung, recQ4i rc) else none

end Sys2Proof.Machine
end

