-- ==== Sys2Proof/Machine/Reply.lean ====
section
/-! DEFINITION. Answers to dictionary requests: messages and datagrams on their way out, and the answers that a WAKE keeps waiting (12
R294 to R297, R305). -/

namespace Sys2Proof.Machine

/-- The customisation string of a tag, "VM40 TAG" (17 R388). -/
def customTag : List Byte := [0x56, 0x4d, 0x34, 0x30, 0x20, 0x54, 0x41, 0x47]

/-- The response to a message (12 Table 12-7). -/
def responseOf (b : List Byte) (status : Nat) (value : List Byte) : List Byte :=
  fitBytes 2 b ++ [BitVec.ofNat 8 (field b 2 1 + 0x80), 0] ++ bytesOfNat 2 (field b 4 2) ++ bytesOfNat 1 (field b 6 1) ++ [0] ++
    bytesOfNat 2 status ++ zeros 2 ++ bytesOfNat 2 value.length ++ zeros 2 ++ value

/-- Send a management datagram: by UDP from MGMT_PORT, or as a vendor-defined MCTP message, type 0x7F and the vendor's number before it
(12 R296). -/
def State.sendDatagram (s : State) (i3c : Bool) (d : List Byte) : State :=
  s.send (if i3c then .mctp (0x7f :: Config.vendorNumber ++ d) else .datagram s.m.mgmtPort d)

/-- The response datagram of a session, kept as its last response while its request is the last accepted (12 R297). -/
def State.replySession (s : State) (x : Session) (d : List Byte) (status : Nat) (value : List Byte) : State :=
  let head := d.take 12 ++ zeros 4 ++ responseOf ((d.take (d.length - 32)).drop 16) status value
  let rsp := head ++ kmac256 x.krsp head customTag
  (s.onM (fun m =>
    { m with sessions := m.sessions.map (fun y =>
        if y.number = x.number ∧ y.seq = field d 4 8 then { y with lastRsp := rsp } else y) })).sendDatagram x.i3c rsp

/-- The answer to a request. A session that has closed gets none, and a mailbox that a channel reset has cleared none (11 R286). -/
def State.reply (s : State) (q : Reply) (status : Nat) (value : List Byte) : State :=
  match q with
  | .plain v => s.send (.answer v status value)
  | .datagram n d =>
    match s.m.sessions.find? (fun x => x.number == n) with
    | some x => s.replySession x d status value
    | none => s
  | .chMbox c =>
    if (s.ch c).host.mbox.state = 1 then
      s.onHost c (fun h => { h with mbox := { h.mbox with rsp := responseOf (fitBytes 256 h.mbox.req) status value, state := 2 } })
    else s
  | .modMbox =>
    if s.m.mbox.state = 1 then
      s.onM (fun m => { m with mbox := { m.mbox with rsp := responseOf (fitBytes 256 m.mbox.req) status value, state := 2 } })
    else s

/-- Whether a channel's WAKE can have come this way: a channel mailbox commands its own channel alone (12 R293). -/
def Reply.wakes (c : Ch) : Reply → Bool
  | .chMbox d => d == c
  | _ => true

/-- The WAKE commands that wait for a channel are answered: once it is READY, or when it will not be (12 R305; log entry 67). -/
def State.answerWake (s : State) (c : Ch) (status : Nat) : State :=
  ((s.ch c).ctl.waking.filter (Reply.wakes c)).foldl (fun t q => t.reply q status [])
    (s.onCtl c (fun k => { k with waking := [] }))

end Sys2Proof.Machine
end

