-- ==== Sys2Proof/Machine/Flags.lean ====
section
/-! DEFINITION. What cars report to the watch: conversion counts, telltale contributions and gradient exponents, and the
numerics entries of the event log (05 R113, R120, R121, R131, R140). -/

namespace Sys2Proof.Machine

/-- Change an undecided occurrence. -/
def Watch.onOcc (w : Watch) (layer occ : Nat) (f : Occ → Occ) : Watch :=
  { w with occs := w.occs.map (fun o => if o.layer = layer ∧ o.occ = occ then f o else o) }

/-- An undecided occurrence. -/
def Watch.occ? (w : Watch) (layer occ : Nat) : Option Occ := w.occs.find? (fun o => o.layer == layer && o.occ == occ)

/-- Add a car's conversion counts to the channel totals and, for a car of a span, to its occurrence (05 R113, R120). -/
def Watch.report (w : Watch) (e : QCar) (n : Counts) : Watch :=
  let w := { w with totals := w.totals.add n }
  match e.span with
  | some r => w.onOcc r.layer r.occ (fun o => { o with counts := o.counts.add n })
  | none => w

/-- The squares' sum of the values a car stores, NaN skipped (05 R121). -/
def sumSquares (vs : List W32) : W32 := vs.foldl (fun s v => if isNan32 v then s else fma32 v v s) 0

/-- The largest exponent of finite non-zero values (05 R131). -/
def maxExpOf (vs : List W32) : Option Int :=
  vs.foldl (fun m v =>
    match (decode32 v).expo? with
    | some e => some (match m with | some x => max x e | none => e)
    | none => m) none

/-- The larger of two optional exponents. -/
def maxOpt (a b : Option Int) : Option Int :=
  match a, b with
  | some x, some y => some (max x y)
  | some x, none => some x
  | none, y => y

/-- Does the value have an exponent (finite and not zero)? -/
def finiteNonZero (v : W32) : Bool := (decode32 v).expo?.isSome

/-- A contributing car of a span adds its squares' sum and its codes to the telltales (05 R121). -/
def Watch.contribute (w : Watch) (k : Nat) (e : QCar) (grad : Bool) (vals : List W32) (n : Counts) (gauge raw : Nat) : Watch :=
  match e.span with
  | none => w
  | some r =>
    let c : Contrib :=
      { cl := k, inst := e.inst, grad := grad, sum := sumSquares vals, codes := n.stray + n.nan, gauge := gauge,
        rawGauge := raw }
    w.onOcc r.layer r.occ (fun o => { o with contribs := o.contribs ++ [c] })

/-- A GRAD car of a span adds the largest exponent of the gradients it has stored in tender to the statistics, their gradient
exponent SG taken off (05 R129, R131; log entry 63). -/
def Watch.observe (w : Watch) (e : QCar) (grad : Bool) (vals : List W32) : Watch :=
  match e.span with
  | none => w
  | some r =>
    let sg := (w.layer r.layer).sg
    if grad then w.onOcc r.layer r.occ (fun o => { o with maxExp := maxOpt o.maxExp ((maxExpOf vals).map (· - sg)) }) else w

/-- The 20 bytes of a numerics entry (05 Table 05-7). -/
def numericsBytes (layer occ : Nat) (tstep : W32) (rank gauges pass causes engine param : Nat) : List Byte :=
  bytesOfNat 2 layer ++ bytesOfNat 2 occ ++ bytesOfNat 4 tstep.toNat ++ bytesOfNat 2 rank ++ bytesOfNat 1 gauges ++
    bytesOfNat 1 pass ++ bytesOfNat 1 causes ++ bytesOfNat 1 0 ++ bytesOfNat 2 engine ++ bytesOfNat 4 param

/-- Log a numerics entry (05 R140). -/
def State.logNum (s : State) (c : Ch) (source code layer occ gauges pass causes engine param : Nat) : State :=
  let x := s.ch c
  s.logAs c source source code
    (numericsBytes layer occ x.run.ticketStep x.rank gauges pass causes engine param)

end Sys2Proof.Machine
end

