-- ==== Sys2Proof/Machine/Tile.lean ====
section
/-! DEFINITION. The tile engines: setting records, operands, accumulation, exit, reductions, zero exclusion and the crow's nest
sample (03 R56 to R91, 05 R127, R133 to R135). -/

namespace Sys2Proof.Machine

/-! ### Car and record -/

/-- A tile setting record, its gauges, tensor-scale flags, PROMO, SCL and BAXO as the pass sees them (03 Table 03-6, 05 R127);
`go0` is the output gauge of the stored record and `drop` says that a scale pass writes nothing (05 R127 step 4). -/
structure TileRec where
  raw : Nat
  ga : Nat
  gb : Nat
  go : Nat
  go0 : Nat
  tsa : Bool
  tsb : Bool
  tso : Bool
  promo : Nat
  scl : Bool
  baxo : Bool
  drop : Bool
  deriving DecidableEq, Repr

/-- A bit of the record. -/
def TileRec.flag (r : TileRec) (i : Nat) : Bool := r.raw.testBit i
/-- ORA. -/
def TileRec.ora (r : TileRec) : Bool := r.flag 12
/-- ORB. -/
def TileRec.orb (r : TileRec) : Bool := r.flag 13
/-- ACC_IN. -/
def TileRec.accIn (r : TileRec) : Bool := r.flag 17
/-- RNDL. -/
def TileRec.rndl (r : TileRec) : Bool := r.flag 18
/-- RNDO. -/
def TileRec.rndo (r : TileRec) : Bool := r.flag 19
/-- GRAD. -/
def TileRec.grad (r : TileRec) : Bool := r.flag 20
/-- REF. -/
def TileRec.ref (r : TileRec) : Bool := r.flag 23
/-- NZMAP. -/
def TileRec.nzmap (r : TileRec) : Bool := r.flag 28
/-- NZOUT. -/
def TileRec.nzout (r : TileRec) : Bool := r.flag 29
/-- PACK. -/
def TileRec.pack (r : TileRec) : Nat := bits r.raw 25 24
/-- RMODE. -/
def TileRec.rmode (r : TileRec) : Nat := bits r.raw 31 30
/-- TOPK_K + 1 (03 R82). -/
def TileRec.topk (r : TileRec) : Nat := bits r.raw 35 32 + 1
/-- LAYER. -/
def TileRec.layer (r : TileRec) : Nat := bits r.raw 47 36
/-- STREAM. -/
def TileRec.stream (r : TileRec) : Nat := bits r.raw 63 48
/-- SEED_POS. -/
def TileRec.seedPos (r : TileRec) : Nat := bits r.raw 79 64
/-- NZ_ADDR in bytes. -/
def TileRec.nzAddr (r : TileRec) : Nat := bits r.raw 95 80 * 32
/-- NZO_ADDR in bytes. -/
def TileRec.nzoAddr (r : TileRec) : Nat := bits r.raw 111 96 * 32
/-- NZO_BIT. -/
def TileRec.nzoBit (r : TileRec) : Nat := bits r.raw 127 116

/-- The groups of packed mode (03 R77). -/
def TileRec.groups (r : TileRec) : Nat := 2 ^ r.pack

/-- The promotion interval in tile blocks, n / 32 (03 R65). -/
def TileRec.step (r : TileRec) : Nat := 2 ^ r.promo

/-- Is a gauge code narrow? -/
def codeNarrow (g : Nat) : Bool := match Gauge.ofCode g with | some g => g.narrow | none => false

/-- The record of a pass: the stored record with the fields of R127 substituted. -/
def tileRecOf (raw op : Nat) (sub : Option (Nat × Nat × Bool)) : TileRec :=
  let m := fun code => match sub with | some (b, r, q) => substGauge b r q code | none => (code, false, false)
  let ga := m (bits raw 3 0)
  let gb := if op = 0 then m (bits raw 7 4) else (bits raw 7 4, false, false)
  let go := m (bits raw 11 8)
  let nn := codeNarrow ga.1 && codeNarrow gb.1
  let on := codeNarrow go.1
  { raw := raw, ga := ga.1, gb := gb.1, go := go.1, go0 := bits raw 11 8, tsa := substFlag ga (raw.testBit 14)
    tsb := substFlag gb (raw.testBit 15), tso := substFlag go (raw.testBit 16)
    promo := if sub.isSome && !nn then 0 else bits raw 27 26
    scl := raw.testBit 21 && (!sub.isSome || on), baxo := raw.testBit 22 && (!sub.isSome || on)
    drop := op == 2 && bits raw 31 30 == 2 && codeNarrow (bits raw 11 8) && !on }

/-- Code bytes per narrow block (03 Table 03-2). -/
def blockBytes (g : Gauge) : Nat := g.bitsPer * 4

/-- The tile-block size S (03 Table 03-2). -/
def tileBlock (g : Gauge) : Nat := if g.narrow then 32 * blockBytes g + 32 else 128 * g.bitsPer

/-- The tile-block size of a gauge code. -/
def tileBlockOf (g : Nat) : Nat := match Gauge.ofCode g with | some g => tileBlock g | none => 0

/-- OP of a tile car. -/
def Car.op (x : Car) : Nat := Car.get x 92 90
/-- CHAIN. -/
def Car.chain (x : Car) : Nat := Car.get x 89 88
/-- A_ADDR in bytes. -/
def Car.aAddr (x : Car) : Nat := Car.get x 87 72 * 32
/-- B_ADDR in bytes. -/
def Car.bAddr (x : Car) : Nat := Car.get x 71 56 * 32
/-- C_ADDR in bytes. -/
def Car.cAddr (x : Car) : Nat := Car.get x 55 40 * 32
/-- K_BLOCKS. -/
def Car.kBlocks (x : Car) : Nat := Car.get x 39 28
/-- SET_ADDR in bytes. -/
def Car.setAddr (x : Car) : Nat := Car.get x 27 12 * 32
/-- M_ACT: active rows minus 1. -/
def Car.mAct (x : Car) : Nat := Car.get x 11 7
/-- N_ACT: active columns minus 1. -/
def Car.nAct (x : Car) : Nat := Car.get x 6 2
/-- ZS. -/
def Car.zs (x : Car) : Bool := Car.get x 1 1 == 1

/-- The car starts an accumulation: SINGLE or START. -/
def Car.starts (x : Car) : Bool := Car.chain x == 0 || Car.chain x == 1
/-- The car writes results: SINGLE or FINISH (03 R71). -/
def Car.ends (x : Car) : Bool := Car.chain x == 0 || Car.chain x == 3

/-- The chain open on an engine. -/
def Cluster.chain? (cl : Cluster) (eng : Nat) : Option Chain := Tab.get none cl.chains eng

/-- Tile blocks of the chain before this car (03 R83). -/
def blocksBefore (ch : Option Chain) (car : Car) : Nat :=
  if Car.starts car then 0 else match ch with | some x => x.blocks | none => 0

/-- Bytes of the output extent; a scale pass that a replay has widened writes none (03 R73, R80 to R82, 05 R127 step 4). -/
def outBytes (car : Car) (r : TileRec) (kTotal : Nat) : Nat :=
  match Car.op car with
  | 0 => tileBlockOf r.go
  | 1 => 128
  | 2 => if r.rmode = 0 then 128 else if r.rmode = 1 then 128 * kTotal else if r.drop then 0 else tileBlockOf r.go * kTotal
  | _ => 4096 + 256

/-- The bytes a car outputs, for its time: a scale pass outputs one scale byte per row and block (03 R81, R90). -/
def outputBytes (car : Car) (r : TileRec) (kTotal : Nat) : Nat :=
  if Car.op car = 2 ∧ r.rmode = 2 then (if r.drop then 0 else 32 * kTotal) else outBytes car r kTotal

/-- Reserved fields of the record (03 Table 03-6). -/
def tileRecZeros (raw : Nat) : Bool := bits raw 255 128 == 0 && bits raw 115 112 == 0

/-- The rows of 03 Table 03-7 that a tile car breaks, if any. The cars of a chain share OP, and a tensor-scale flag of an operand that
the car does not read still names its granule (log entry 64). -/
def tileInvalid (car : Car) (r : TileRec) (ch : Option Chain) (e : QCar) (x : Chan) (k : Nat) : Option Nat :=
  let op := Car.op car
  let raw := r.raw
  let pr := bits raw 27 26
  let ga := bits raw 3 0
  let gb := bits raw 7 4
  let go := bits raw 11 8
  let n := Car.kBlocks car
  let before := blocksBefore ch car
  let lim := 32 / r.groups
  let fits := fun a len => decide (a + len ≤ tenderBytes)
  if !Car.commonOk car || Car.get car 0 0 != 0 || !tileRecZeros raw || decide (3 < op) || pr == 3 || r.pack == 3 ||
      (op == 2 && r.rmode == 3) || (op == 3 && raw.testBit 31) || (decide (op < 2) && r.rmode != 0) ||
      decide (6 < ga) || decide (6 < gb) || decide (6 < go) then some 0
  else if n = 0 then some 1
  else if (pr != 0 && !(codeNarrow ga && codeNarrow gb)) ||
      (match ch with
       | some y => Car.starts car || y.setAddr != Car.setAddr car || y.cAddr != Car.cAddr car || y.mAct != Car.mAct car ||
                   y.nAct != Car.nAct car || y.op != op
       | none => !Car.starts car) ||
      (!Car.ends car && n % 2 ^ pr != 0) then some 2
  else if r.accIn && go != 0 then some 3
  else if r.pack != 0 && (codeNarrow go || raw.testBit 21 || decide (lim ≤ Car.mAct car) || decide (lim ≤ Car.nAct car)) then
    some 4
  else if (Car.zs car && (Car.chain car != 0 || op != 0)) || ((r.nzmap || r.nzout) && op != 0) ||
      (r.nzmap && decide (4096 < before + n)) then some 5
  else if op != 0 && (Car.bAddr car != 0 || gb != 0 ||
      (if op == 2 && r.rmode == 2 then !codeNarrow go else go != 0)) then some 6
  else if !(fits (Car.aAddr car) (n * tileBlockOf r.ga)) ||
      (op == 0 && !(fits (Car.bAddr car) (n * tileBlockOf r.gb))) ||
      !(fits (Car.cAddr car) (outBytes car r (before + n))) ||
      (r.nzmap && !(fits r.nzAddr 1024)) || (r.nzout && !(fits r.nzoAddr 512)) ||
      (r.tsa && Car.aAddr car == 0) || (r.tsb && Car.bAddr car == 0) || (r.tso && Car.cAddr car == 0) then some 7
  else if !spanOk e x k (some r.layer) then some 8
  else if r.grad && (match x.run.image with | some i => i.flags.testBit 1 | none => false) then some 9
  else none

/-! ### Operands (03 R60 to R63) -/

/-- The tensor scale before an extent, if the flag is set (03 R63). -/
def tensorScale (m : Memory) (k addr : Nat) (flag : Bool) : Option W32 :=
  if flag then some (BitVec.ofNat 32 (m.nat (tenderAt k (addr - 32)) 4)) else none

/-- The code of index `x` at contraction position `q` of a tile block (03 R61, R62), and the offset of its scale byte. -/
def tileCode (m : Memory) (at0 : Nat) (g : Gauge) (ori : Bool) (x q : Nat) : Nat × Nat :=
  if g.narrow then
    let o := x * blockBytes g + q * g.bitsPer / 8
    (m.nat (at0 + o) 1 / 2 ^ (q * g.bitsPer % 8) % 2 ^ g.bitsPer, m.nat (at0 + 32 * blockBytes g + x) 1)
  else
    let p := if ori then q * 32 + x else x * 32 + q
    (m.nat (at0 + p * (g.bitsPer / 8)) (g.bitsPer / 8), 0)

/-- The 32 elements of one index of a tile block, as FP32 (03 R62, R63). -/
def tileRow (m : Memory) (at0 : Nat) (g : Gauge) (ori : Bool) (t : Option W32) (x : Nat) : List W32 :=
  tab 32 (fun q => let c := tileCode m at0 g ori x q; dequant g c.1 c.2 t)

/-- The stray codes among the 32 elements of one index. -/
def tileStrays (m : Memory) (at0 : Nat) (g : Gauge) (ori : Bool) (x : Nat) : Nat :=
  if g = .q2 then ((List.range 32).filter (fun q => strayCode g (tileCode m at0 g ori x q).1)).length else 0

/-- The active rows and columns: within each group, up to M_ACT and N_ACT (03 R57, R77). -/
def activeIdx (r : TileRec) (act : Nat) : List Nat :=
  (List.range 32).filter (fun i => decide (i % (32 / r.groups) ≤ act))

/-- The active outputs, in increasing row then column (03 R57, R77). -/
def activeOuts (r : TileRec) (car : Car) : List (Nat × Nat) :=
  (activeIdx r (Car.mAct car)).flatMap (fun i =>
    ((activeIdx r (Car.nAct car)).filter (fun j => i / (32 / r.groups) == j / (32 / r.groups))).map (fun j => (i, j)))

/-! ### Accumulation (03 R65 to R69) -/

/-- The exact sum of a run in the short accumulator: X, L and the truncation of R66, the special values of R68. -/
def runSum (g : Nat) (ps : List Fp) : Fp :=
  if ps.any (·.isNan) || (ps.any (fun p => p.isInf && p.sign) && ps.any (fun p => p.isInf && !p.sign)) then .nan
  else
    match ps.find? (·.isInf) with
    | some p => p
    | none =>
      match ps.foldl (fun m p => maxOpt m p.expo?) none with
      | none => .zero false
      | some x =>
        let l : Int := x - 41 + g
        let sum : Int := ps.foldl (fun s p =>
          match p with
          | .fin neg m e =>
            let q : Nat := if l ≤ e then m * 2 ^ (e - l).toNat else m / 2 ^ (l - e).toNat
            if neg then s - q else s + q
          | _ => s) 0
        .fin (decide (sum < 0)) sum.natAbs l

/-- A promotion: acc + S rounded once; a zero run sum leaves the accumulator as it is (03 R68, R69). -/
def promote (acc : W32) (s : Fp) (r : Rounding) : W32 :=
  if s.isZero then acc else ((decode32 acc).add s).to32With r

/-- The rounding of a promotion: ticket position r, i, j under SR (03 R70); a run index from 2^29 on is taken modulo 2^29 (log entry
64). -/
def promoRound (d : Draw) (r : TileRec) (run i j : Nat) : Rounding :=
  if r.rndl then
    .sr (d.u16 (streamId r.stream r.layer) (r.seedPos * 2 ^ 40 + run % 2 ^ 29 * 2 ^ 10 + (i * 32 + j)))
  else .rne

/-- Group the included blocks of a car by run (03 R65). -/
def runsOf (step before : Nat) (blocks : List Nat) : List (Nat × List Nat) :=
  let ids := (blocks.map (fun b => (before + b) / step)).dedup
  ids.map (fun i => (i, blocks.filter (fun b => (before + b) / step == i)))

/-- One output after the promotions of the runs of a car: `xs` and `ys` give the operand elements of a block (03 R65 to R70). -/
def accumulateRuns (d : Draw) (r : TileRec) (i j : Nat) (xs ys : Nat → List W32) (runs : List (Nat × List Nat)) (acc : W32) :
    W32 :=
  runs.foldl (fun a u =>
    let ps := u.2.flatMap (fun b => ((xs b).zip (ys b)).map (fun p => (decode32 p.1).mul (decode32 p.2)))
    promote a (runSum r.promo ps) (promoRound d r u.1 i j)) acc

/-- One output of a matrix product after the runs of a car: by R65 to R70, or in the reference gauge by R86. -/
def accumulate (d : Draw) (r : TileRec) (i j : Nat) (xs ys : Nat → List W32) (runs : List (Nat × List Nat)) (acc : W32) :
    W32 :=
  if r.ref then
    (runs.flatMap (·.2)).foldl (fun a b => ((xs b).zip (ys b)).foldl (fun a p => add32 a (mul32 p.1 p.2)) a) acc
  else accumulateRuns d r i j xs ys runs acc

/-- The reference result beside the accumulators, for a sampled chain (05 R135, 03 R86). -/
def refAccumulate (xs ys : Nat → List W32) (blocks : List Nat) (acc : W32) : W32 :=
  blocks.foldl (fun a b => ((xs b).zip (ys b)).foldl (fun a p => add32 a (mul32 p.1 p.2)) a) acc

/-- A value rounded toward plus infinity into FP32. -/
def up32 (v : Fp) : W32 := v.to32With .up

/-- The sum of magnitudes of R135, rounded up throughout. -/
def sigmaAccumulate (xs ys : Nat → List W32) (blocks : List Nat) (acc : W32) : W32 :=
  blocks.foldl (fun a b => ((xs b).zip (ys b)).foldl (fun a p =>
    up32 ((decode32 a).add (decode32 (up32 ((decode32 p.1).mul (decode32 p.2)).abs)))) a) acc

/-! ### The exit (03 R73 to R75) -/

/-- The rounding of the exit narrowing of output (i, j) (03 R70, R73). -/
def exitRound (d : Draw) (r : TileRec) (i j : Nat) : Rounding :=
  if r.rndo || r.grad then .sr (d.u16 (streamId r.stream r.layer) (narrowPos r.seedPos (i * 32 + j))) else .rne

/-- The exact value the exit narrows: the accumulator times 2^shift (05 R129), divided by the tensor scale (02 R44). -/
def exitValue (shift : Int) (t : Option W32) (v : W32) : Fp := scaled ((decode32 v).scale shift) t

/-- What an exit writes: the output extent with none for bytes left as they are, the values stored, the counts, and whether a scale
byte written is 0xFF. -/
structure Exit where
  bytes : List (Option Byte)
  vals : List W32
  counts : Counts
  ff : Bool
  deriving DecidableEq, Repr

/-- Write the low `w` bits of `v` over bit `b` of a byte. -/
def setBits (old b w v : Nat) : Nat := old - bits old (b + w - 1) b * 2 ^ b + v % 2 ^ w * 2 ^ b

/-- The exit of a broad or standard output; a tensor scale set on a broad one divides as it does on a standard one (log entry 64). -/
def exitBroad (d : Draw) (r : TileRec) (g : Gauge) (outs : List (Nat × Nat)) (shift : Int) (t : Option W32)
    (acc : Nat → Nat → W32) : Exit :=
  let w := g.bitsPer / 8
  let cs := outs.map (fun o => (o, narrowOne g (exitRound d r o.1 o.2) (exitValue shift t (acc o.1 o.2))))
  let bytes := tab (1024 * w) (fun b =>
    match cs.find? (fun c => c.1.1 * 32 + c.1.2 == b / w) with
    | some c => some (BitVec.ofNat 8 (c.2.1 / 256 ^ (b % w)))
    | none => none)
  { bytes := bytes, vals := cs.map (fun c => dequant g c.2.1 0 t)
    counts := cs.foldl (fun n c => n.add c.2.2) {}, ff := false }

/-- The exit of a narrow output: block `n` holds row n (BAXO = 0) or column n (BAXO = 1); the scale is LOCAL or the supplied byte
`supplied n`; `old` is the extent as it stands (03 R73, R74). -/
def exitNarrow (d : Draw) (r : TileRec) (g : Gauge) (outs : List (Nat × Nat)) (shift : Int) (t : Option W32)
    (acc : Nat → Nat → W32) (old : List Byte) : Exit :=
  let bb := blockBytes g
  let per := g.bitsPer
  let cell := fun n x => if r.baxo then (x, n) else (n, x)
  let blocks := tab 32 (fun n =>
    let xs := (List.range 32).filter (fun x => outs.contains (cell n x))
    let sup := if r.scl then none else some (field old (32 * bb + n) 1)
    let ys := xs.map (fun x =>
      let o := cell n x
      (exitValue shift t (acc o.1 o.2), exitRound d r o.1 o.2))
    (xs, if xs.isEmpty then none else some (narrowBlock g sup ys)))
  let codeOf := fun (b : List Nat × Option NarrowBlock) x =>
    match b.2 with
    | some nb => ((b.1.zip nb.codes).find? (fun p => p.1 == x)).map (·.2)
    | none => none
  let codeBytes := tab (32 * bb) (fun o =>
    let b := blocks.getD (o / bb) ([], none)
    let per8 := 8 / per
    let got := (List.range per8).map (fun i => codeOf b (o % bb * per8 + i))
    if got.all (·.isNone) then none
    else
      let v := got.zipIdx.foldl (fun v p =>
        match p.1 with | some c => setBits v (p.2 * per) per c | none => v) (field old o 1)
      some (BitVec.ofNat 8 v))
  let scales := blocks.map (fun b => b.2.map (fun nb => BitVec.ofNat 8 nb.scale))
  let vals := outs.map (fun o =>
    let n := if r.baxo then o.2 else o.1
    let x := if r.baxo then o.1 else o.2
    let b := blocks.getD n ([], none)
    match b.2, codeOf b x with
    | some nb, some c => dequant g c nb.scale t
    | _, _ => 0)
  { bytes := codeBytes ++ scales, vals := vals
    counts := blocks.foldl (fun n b => match b.2 with | some nb => n.add nb.counts | none => n) {}
    ff := blocks.any (fun b => match b.2 with | some nb => nb.scale == 0xff | none => false) }

/-- The exit into the output gauge. -/
def exitTile (d : Draw) (r : TileRec) (outs : List (Nat × Nat)) (shift : Int) (t : Option W32) (acc : Nat → Nat → W32)
    (old : List Byte) : Exit :=
  match Gauge.ofCode r.go with
  | some g => if g.narrow then exitNarrow d r g outs shift t acc old else exitBroad d r g outs shift t acc
  | none => { bytes := [], vals := [], counts := {}, ff := false }

/-! ### Zero exclusion (03 R83, R84) -/

/-- A bit of a zero map. -/
def mapBit (m : Memory) (a b : Nat) : Bool := (m.nat (a + b / 8) 1).testBit (b % 8)

/-- The blocks of a car that its true half includes (03 R83). -/
def includedBlocks (m : Memory) (k : Nat) (r : TileRec) (before n : Nat) : List Nat :=
  (List.range n).filter (fun b => !r.nzmap || mapBit m (tenderAt k (r.nzAddr + 512)) (before + b))

/-- Speculation is in force (03 R84). -/
def speculates (x : Chan) (car : Car) (r : TileRec) : Bool := r.nzmap && Car.zs car && x.watch.zeroSkipNow

/-- The blocks predicted zero (03 R84). -/
def predictedZero (m : Memory) (k : Nat) (r : TileRec) (n : Nat) : List Nat :=
  (List.range n).filter (fun b => !mapBit m (tenderAt k r.nzAddr) b)

/-- The blocks a misprediction misses: true and predicted zero (03 R84, 08 R216). -/
def missedBlocks (m : Memory) (k : Nat) (r : TileRec) (n : Nat) : List Nat :=
  (predictedZero m k r n).filter (fun b => mapBit m (tenderAt k (r.nzAddr + 512)) b)

/-! ### The crow's nest sample (05 R133, R134) -/

/-- The pass a car belongs to. -/
def QCar.pass (e : QCar) : Nat := match e.span with | some r => r.pass | none => 0

/-- Is a car sampled (05 R133)? -/
def sampled (x : Chan) (k : Nat) (e : QCar) (r : TileRec) : Bool :=
  let rate := x.watch.crowRateNow
  Car.op e.car == 0 && Car.starts e.car && !r.ref && rate != 0 && recCrow (x.layerRec r.layer) &&
    decide (((x.draw x.run.leg).u16 0x10000001 (e.pass * 2 ^ 56 + k * 2 ^ 40 + e.ordinal)) < 2 ^ (16 - rate))

/-- The checking cluster of a sampled cluster (05 R134). -/
def checkingCluster (x : Chan) (k : Nat) : Option Nat :=
  ((List.range 23).map (fun m => (k + 192 + 16 * m) % 384)).find? (fun q =>
    (x.sup.region (regionOf q)).st == .on && regionOf q != regionOf k)

/-- Numbers of engines: cluster × 4 + ENG (05 Table 05-6); the engine that runs a car, moved by a relocated replay (05 R136). -/
def engineOf (k : Nat) (e : QCar) : Nat :=
  let n := k * 4 + Car.eng e.car
  match e.span with
  | some r => match r.moved.find? (fun p => p.1 == n) with | some p => p.2 | none => n
  | none => n

/-! ### Running a tile car -/

/-- The bytes of a tile block at `at0` that hold its active indices, by group: block codes and scale bytes of a narrow gauge, whole
rows at orientation 0, a piece of every row at orientation 1 (03 R57, R61, R62, R77). -/
def activeBytes (g : Gauge) (ori : Bool) (groups act at0 : Nat) : List (Nat × Nat) :=
  let w := g.bitsPer / 8
  (List.range groups).flatMap (fun γ =>
    let lo := γ * (32 / groups)
    if g.narrow then [(at0 + lo * blockBytes g, (act + 1) * blockBytes g), (at0 + 32 * blockBytes g + lo, act + 1)]
    else if ori then tab 32 (fun q => (at0 + (q * 32 + lo) * w, (act + 1) * w))
    else [(at0 + lo * 32 * w, (act + 1) * 32 * w)])

/-- The bytes of an operand's included blocks that a car reads (03 R57, R83). -/
def operandReads (k addr g : Nat) (ori : Bool) (groups act : Nat) (blocks : List Nat) : List (Nat × Nat) :=
  match Gauge.ofCode g with
  | some g => blocks.flatMap (fun b => activeBytes g ori groups act (tenderAt k (addr + b * tileBlock g)))
  | none => []

/-- The ranges of its own tender that a car reads: record, the active elements of the included blocks, tensor scales, maps, and the
output extent where it starts from it or reads supplied scales from it (03 R57). -/
def tileReads (k : Nat) (car : Car) (r : TileRec) (blocks : List Nat) : List (Nat × Nat) :=
  let m := Car.mAct car
  let n := Car.nAct car
  let c := tenderAt k (Car.cAddr car)
  (tenderAt k (Car.setAddr car), 32) ::
    operandReads k (Car.aAddr car) r.ga r.ora r.groups m blocks ++
    (if Car.op car = 0 then operandReads k (Car.bAddr car) r.gb r.orb r.groups n blocks else []) ++
    (if r.tsa then [(tenderAt k (Car.aAddr car - 32), 32)] else []) ++
    (if r.tsb then [(tenderAt k (Car.bAddr car - 32), 32)] else []) ++
    (if r.tso then [(tenderAt k (Car.cAddr car - 32), 32)] else []) ++
    (if r.nzmap then [(tenderAt k r.nzAddr, 1024)] else []) ++
    (if r.accIn && Car.starts car then
      (if Car.op car = 0 then
        (activeIdx r m).map (fun i => (c + 4 * (i * 32 + i / (32 / r.groups) * (32 / r.groups)), 4 * (n + 1)))
      else (activeIdx r m).map (fun i => (c + 4 * i, 4))) else []) ++
    (if Car.op car = 0 && Car.ends car && codeNarrow r.go && !r.scl then
      [(c + tileBlockOf r.go - 32, (if r.baxo then n else m) + 1)] else [])

/-- Memory finds damage among the granules a step reads: the named ones that lie in the ranges are poisoned and logged (16 R362). -/
def State.meetFaults (s : State) (c : Ch) (source : Nat) (ranges : List (Nat × Nat)) (faults : List MemFault) : State :=
  faults.foldl (fun t f =>
    if ranges.any (fun r => overlaps r.1 r.2 (f.addr / 256 * 256) 256) then t.damage c f source else t) s

/-- The first poisoned granule of some ranges. -/
def Memory.poisonAmong (x : Memory) (ranges : List (Nat × Nat)) : Option Nat :=
  if x.marks.isEmpty then none else ranges.findSome? (fun r => x.poisonIn r.1 r.2)

/-- A fresh chain: accumulators at +0 or at the tile of the output extent (03 R69). -/
def freshChain (m : Memory) (k : Nat) (car : Car) (r : TileRec) (outs : List (Nat × Nat)) : Chain :=
  let acc : Tab W32 :=
    if r.accIn then
      outs.foldl (fun t o =>
        Tab.put 0 t (o.1 * 32 + o.2)
          (BitVec.ofNat 32 (m.nat (tenderAt k (Car.cAddr car + 4 * (if Car.op car = 0 then o.1 * 32 + o.2 else o.1))) 4))) []
    else []
  { setAddr := Car.setAddr car, cAddr := Car.cAddr car, mAct := Car.mAct car, nAct := Car.nAct car, op := Car.op car
    blocks := 0, included := [], acc := acc, refAcc := acc, top := [], nans := [], maxes := []
    sigma := acc.foldl (fun t p => Tab.put 0 t p.1 (abs32 p.2)) [], promos := 0, sampled := false, exact := true, ids := [] }

/-- The operand elements of one index, per block. -/
def operandOf (m : Memory) (k addr : Nat) (g : Nat) (ori : Bool) (t : Option W32) (x b : Nat) : List W32 :=
  match Gauge.ofCode g with
  | some g => tileRow m (tenderAt k (addr + b * tileBlock g)) g ori t x
  | none => []

/-- The stray codes a car reads from one operand. -/
def operandStrays (m : Memory) (k addr : Nat) (g : Nat) (ori : Bool) (xs blocks : List Nat) : Nat :=
  match Gauge.ofCode g with
  | some g => (blocks.map (fun b => (xs.map (fun x => tileStrays m (tenderAt k (addr + b * tileBlock g)) g ori x)).sum)).sum
  | none => 0

/-- The blocks of one matrix product added to a chain (03 R65 to R71, R83). -/
def matmulChain (x : Chan) (k : Nat) (car : Car) (r : TileRec) (blocks : List Nat) (ch : Chain) : Chain :=
  let m := x.mem
  let d := x.draw x.run.leg
  let ta := tensorScale m k (Car.aAddr car) r.tsa
  let tb := tensorScale m k (Car.bAddr car) r.tsb
  let outs := activeOuts r car
  let runs := runsOf r.step ch.blocks blocks
  let xs := fun i b => operandOf m k (Car.aAddr car) r.ga r.ora ta i b
  let ys := fun j b => operandOf m k (Car.bAddr car) r.gb r.orb tb j b
  let upd := fun (f : Nat → Nat → W32 → W32) (t : Tab W32) =>
    outs.foldl (fun t o => Tab.put 0 t (o.1 * 32 + o.2) (f o.1 o.2 (Tab.get 0 t (o.1 * 32 + o.2)))) t
  { ch with
    blocks := ch.blocks + Car.kBlocks car
    included := ch.included ++ blocks.map (fun b => ch.blocks + b)
    acc := upd (fun i j a => accumulate d r i j (xs i) (ys j) runs a) ch.acc
    refAcc := if ch.sampled then upd (fun i j a => refAccumulate (xs i) (ys j) blocks a) ch.refAcc else ch.refAcc
    sigma := if ch.sampled then upd (fun i j a => sigmaAccumulate (xs i) (ys j) blocks a) ch.sigma else ch.sigma
    promos := ch.promos + runs.length }

/-- The stray codes a tile car reads, in the included blocks and active indices of its operands (02 R37, R53, 03 R83). -/
def carStrays (x : Chan) (k : Nat) (car : Car) (r : TileRec) (blocks : List Nat) : Nat :=
  operandStrays x.mem k (Car.aAddr car) r.ga r.ora (activeIdx r (Car.mAct car)) blocks +
    (if Car.op car = 0 then operandStrays x.mem k (Car.bAddr car) r.gb r.orb (activeIdx r (Car.nAct car)) blocks else 0)

/-- The FP32 value at or next above `num / den`, for quotients from 2^−36 on (05 R135): a denominator that is not positive gives
infinity, since R72 asserts no bound there. -/
def quotUp (num : Nat) (den : Int) : W32 :=
  if den ≤ 0 then 0x7f800000 else up32 (.fin false (ceilDiv (num * 2 ^ 60) den.toNat) (-60))

/-- The coefficient B of R135, from R72: for RNE, P u (1 + ε) + ε; for SR, γ (1 + ε) + ε with γ = 2Pu / (1 − 2Pu); rounded up.
ε is 0 for exact runs, 2^(−36 + 2g) otherwise (03 R66, R67). -/
def boundB (r : TileRec) (exact : Bool) (p : Nat) : W32 :=
  let eps : Fp := if exact then .zero false else .fin false 1 (-36 + 2 * r.promo)
  let pu : Fp := .fin false p (-24)
  let lin := if r.rndl then decode32 (quotUp (2 * p) (2 ^ 24 - 2 * (p : Int))) else pu
  up32 ((lin.mul ((Fp.fin false 1 0).add eps)).add eps)

/-- Do the runs of a record discard no bit, ε = 0 (03 R67, Table 03-3)? -/
def exactRuns (r : TileRec) (ta tb : Option W32) : Bool :=
  let okG := fun g => codeNarrow g || g == 2
  let okT := fun (t : Option W32) => match t with
    | some t => tensorScaleOk t && t.toNat % 2 ^ 23 == 0
    | none => true
  okG r.ga && okG r.gb && r.promo == 0 && okT ta && okT tb

/-- The limit λ of one element, every operation rounded up (05 R135). -/
def crowLimit (r : TileRec) (exact : Bool) (p kk : Nat) (sigma : W32) : W32 :=
  let b := decode32 (boundB r exact p)
  let f := decode32 (up32 (b.add (.fin false kk (-24))))
  let m := decode32 (up32 (f.mul (decode32 sigma)))
  up32 (m.add (.fin false (p + 2 * kk + 3) (-149)))

/-- Store a car's output and let the watch know: the counts are those of this car, `stray` codes read among them (03 R73 to R75,
05 R120, R121). -/
def State.tileExit (s : State) (c : Ch) (k : Nat) (e : QCar) (r : TileRec) (ch : Chain) (stray : Nat) : State :=
  let x := s.ch c
  let car := e.car
  let old := x.mem.read (tenderAt k (Car.cAddr car)) (tileBlockOf r.go)
  let t := tensorScale x.mem k (Car.cAddr car) r.tso
  let ex := exitTile (x.draw x.run.leg) r (activeOuts r car) (x.gradShift r.layer r.grad) t
    (fun i j => Tab.get 0 ch.acc (i * 32 + j)) old
  let n := ex.counts.add { stray := stray }
  let nz := ex.ff || ex.vals.any (fun v => isNan32 v || !isZero32 v)
  let s := s.onMem c (fun m => m.writeMask (tenderAt k (Car.cAddr car)) ex.bytes)
  let s := if r.nzout then
      s.onMem c (fun m =>
        let a := tenderAt k (r.nzoAddr + r.nzoBit / 8)
        m.write a [BitVec.ofNat 8 (setBits (m.nat a 1) (r.nzoBit % 8) 1 (if nz then 1 else 0))])
    else s
  s.onWatch c (fun w => ((w.report e n).contribute k e r.grad ex.vals n r.go r.go0).observe e r.grad ex.vals)

/-- Set or clear an engine's chain. -/
def State.setChain (s : State) (c : Ch) (k eng : Nat) (ch : Option Chain) : State :=
  s.onCluster c k (fun cl => { cl with chains := Tab.put none cl.chains eng ch })

/-- Queue a crow's nest check of a finished chain, or count the sample as skipped (05 R134, R135). -/
def State.queueCheck (s : State) (c : Ch) (k : Nat) (e : QCar) (r : TileRec) (ch : Chain) (ids : List Nat) : State :=
  let x := s.ch c
  match checkingCluster x k with
  | none => s.onWatch c (fun w => { w with skips := w.skips + 1 })
  | some q =>
    let car := e.car
    let kk := 32 * ch.included.length
    let cells := (activeOuts r car).map (fun o => o.1 * 32 + o.2)
    let limit := cells.foldl (fun t i => Tab.put 0 t i (crowLimit r ch.exact ch.promos kk (Tab.get 0 ch.sigma i))) []
    let chk : Check :=
      { ids := ids, layer := r.layer, occ := e.span.map (·.occ), pass := e.pass, sampled := engineOf k e
        checker := q * 4 + (Car.eng car + 1) % 4, acc := ch.acc, ref := ch.refAcc, limit := limit, cells := cells
        free := cells.filter (fun i => isInf32 (Tab.get 0 ch.sigma i)) }
    s.onWatch c (fun w => { w with checks := w.checks ++ [chk] })

/-- The number of active ACLK cycles of a tile car, in units that ENGINE_CYCLES counts (03 R90, 12 Table 12-5). -/
def tileCycles (car : Car) (r : TileRec) (included kTotal : Nat) : Nat :=
  let cb1 := fun g => match Gauge.ofCode g with
    | some .q2 => 8 | some .q4i => 16 | some .q4f => 16 | some .e4m3 => 32 | some .e5m2 => 32 | some .bf16 => 64 | _ => 512
  let cp := max (cb1 r.ga) (cb1 r.gb)
  let dd := if cp = 8 then 4 else if cp = 16 then 2 else 1
  let cb := match Car.op car with
    | 0 => if r.ref then 512 else cp / min r.groups dd
    | 3 => 32
    | _ => max 4 (ceilDiv (tileBlockOf r.ga) 256)
  let start := if Car.starts car then 14 else 0
  let acc := if r.accIn && Car.starts car then 8 else 0
  let fin := if Car.ends car then
      6 + ceilDiv (outputBytes car r kTotal) 256 + (if Car.op car = 0 && r.scl && codeNarrow r.go then 2 else 0) +
        (if Car.op car = 3 then 34 else 0)
    else 0
  start + acc + included * cb + fin

/-- Add a car's cycles to the counters of its unit, tile engines 0 to 3 and the vector engine 4: active cycles, and the cycles it
waited for operands and for the tender's arbitration, which the manual leaves to the traffic of the moment (03 R91, 04 R108; log entry
42). Cycles are kept whole and shown in units of 2^16 (12 Table 12-5). -/
def State.addCycles (s : State) (c : Ch) (k unit n : Nat) : State :=
  let f := s.freeNo
  let add := fun (t : Tab Nat) (kind v : Nat) => Tab.put 0 t (3 * unit + kind) (Tab.get 0 t (3 * unit + kind) + v)
  ({ s with freeNo := f + 2 } : State).onCluster c k (fun cl =>
    { cl with cycles := add (add (add cl.cycles 0 n) 1 (Config.freeWord f).toNat) 2 (Config.freeWord (f + 1)).toNat })

/-- Run a matrix product whose included blocks are known: accumulate, and at the end of a chain write the results, copy the
true half into the prediction half under speculation, and send a sampled chain to its check (03 R71, R73, R84, 05 R135). -/
def State.runMatmul (s : State) (c : Ch) (k : Nat) (e : QCar) (r : TileRec) (blocks : List Nat) : State :=
  let x := s.ch c
  let car := e.car
  let eng := Car.eng car
  let nid := s.newId c
  let s := nid.2
  let ch0 := match (x.run.cluster k).chain? eng with
    | some y => if Car.starts car then freshChain x.mem k car r (activeOuts r car) else y
    | none => freshChain x.mem k car r (activeOuts r car)
  let ch0 := if Car.starts car then { ch0 with sampled := sampled x k e r } else ch0
  let ch0 := { ch0 with exact := ch0.exact && (blocks.isEmpty ||
    exactRuns r (tensorScale x.mem k (Car.aAddr car) r.tsa) (tensorScale x.mem k (Car.bAddr car) r.tsb)) }
  let ch := matmulChain x k car r blocks ch0
  let ch := { ch with ids := ch.ids ++ [nid.1] }
  let stray := carStrays x k car r blocks
  let s := s.addCycles c k eng (tileCycles car r blocks.length ch.blocks)
  let s := if Car.ends car then
      let s := (s.tileExit c k e r ch stray).setChain c k eng none
      let s := if speculates x car r then
          s.onMem c (fun m => m.write (tenderAt k r.nzAddr) (m.read (tenderAt k (r.nzAddr + 512)) 512))
        else s
      if ch.sampled then s.queueCheck c k e r ch ch.ids else s
    else (s.onWatch c (fun w => w.report e { stray := stray })).setChain c k eng (some ch)
  (s.pendPost c k car nid.1).issued c

/-- A tile car at the head of its queue: the record is read, the car checked, poison looked for in the blocks it issues; then `body`
runs it with the blocks its true half includes (03 R84, R89, 16 R363). -/
def State.tileCar (s : State) (c : Ch) (k eng op : Nat) (faults : List MemFault)
    (body : QCar → TileRec → List Nat → State → State) : State :=
  s.issueFrom c k eng (fun e t =>
    let x := t.ch c
    let car := e.car
    let cl := x.run.cluster k
    if (Tab.get none cl.refetch eng).isSome then none
    else
      let t1 := t.meetFaults c (0x0200 + k) [(tenderAt k (Car.setAddr car), 32)] faults
      match (t1.ch c).mem.poisonIn (tenderAt k (Car.setAddr car)) 32 with
      | some a => some (t1.consumePoison c a (0x0200 + k))
      | none =>
        let raw := x.mem.nat (tenderAt k (Car.setAddr car)) 32
        let r := tileRecOf raw (Car.op car) (x.substOf e)
        match tileInvalid car r (cl.chain? eng) e x k with
        | some row => some (t.carInvalid c k car e.pos row)
        | none =>
          if Car.op car ≠ op then none
          else
            let blocks := includedBlocks x.mem k r (blocksBefore (cl.chain? eng) car) (Car.kBlocks car)
            let rs := tileReads k car r (if speculates x car r then blocks.filter (fun b => mapBit x.mem (tenderAt k r.nzAddr) b)
              else blocks)
            let t := t.meetFaults c (0x0200 + k) rs faults
            match (t.ch c).mem.poisonAmong rs with
            | some a => some (t.consumePoison c a (0x0200 + k))
            | none => some (body e r blocks (t.popCar c k eng)))

/-- MATMUL (03 R56 to R79, R83 to R87). -/
def execMatmul (w : At) (eng : Fin 4) (faults : List MemFault) (s : State) : Host.Outcome State Fault Refusal :=
  let s := s.meet w
  let c := w.ch
  let k := w.cl.val
  .next (s.tileCar c k eng 0 faults (fun e r blocks t =>
    let x := t.ch c
    let n := Car.kBlocks e.car
    if speculates x e.car r then
      let pz := (predictedZero x.mem k r n).length
      let miss := missedBlocks x.mem k r n
      let t := t.onCluster c k (fun cl => { cl with zsPred := cl.zsPred + pz })
      if miss.isEmpty then t.runMatmul c k e r blocks
      else
        -- 03 R84: a misprediction. The accumulators are dropped and the shunter is asked for the missing blocks.
        let nid := t.newId c
        (nid.2.onCluster c k (fun cl =>
          { cl with zsMis := cl.zsMis + 1,
                    refetch := Tab.put none cl.refetch eng (some { q := e, blocks := miss, id := nid.1, staged := [] }) })).touch
          c
    else t.runMatmul c k e r blocks))

/-! ### Row reductions (03 R80 to R82) -/

/-- Insert a value in the order of TOPK: larger first or smaller first, equal values by position (03 R82). -/
def topkInsert (small : Bool) (v : W32 × Nat) : List (W32 × Nat) → List (W32 × Nat)
  | [] => [v]
  | u :: us =>
    if (if small then lt32 v.1 u.1 else lt32 u.1 v.1) then v :: u :: us else u :: topkInsert small v us

/-- The larger magnitude, NaN above infinity (03 R81). -/
def maxAbs32 (a b : W32) : W32 :=
  if isNan32 a || isNan32 b then nan32 else max32 (abs32 a) (abs32 b)

/-- The reductions of one car added to a chain. -/
def reduceChain (x : Chan) (k : Nat) (car : Car) (r : TileRec) (blocks : List Nat) (ch : Chain) : Chain :=
  let m := x.mem
  let d := x.draw x.run.leg
  let ta := tensorScale m k (Car.aAddr car) r.tsa
  let rows := activeIdx r (Car.mAct car)
  let row := fun i b => operandOf m k (Car.aAddr car) r.ga r.ora ta i b
  let base := ch.blocks
  let ch := { ch with blocks := base + Car.kBlocks car, included := ch.included ++ blocks.map (base + ·) }
  match Car.op car with
  | 1 =>
    let ones := fun (_ : Nat) => List.replicate 32 one32
    let runs := runsOf 1 base blocks
    { ch with acc := rows.foldl (fun t i =>
        Tab.put 0 t (i * 32) (accumulateRuns d r i 0 (row i) ones runs (Tab.get 0 t (i * 32)))) ch.acc }
  | 2 =>
    { ch with maxes := rows.foldl (fun t i => blocks.foldl (fun t b =>
        let mx := (row i b).foldl maxAbs32 0
        if r.rmode = 0 then Tab.put 0 t i (maxAbs32 (Tab.get 0 t i) mx)
        else Tab.put 0 t ((base + b) * 32 + i) mx) t) ch.maxes }
  | _ =>
    rows.foldl (fun ch i => blocks.foldl (fun ch b =>
      (row i b).zipIdx.foldl (fun ch v =>
        if isNan32 v.1 then { ch with nans := Tab.put 0 ch.nans i (Tab.get 0 ch.nans i + 1) }
        else
          let l := topkInsert (r.flag 30) (v.1, (base + b) * 32 + v.2) (Tab.get [] ch.top i)
          { ch with top := Tab.put [] ch.top i (l.take r.topk) }) ch) ch) ch

/-- The output extent of a reduction, none where nothing is written: the active rows of every group (03 R77, R80 to R82). The scale
bytes of a GRAD scale pass take no gradient exponent (log entry 64). -/
def reduceOut (x : Chan) (k : Nat) (car : Car) (r : TileRec) (ch : Chain) : List (Option Byte) :=
  let act := (activeIdx r (Car.mAct car)).contains
  let word := fun (w : W32) (b : Nat) => some (BitVec.ofNat 8 (w.toNat / 256 ^ (b % 4)))
  match Car.op car with
  | 1 => tab 128 (fun b => if act (b / 4) then word (canon32 (Tab.get 0 ch.acc (b / 4 * 32))) b else none)
  | 2 =>
    if r.rmode = 0 then tab 128 (fun b => if act (b / 4) then word (Tab.get 0 ch.maxes (b / 4)) b else none)
    else if r.rmode = 1 then
      tab (128 * ch.blocks) (fun b => if act (b / 4 % 32) then word (Tab.get 0 ch.maxes (b / 4)) b else none)
    else
      match Gauge.ofCode r.go with
      | some g =>
        let t := tensorScale x.mem k (Car.cAddr car) r.tso
        tab (tileBlock g * ch.blocks) (fun o =>
          let b := o / tileBlock g
          let i := o % tileBlock g - 32 * blockBytes g
          if 32 * blockBytes g ≤ o % tileBlock g ∧ act i = true then
            some (BitVec.ofNat 8 (blockScale g [scaled (decode32 (Tab.get 0 ch.maxes (b * 32 + i))) t]))
          else none)
      | none => []
  | _ =>
    let top := fun i => Tab.get [] ch.top i
    tab 4096 (fun b =>
      let i := b / 128
      if act i then
        match (top i)[b / 8 % 16]? with
        | some v => if b % 8 < 4 then word v.1 b else some (BitVec.ofNat 8 (v.2 % 2 ^ 32 / 256 ^ (b % 4)))
        | none => if b % 8 < 4 then word nan32 b else some 0xff
      else none) ++
    tab 256 (fun b =>
      let i := b / 8
      if act i then
        let nn := min (Tab.get 0 ch.nans i) 0xffffffff
        match b % 8 with
        | 4 => some (BitVec.ofNat 8 (top i).length)
        | 5 => some (if (top i).isEmpty then 1 else 0)
        | 6 => some 0
        | 7 => some 0
        | j => some (BitVec.ofNat 8 (nn / 256 ^ j))
      else none)

/-- Run a reduction car: the strays it reads count; its words are no converted elements (02 R53; log entry 64). -/
def State.runReduce (s : State) (c : Ch) (k : Nat) (e : QCar) (r : TileRec) (blocks : List Nat) : State :=
  let x := s.ch c
  let car := e.car
  let eng := Car.eng car
  let nid := s.newId c
  let s := nid.2
  let rows := (activeIdx r (Car.mAct car)).map (fun i => (i, 0))
  let ch0 := if Car.starts car then freshChain x.mem k car r rows
    else ((x.run.cluster k).chain? eng).getD (freshChain x.mem k car r rows)
  let ch := reduceChain x k car r blocks ch0
  let s := s.addCycles c k eng (tileCycles car r blocks.length ch.blocks)
  let s := s.onWatch c (fun w => w.report e { stray := carStrays x k car r blocks })
  let s := if Car.ends car then
      let s := if r.drop then s
        else s.onMem c (fun m => m.writeMask (tenderAt k (Car.cAddr car)) (reduceOut x k car r ch))
      s.setChain c k eng none
    else s.setChain c k eng (some ch)
  (s.pendPost c k car nid.1).issued c

/-- SUM (03 R80). -/
def execSum (w : At) (eng : Fin 4) (s : State) : Host.Outcome State Fault Refusal :=
  let s := s.meet w
  .next (s.tileCar w.ch w.cl eng 1 [] (fun e r blocks t => t.runReduce w.ch w.cl e r blocks))

/-! ### Stopped cars (03 R76) -/

/-- The 32-byte granules that a range touches. -/
def smallGranules (a n : Nat) : List Nat := (List.range ((a + n + 31) / 32 - a / 32)).map (fun i => (a / 32 + i) * 32)

/-- The car at the head of a tile engine's queue as the stop of its region finds it: it had issued or not, and an issued car has written
some of the 32-byte granules of its output extent and of its zero-map granule, each whole. Which is free (03 R76; log entry 55). -/
def State.stopTile (s : State) (c : Ch) (k eng : Nat) : State :=
  let x := s.ch c
  match s.headCar c k eng with
  | none => s
  | some e =>
    let car := e.car
    let r := tileRecOf (x.mem.nat (tenderAt k (Car.setAddr car)) 32) (Car.op car) (x.substOf e)
    let ch := (x.run.cluster k).chain? eng
    let blocks := includedBlocks x.mem k r (blocksBefore ch car) (Car.kBlocks car)
    if !Car.ends car || (tileInvalid car r ch e x k).isSome || (x.mem.poisonAmong (tileReads k car r blocks)).isSome then s
    else
      let out := tenderAt k (Car.cAddr car)
      let len := outBytes car r (blocksBefore ch car + Car.kBlocks car)
      let gs := smallGranules out len ++
        (if Car.op car = 0 ∧ r.nzout = true then smallGranules (tenderAt k (r.nzoAddr + r.nzoBit / 8)) 1 else [])
      let done := ((if Car.op car = 0 then s.runMatmul c k e r blocks else s.runReduce c k e r blocks).ch c).mem
      let f := s.freeNo
      let s : State := { s with freeNo := f + 1 + gs.length }
      if Config.freeBool f then
        gs.zipIdx.foldl (fun t g => if Config.freeBool (f + 1 + g.2) then t.store c g.1 (done.read g.1 32) else t) s
      else s

/-- The tile cars of a region as its stop finds them (03 R76). -/
def State.stopTiles (s : State) (c : Ch) (r : Nat) : State :=
  (List.range 64).foldl (fun t i => ((t.withRead c (16 * r + i / 4)).1).stopTile c (16 * r + i / 4) (i % 4)) s

/-- MAXABS (03 R81). -/
def execMaxabs (w : At) (eng : Fin 4) (s : State) : Host.Outcome State Fault Refusal :=
  let s := s.meet w
  .next (s.tileCar w.ch w.cl eng 2 [] (fun e r blocks t => t.runReduce w.ch w.cl e r blocks))

/-- TOPK (03 R82). -/
def execTopk (w : At) (eng : Fin 4) (s : State) : Host.Outcome State Fault Refusal :=
  let s := s.meet w
  .next (s.tileCar w.ch w.cl eng 3 [] (fun e r blocks t => t.runReduce w.ch w.cl e r blocks))

end Sys2Proof.Machine
end

