-- ==== Sys2Proof/Machine/Power.lean ====
section
/-! DEFINITION. Reefing: the sources of a reef step, frequency changes, easing, droop, power shares, cells, region loss and the
switching of regions (13 R309 to R330, 14 R333 to R340). -/

namespace Sys2Proof.Machine

/-! ### Time -/

/-- Have `n` counts passed since count `t`? Before the departure count is released no time can be told, and the event itself says that
its time has come (log entry 29). -/
def State.after (s : State) (t n : Nat) : Bool := !s.counting || decide (t + n ≤ s.count)

/-- The station master runs. -/
def State.smReady (s : State) : Bool := s.m.sm == .ready

/-- The module is under power (18 R404). -/
def State.live (s : State) : Bool := s.m.sm != .off

/-! ### The reef steps (13 Table 13-3) -/

/-- n of a reef step. -/
def reefN (s : Nat) : Nat := [20, 18, 16, 14, 12, 10, 8, 5].getD s 5
/-- Typical core voltage of a reef step, in mV. -/
def reefMv (s : Nat) : Nat := [600, 580, 560, 530, 510, 490, 470, 450].getD s 450
/-- Typical channel power of a reef step, in W. -/
def reefW (s : Nat) : Nat := [1185, 1015, 860, 695, 570, 460, 365, 250].getD s 250

/-- Power scaled from one step to another by the ratio of the typical values (13 R314, R316; log entry 30). -/
def scalePower (p : W32) (step cur : Nat) : W32 := mul32 p (div32 (natTo32 (reefW step)) (natTo32 (reefW cur)))

/-- The largest of some numbers. -/
def maxOf (l : List Nat) : Nat := l.foldl max 0

/-- Is a region powered: on, or on its way up under a grant? -/
def Region.powered (r : Region) : Bool := r.st == .on || r.st == .ramping

/-- The powered regions of a channel. -/
def Supply.poweredRegions (u : Supply) : List Nat := allRegions.filter (fun r => (u.region r).powered)

/-- The regions that are on. -/
def Supply.onRegions (u : Supply) : List Nat := allRegions.filter (fun r => (u.region r).st == .on)

/-- Change every region. -/
def Supply.mapRegions (u : Supply) (f : Nat → Region → Region) : Supply :=
  { u with regions := Vector.ofFn (fun i => f i.val u.regions[i]) }

/-- Number of healthy cells. -/
def Region.healthy (r : Region) : Nat := ((List.range 16).filter (fun i => r.cells.testBit i)).length

/-- Failed cells of a region. -/
def Region.failed (r : Region) : Nat := 16 - r.healthy

/-- The step that derating by cells requires (13 Table 13-6). -/
def Region.derate (r : Region) : Nat := min 3 r.failed

/-- The voltage of a region at a reef step: the characterised one, or the typical one before characterisation. -/
def Region.mvAt (r : Region) (step : Nat) : Nat := r.stepMv.getD step (reefMv step)

/-- Does a region carry a stay to a lost neighbour (13 R327)? -/
def Supply.carries (u : Supply) (r : Nat) : Bool :=
  (neighboursOf r).any (fun n => (u.region n).st == .lost && (u.region n).stays)

/-- The voltage a region holds at a step: a region that carries a stay holds at least 500 mV (13 R327). -/
def Supply.holdMv (u : Supply) (r step : Nat) : Nat :=
  let v := (u.region r).mvAt step
  if u.carries r then max 500 v else v

/-- The step whose voltage a region holds: the present one; while an upward change has its regions raised, and for a ramping region that
is expected on after the change count, the pending target (13 R318, 14 R339, R340). -/
def Supply.level (u : Supply) (r : Region) : Nat :=
  match u.change with
  | some g => if (r.st = .on ∧ g.raised = true) ∨ (r.st = .ramping ∧ g.due < r.expect) then g.target else u.step
  | none => u.step

/-- The regions that are on or ramping take the voltages of their steps. -/
def Supply.settle (u : Supply) : Supply :=
  u.mapRegions (fun i r => if r.powered then { r with mv := u.holdMv i (u.level r) } else r)

/-! ### Sources and decisions (13 R315, R316, 14 R337, R338) -/

/-- Does a shed source stand (13 R309, R321)? -/
def Module.shedding (m : Module) : Bool := m.shedPin || m.shedLow

/-- The steps that the sources other than the power share require, by REEF_CAUSE bit (13 Table 13-4). -/
def State.otherSteps (s : State) (c : Ch) : List (Nat × Nat) :=
  let u := (s.ch c).sup
  let p := u.poweredRegions
  let derate := fun r => if (u.region r).st = .lost then 0 else (u.region r).derate
  [(0, s.m.ceiling), (1, maxOf (allRegions.map derate)), (2, maxOf (p.map (fun r => (u.region r).fastest))),
   (4, u.sustained), (5, maxOf (p.map (fun r => (u.region r).tstep))), (6, if s.m.shedding then s.m.shedStep else 0)]

/-- The power-share step (13 R316): the fastest whose estimate does not exceed the share, or the slowest. -/
def Supply.shareNow (u : Supply) : Nat :=
  ((List.range 8).find? (fun t => !lt32 u.share (scalePower u.power t u.step))).getD 7

/-- A share is set, and the power-share step evaluated (13 R316); between such evaluations it stands. -/
def Supply.setShare (u : Supply) (w : W32) : Supply :=
  let v := { u with share := w }
  { v with shareStep := v.shareNow }

/-- All sources. -/
def State.reefSteps (s : State) (c : Ch) : List (Nat × Nat) := (3, (s.ch c).sup.shareStep) :: s.otherSteps c

/-- The step a channel's sources require. -/
def State.required (s : State) (c : Ch) : Nat := min 7 (maxOf ((s.reefSteps c).map (·.2)))

/-- REEF_CAUSE: the sources that set the present step. -/
def State.reefCause (s : State) (c : Ch) : Nat :=
  let u := (s.ch c).sup
  if u.step = 0 then 0
  else ((s.reefSteps c).filter (fun e => min 7 e.2 == u.step)).foldl (fun a e => a + 2 ^ e.1) 0

/-- The first multiple of 1,024 at or above a count. -/
def up1024 (n : Nat) : Nat := ceilDiv n 1024 * 1024

/-- The change count of a decision made now (14 R337). -/
def State.changeCount (s : State) : Nat := up1024 (s.count + 4096)

/-- May an upward change be decided now: its change count lies 1 ms or more after the last one (13 R315)? -/
def State.upDue (s : State) (c : Ch) : Bool :=
  let l := (s.ch c).sup.lastUp
  decide (l = 0 ∨ l + 118750 ≤ s.changeCount)

/-- A channel reefs while it is not OFF, its root is locked and the module is not in SAFE (13 R315, 15 Table 15-4). -/
def State.reefs (s : State) (c : Ch) : Bool := (s.ch c).ctl.st != .off && (s.ch c).sup.locked && s.m.st != .safe

/-- What a demand for a step makes of the pending change (14 R337, R338). -/
def State.nextChange (s : State) (c : Ch) (req : Nat) : Option Change :=
  let u := (s.ch c).sup
  match u.change with
  | none =>
    if u.step < req then some { due := s.changeCount, target := req, up := false, raised := false, after := none }
    else if req < u.step ∧ s.upDue c = true then
      some { due := s.changeCount, target := u.step - 1, up := true, raised := false, after := none }
    else none
  | some g =>
    if g.up then
      if req ≤ g.target then some g
      else if u.step < req then some { due := s.changeCount, target := req, up := false, raised := false, after := none }
      else none
    else if req ≤ g.target then some g
    else if s.count + 1024 ≤ g.due then some { g with target := req }
    else
      some { g with after := match g.after with
        | some a => some (a.1, max a.2 req)
        | none => some (s.changeCount, req) }

/-- A channel re-evaluates its reef step (13 R315). -/
def State.reefDecide (s : State) (c : Ch) : State :=
  if s.reefs c then
    let g := s.nextChange c (s.required c)
    let s := s.onSup c (fun u => Supply.settle { u with change := g })
    s.onSup c (fun u => { u with cause := s.reefCause c })
  else s

/-- Every channel re-evaluates. -/
def State.reefAll (s : State) : State := s.eachCh (fun c t => t.reefDecide c)

/-! ### Shares (13 R319, R320) -/

/-- The channels that are not OFF. -/
def State.liveCh (s : State) : List Ch := allCh.filter (fun c => (s.ch c).ctl.st != .off)

/-- POWER_ALLOWANCE less MODULE_BASE. -/
def State.divisible (s : State) : W32 := natTo32 (s.m.allowance - 40)

/-- Equal shares, until shares are next computed (13 R319). -/
def State.equalShares (s : State) : State :=
  let k := s.liveCh.length
  (s.liveCh.foldl (fun t c => t.onSup c (fun u => u.setShare (div32 s.divisible (natTo32 k)))) s).reefAll

/-- The water level (13 R320): `under` is the set of channels below the last level. -/
def waterLevel (a : W32) (demands : List W32) : Nat → List Bool → W32 → W32
  | 0, _, level => level
  | n + 1, under, level =>
    let now := demands.map (fun d => lt32 d level)
    if now.all id || now == under then level
    else
      let low := (demands.zip now).filter (·.2)
      let sum := (low.map (·.1)).foldl add32 0
      waterLevel a demands n now (div32 (sub32 a sum) (natTo32 (demands.length - low.length)))

/-- The demand of a channel (13 R320). -/
def State.demandOf (s : State) (c : Ch) : W32 :=
  let u := (s.ch c).sup
  if (s.ch c).ctl.st = .running then scalePower u.power (min 7 (maxOf ((s.otherSteps c).map (·.2)))) u.step else u.power

/-- Compute the shares (13 R320). -/
def State.computeShares (s : State) : State :=
  let live := s.liveCh
  if live.isEmpty then s
  else
    let demands := live.map s.demandOf
    let level := waterLevel s.divisible demands 6 [] (div32 s.divisible (natTo32 live.length))
    (live.zip demands).foldl (fun t e => t.onSup e.1 (fun u => u.setShare (if lt32 e.2 level then e.2 else level))) s

/-- POWER_SHARE (13 R320, R329): the measurements of the last millisecond, the shares, and the decisions they lead to. -/
def execPowerShare (p : Measured) (s : State) : Host.Outcome State Fault Refusal :=
  .next (if s.smReady then
      let s := s.onM (fun m =>
        { m with power := p.modulePower, volts := p.volts, amps := p.amps, energy := m.energy + p.moduleMilliJ })
      let s := s.eachCh (fun c t => t.onSup c (fun u =>
        { u with power := p.channelPower.getD c.val 0, energy := u.energy + p.channelMilliJ.getD c.val 0 }))
      s.computeShares.reefAll
    else s)

/-! ### Limits and easing (13 R310, R311, R313, R319, R321) -/

/-- The sustained limits of the rails VCORE_IN, VSRAM, VIO and VMEM, in mA (13 Table 13-2). -/
def sustainedLimits : List Nat := [720000, 180000, 60000, 40000]
/-- The window limits of the rails, in mA (13 Table 13-2). -/
def windowLimits : List Nat := [800000, 200000, 66000, 48000]

/-- What is counted as drawn on VCORE_IN for regions switched on under a grant: 60 A each, in mA (13 R324). -/
def Supply.reservedMa (u : Supply) : Nat := 60000 * (allRegions.filter (fun r => (u.region r).reserved)).length

/-- The rails' currents with what is reserved on VCORE_IN. -/
def Supply.drawn (u : Supply) (amps : List Nat) : List Nat := tab 4 (fun i => amps.getD i 0 + if i = 0 then u.reservedMa else 0)

/-- The current limit of a region, in mA: 5 A for each healthy cell (13 R311). -/
def Region.limitMa (r : Region) : Nat := 5000 * r.healthy

/-- The limit of the module's input power, in mW: 5,600 W, and SHED_POWER from the start of a shed until the change to SHED_STEP has taken
effect in every channel (13 R319, R321). -/
def State.powerLimit (s : State) : Nat :=
  if s.m.shedding && allCh.any (fun c => s.reefs c && decide ((s.ch c).sup.step < min 7 s.m.shedStep)) then
    1000 * min 5600 s.m.shedPower
  else 5600000

/-- The averages that the easing of a scope guards, each with its limit (13 R313). -/
def State.guardedBy (s : State) (scope : EaseScope) (a : Averages) : List (Nat × Nat) :=
  match scope with
  | .region c r =>
    let u := (s.ch c).sup
    [(a.own + if u.carries r.val then a.stay else 0, (u.regions[r]).limitMa)]
  | .channel c =>
    let u := (s.ch c).sup
    (u.drawn a.window).zip windowLimits ++ (u.drawn a.sustained).zip sustainedLimits
  | .module => [(a.power, s.powerLimit)]

/-- Change the easing level of a scope; while a channel's own level stands above 0, rail easing occurs there (13 R317). -/
def State.ease (s : State) (scope : EaseScope) (f : Nat → Nat) : State :=
  match scope with
  | .region c r => s.onRegion c r (fun x => { x with easing := f x.easing })
  | .channel c => s.onSup c (fun u =>
      { u with easing := f u.easing, quietSince := if u.easing = 0 ∧ f u.easing = 0 then u.quietSince else s.count })
  | .module => s.onM (fun m => { m with easing := f m.easing })

/-- EASING_RISE (13 R313): an average stands within 3 % of its limit. -/
def execEasingRise (scope : EaseScope) (a : Averages) (s : State) : Host.Outcome State Fault Refusal :=
  .next (if s.live && (s.guardedBy scope a).any (fun e => decide (97 * e.2 ≤ 100 * e.1)) then s.ease scope (fun e => min 15 (e + 1)) else s)

/-- EASING_FALL (13 R313): every guarded average stands below 90 %. -/
def execEasingFall (scope : EaseScope) (a : Averages) (s : State) : Host.Outcome State Fault Refusal :=
  .next (if s.live && (s.guardedBy scope a).all (fun e => decide (100 * e.1 < 90 * e.2)) then s.ease scope (· - 1) else s)

/-- SUSTAINED_LIMIT (13 R317): the share of issue cycles eased in the last 1 ms, and the rails' averages over it in mA. -/
def execSustainedLimit (c : Ch) (easedOf16 : Nat) (amps : List Nat) (s : State) : Host.Outcome State Fault Refusal :=
  .next (if s.reefs c then
      let u := (s.ch c).sup
      let near := ((u.drawn amps).zip sustainedLimits).any (fun e => decide (80 * e.2 ≤ 100 * e.1))
      let busy := easedOf16 ≠ 0 ∨ near = true ∨ u.easing ≠ 0
      let t := s.onSup c (fun u =>
        if 1 < easedOf16 then { u with sustained := min 7 (u.step + 1), quietSince := s.count }
        else if busy then { u with quietSince := s.count }
        else if u.quietSince + 1187500 ≤ s.count then { u with sustained := u.sustained - 1, quietSince := s.count }
        else u)
      if (t.ch c).sup.sustained = u.sustained then t else t.reefDecide c
    else s)

/-! ### Margins and cells (13 R312, R326) -/

/-- MARGIN_MONITOR (13 R312): the step whose voltage the region holds is the one that is adjusted (log entry 5). -/
def execMarginMonitor (c : Ch) (r : Rg) (margin : Nat) (s : State) : Host.Outcome State Fault Refusal :=
  .next (
    let u := (s.ch c).sup
    let x := u.regions[r]
    if x.st != .on then s
    else
      let j := u.level x
      let setMv := fun v => (s.onRegion c r (fun y =>
          { y with stepMv := (tab 8 y.mvAt).set j v, lowSince := none })).onSup c Supply.settle
      if margin < 12 then
        let v := u.holdMv r.val j + 5
        if 800 < v then
          let f := min 7 (max x.fastest (j + 1))
          ((s.onRegion c r (fun y => { y with fastest := f, lowSince := none })).log c (0x0100 + r.val) 0x0d05
            [(2, r.val), (2, f)]).reefDecide c
        else setMv v
      else if 30 < margin then
        match x.lowSince with
        | none => s.onRegion c r (fun y => { y with lowSince := some s.count })
        | some t =>
          if s.after t 11875000 then
            (setMv (max 450 (x.mvAt j - 5))).onRegion c r (fun y => { y with lowSince := some s.count })
          else s
      else s.onRegion c r (fun y => { y with lowSince := none }))

/-- The region's cars stop without posting: queues, moves and posts of its clusters go (13 R327, 03 R76). -/
def Run.darken (q : Run) (r : Nat) : Run :=
  let mine := fun k => decide (regionOf k = r)
  { q with
    clusters := q.clusters.map (fun e =>
      if mine e.1 then (e.1, { e.2 with deadCars := true, queues := [], chains := [], refetch := [], moves := [], commits := [] }) else e)
    posts := q.posts.filter (fun p => !mine p.cl) }

/-- Every cluster of the region reads and issues nothing more, cars or not. -/
def Run.deaden (q : Run) (r : Nat) : Run :=
  (List.range 16).foldl (fun q i => q.setCluster (16 * r + i) { q.cluster (16 * r + i) with deadCars := true }) q

/-- Discard a loaded image that requires a lost region (13 R327, 12 R305). -/
def State.dropImageFor (s : State) (c : Ch) (r : Nat) : State :=
  match (s.ch c).run.image with
  | some i => if i.regionMask.testBit r then (s.depotEmpty c).onRun c Run.drop else s
  | none => s

/-- A region is lost (13 R327): its stays close, and what follows depends on the channel's state. -/
def State.loseRegion (s : State) (c : Ch) (r : Rg) (cause : Nat) : State :=
  let s := if (s.ch c).ctl.st = .running then s.stopTiles c r.val else s
  let s := s.onRegion c r (fun x =>
    { x with st := .lost, stays := true, reserved := false, easing := 0, lag := 0, lagRem := 0, mv := 500 })
  let s := s.log c (0x0100 + r.val) 0x0d02 [(2, r.val), (2, cause)]
  let s := match (s.ch c).ctl.st with
    | .running =>
      ((s.onRun c (fun q => (q.darken r.val).deaden r.val)).stopFor c 0x106 (0x0100 + r.val)
        (paramBytes [(2, r.val), (2, cause)])).settle c
    | .hold => s.stopFor c 0x106 (0x0100 + r.val) (paramBytes [(2, r.val), (2, cause)])
    | .ready => s.dropImageFor c r.val
    | .standby => s.dropImageFor c r.val
    | .boot =>
      if (s.ch c).ctl.boot.phase = BootPhase.reset then s.onRegion c r (fun x => { x with stays := false, mv := 0 }) else s
    | _ => s
  (s.onSup c Supply.settle).reefDecide c

/-- CELL_FAILED (13 R326): cause 0 is share, 1 short or overcurrent. -/
def execCellFailed (c : Ch) (r : Rg) (cell : Fin 16) (cause : Nat) (s : State) : Host.Outcome State Fault Refusal :=
  .next (
    let x := (s.ch c).sup.regions[r]
    if (s.ch c).ctl.st = .off ∨ x.st = .lost ∨ !x.cells.testBit cell.val then s
    else
      let t := (s.onRegion c r (fun y => { y with cells := y.cells - 2 ^ cell.val })).log c (0x0100 + r.val) 0x0d01
        [(2, r.val), (2, cell.val), (2, cause)]
      if 4 ≤ ((t.ch c).sup.regions[r]).failed then t.loseRegion c r 0 else t.reefDecide c)

/-- REGION_LOST (13 R327). -/
def execRegionLost (c : Ch) (r : Rg) (cause : Nat) (s : State) : Host.Outcome State Fault Refusal :=
  .next (if (s.ch c).ctl.st = .off ∨ ((s.ch c).sup.regions[r]).st = .lost then s else s.loseRegion c r cause)

/-! ### Frequency changes (14 R337 to R340) -/

/-- An upward change is cancelled: it is counted, logged, and retried 4,096 counts later if it is still required (14 R339). -/
def State.cancelUp (s : State) (c : Ch) (g : Change) (cause region : Nat) : State :=
  let s := (s.onSup c (fun u => Supply.settle { u with
      change := none, reports := [], upshiftsCancelled := u.upshiftsCancelled + 1 })).logM 0x8000 0x0e01
    [(2, c.val), (8, g.due), (2, cause), (2, region)]
  if s.required c < (s.ch c).sup.step then
    s.onSup c (fun u => Supply.settle { u with change := some { g with due := g.due + 4096, raised := false } })
  else s.reefDecide c

/-- UPSHIFT_RAMP (13 R318): 1,024 counts before an upward change the regions start raising their voltage. -/
def execUpshiftRamp (c : Ch) (s : State) : Host.Outcome State Fault Refusal :=
  .next (match (s.ch c).sup.change with
    | some g =>
      if g.up && !g.raised && decide (g.due ≤ s.count + 1024) then
        s.onSup c (fun u => Supply.settle { u with change := some { g with raised := true } })
      else s
    | none => s)

/-- VOLTAGE_CHECK (13 R318, 14 R339): 64 counts before an upward change, a region that is on and short of its voltage cancels it. `mv`
gives the measured voltages. -/
def execVoltageCheck (c : Ch) (mv : List Nat) (s : State) : Host.Outcome State Fault Refusal :=
  .next (
    let u := (s.ch c).sup
    match u.change with
    | some g =>
      if g.up && decide (g.due ≤ s.count + 64 ∧ s.count < g.due) then
        match u.onRegions.find? (fun r => decide (mv.getD r 0 < u.holdMv r g.target)) with
        | some r => s.cancelUp c g 1 r
        | none => s
      else s
    | none => s)

/-- The change takes effect: every divider switches and every lag returns to 0 (14 R337). -/
def State.switchStep (s : State) (c : Ch) (g : Change) : State :=
  (s.onSup c (fun u =>
    let u := { u with
      step := g.target, changesDone := (u.changesDone + 1) % 2 ^ 32, reports := []
      lastUp := if g.up then s.count else u.lastUp
      change := g.after.map (fun (a : Nat × Nat) => { due := a.1, target := a.2, up := false, raised := false, after := none }) }
    (u.mapRegions (fun _ r => { r with lag := 0, lagRem := 0, lagAt := s.count })).settle)).reefDecide c

/-- FREQUENCY_CHANGE (14 R337, R339): at the change count, unless a droop report of the last 256 counts cancels an upward change. -/
def execFrequencyChange (c : Ch) (s : State) : Host.Outcome State Fault Refusal :=
  .next (
    let u := (s.ch c).sup
    match u.change with
    | some g =>
      if s.count < g.due then s
      else
        match (if g.up then u.reports.find? (fun e =>
            decide (g.due ≤ e.1 + 256 ∧ e.1 < g.due) && (u.region e.2).st == .on) else none) with
        | some e => s.cancelUp c g 0 e.2
        | none => s.switchStep c g
    | none => s)

/-! ### Droop (14 R333 to R336) -/

/-- A region's clock catches up until now: one cycle in 64, n / 80 cycles each count (14 R334). -/
def Region.recover (r : Region) (n now : Nat) : Region :=
  let t := (now - r.lagAt) * n + r.lagRem
  let at' := max r.lagAt now
  if r.lag ≤ t / 80 then { r with lag := 0, lagRem := 0, lagAt := at' }
  else { r with lag := r.lag - t / 80, lagRem := t % 80, lagAt := at' }

/-- The regions that raise a distant signal to a region: its neighbours that are on and whose lag exceeds its own by more than 6 cycles
(14 R336). -/
def Supply.leaders (u : Supply) (b : Nat) : List Nat :=
  if (u.region b).st = .on then
    (neighboursOf b).filter (fun a => (u.region a).st == .on && decide ((u.region b).lag + 6 < (u.region a).lag))
  else []

/-- The lag to which distant signals bring a region: within 4 cycles of every one that raised them. -/
def Supply.drawnTo (u : Supply) (b : Nat) : Nat :=
  match u.leaders b with
  | [] => (u.region b).lag
  | l => maxOf (l.map (fun a => (u.region a).lag)) - 4

/-- One round of distant signals (14 R336): every signal that is due is raised and counted, and the regions stretch by a quarter of each
cycle until the signals are released; until then their catch-up is suspended (log entry 53). -/
def Supply.distant (u : Supply) (now : Nat) : Supply :=
  let n := reefN u.step
  let gain := fun b => u.drawnTo b - (u.region b).lag
  { u with
    regions := Vector.ofFn (fun i =>
      let y := u.regions[i]
      if gain i.val = 0 then y
      else { y with lag := u.drawnTo i.val, lagAt := max y.lagAt (now + ceilDiv (25 * gain i.val) (4 * n)) })
    distantSignals := u.distantSignals + ((allRegions.map (fun b => (u.leaders b).length)).foldl (· + ·) 0)
    stretchCycles := u.stretchCycles + ((allRegions.map gain).foldl (· + ·) 0)
    maxLag := min 255 (max u.maxLag (maxOf (allRegions.map (fun b => if gain b = 0 then 0 else u.drawnTo b)))) }

/-- Distant signals spread until every difference is within 6 cycles. -/
def Supply.spread : Nat → Nat → Supply → Supply
  | 0, _, u => u
  | n + 1, now, u => Supply.spread n now (u.distant now)

/-- DROOP (14 R333, R334, R336): a sag of `mvBelow` mV stretches the region by some cycles, and the supply stands below the set voltage for
some counts, in which nothing is caught up; above 15 mV the detector trips. -/
def execDroop (c : Ch) (r : Rg) (mvBelow : Nat) (held : Stretch) (s : State) : Host.Outcome State Fault Refusal :=
  .next (
    let x := (s.ch c).sup.regions[r]
    if x.st != .on then s
    else
      let trip := decide (15 < mvBelow)
      s.onSup c (fun u =>
        let u := u.mapRegions (fun _ y => y.recover (reefN u.step) s.count)
        let y := u.regions[r]
        let u := { u with
          regions := u.regions.set r { y with lag := y.lag + held.cycles, lagAt := max y.lagAt (s.count + held.counts) }
          droopEvents := u.droopEvents + if trip then 1 else 0
          stretchCycles := u.stretchCycles + held.cycles
          maxLag := min 255 (max u.maxLag (y.lag + held.cycles))
          reports := if trip && (match u.change with | some g => g.up | none => false)
            then u.reports ++ [(s.count, r.val)] else u.reports }
        u.spread 24 s.count))

/-! ### Switching regions (13 R322 to R324) -/

/-- Nothing is switched on while the module is in SAFE, or once a trip has stopped the regions (13 R324, 15 R355, Table 15-4). -/
def State.stopped (s : State) : Bool := s.m.st == .safe || !s.m.pins.tripN

/-- Ask for a region to be switched on. -/
def State.switchOn (s : State) (c : Ch) (r : Nat) : State :=
  if s.stopped then s
  else
    s.onRegion c (rgOf r) (fun x =>
      if x.st = .off then { x with st := .waiting, since := s.count, waitLogs := 0 } else x)

/-- Switch a region off. -/
def State.switchOff (s : State) (c : Ch) (r : Nat) : State := s.onRegion c (rgOf r) Region.offNow

/-- Switch on the regions of a set, and the others off (13 R322). -/
def State.switchTo (s : State) (c : Ch) (mask : Nat) : State :=
  allRegions.foldl (fun t r => if mask.testBit r then t.switchOn c r else t.switchOff c r) s

/-- Stop every region: clocks stopped, logic off, arrays in retention (15 R354). -/
def Supply.stopAll (u : Supply) : Supply := u.mapRegions (fun _ x => x.offNow)

/-- WAKE is complete, and answered, once GDDR7 is out of self refresh and every required region is on (18 R403). -/
def State.wakeDone (s : State) (c : Ch) : State :=
  let x := s.ch c
  let mask := match x.run.image with | some i => i.regionMask | none => 0
  if x.ctl.st = .standby && !x.sup.refresh && allRegions.all (fun r => !mask.testBit r || (x.sup.region r).st == .on) then
    ((s.setChState c .ready).answerWake c 0).reefDecide c
  else s

/-- The headroom of VCORE_IN under its sustained limit, in mA, given its measured average over 10 µs (13 R324). -/
def Supply.headroom (u : Supply) (amps : Nat) : Nat := 720000 - (amps + u.reservedMa)

/-- RAMP_GRANT (13 R324): the lowest waiting region, once there are 60 A of headroom. The region is expected on within 50 µs, and its ramp
goes to the voltage of the step then in force (13 Table 13-5, 14 R340). -/
def execRampGrant (c : Ch) (amps : Nat) (s : State) : Host.Outcome State Fault Refusal :=
  .next (
    let u := (s.ch c).sup
    match allRegions.find? (fun r => (u.region r).st == .waiting) with
    | some r =>
      if u.headroom amps < 60000 ∨ s.stopped = true then s
      else
        let wait := s.count - (u.region r).since
        let t := s.onSup c (fun u => Supply.settle { u with
          regions := u.regions.set (rgOf r) { u.regions[rgOf r] with
            st := .ramping, since := s.count, expect := s.count + 5938, reserved := true, waited := wait, waitLogs := 0 } })
        let t := if 1187 < wait then t.onM (fun m => { m with rampWaits := (m.rampWaits + 1) % 2 ^ 32 }) else t
        t.reefDecide c
    | none => s)

/-- REGION_ON (13 R323, R324, 14 R340, 18 R403). -/
def execRegionOn (c : Ch) (r : Rg) (s : State) : Host.Outcome State Fault Refusal :=
  .next (
    let x := (s.ch c).sup.regions[r]
    if x.st != .ramping then s
    else
      let t := s.onSup c (fun u => Supply.settle { u with
        regions := u.regions.set r { u.regions[r] with st := .on, since := s.count, lag := 0, lagRem := 0, lagAt := s.count } })
      let t := if 1187 < x.waited then t.log c (0x0100 + r.val) 0x0d03 [(2, r.val), (4, x.waited)] else t
      (t.reefDecide c).wakeDone c)

/-- RAMP_RELEASE (13 R324): 10 µs after the region is on. -/
def execRampRelease (c : Ch) (r : Rg) (s : State) : Host.Outcome State Fault Refusal :=
  .next (
    let x := (s.ch c).sup.regions[r]
    if x.st = .on ∧ x.reserved = true ∧ s.after x.since 1188 = true then s.onRegion c r (fun y => { y with reserved := false }) else s)

/-- RAMP_DENIED (13 R324): 2 ms without a grant holds a RUNNING channel; VCORE_IN's average over 10 µs gives the headroom that is logged. -/
def execRampDenied (c : Ch) (r : Rg) (amps : Nat) (s : State) : Host.Outcome State Fault Refusal :=
  .next (
    let x := (s.ch c).sup.regions[r]
    let ps : List Param := [(2, r.val), (2, (s.ch c).sup.headroom amps / 1000)]
    if x.st = .waiting ∧ s.after x.since 237500 = true ∧ (s.ch c).ctl.st = .running then
      (s.log c (0x0100 + r.val) 0x0d04 ps).holdNow c 0x107 (0x0100 + r.val) (paramBytes ps)
    else s)

/-- RAMP_WAIT (13 R324): a channel that is not RUNNING logs its wait at 2 ms and then every 100 ms. -/
def execRampWait (c : Ch) (r : Rg) (s : State) : Host.Outcome State Fault Refusal :=
  .next (
    let x := (s.ch c).sup.regions[r]
    if x.st = .waiting ∧ (s.ch c).ctl.st ≠ .running ∧ s.after x.since (237500 + x.waitLogs * 11875000) = true then
      (s.onRegion c r (fun y => { y with waitLogs := y.waitLogs + 1 })).log c (0x0100 + r.val) 0x0d03
        [(2, r.val), (4, s.count - x.since)]
    else s)

/-! ### Shedding and the input (13 R309, R321) -/

/-- SHED_N_ASSERT (13 R321, 19 R413): the shed source stands, and every channel schedules its change. -/
def execShedNAssert (s : State) : Host.Outcome State Fault Refusal :=
  .next (if s.live && s.m.pins.shedN then
      ((s.onM (fun m => { m with shedPin := true, pins := { m.pins with shedN := false } })).logM 0x8000 0x0d07 [(2, 1)]).reefAll
    else s)

/-- SHED_N_RELEASE (13 R321, 19 R413). -/
def execShedNRelease (s : State) : Host.Outcome State Fault Refusal :=
  .next (if s.live && !s.m.pins.shedN then
      ((s.onM (fun m => { m with shedPin := false, pins := { m.pins with shedN := true } })).logM 0x8000 0x0d07 [(2, 0)]).reefAll
    else s)

/-- INPUT_RANGE (13 R309, Table 13-1): from 33 V to below 36 V the module sheds; above 50 V the excursion is logged once. -/
def execInputRange (volts : W32) (s : State) : Host.Outcome State Fault Refusal :=
  .next (if !s.live then s
    else
      let s := s.onM (fun m => { m with volts := volts })
      if le32 (natTo32 33) volts && lt32 volts (natTo32 36) then
        let s := s.onM (fun m => { m with overLogged := false })
        if s.m.shedLow then s
        else ((s.onM (fun m => { m with shedLow := true })).logM 0x8000 0x0d06 [(4, volts.toNat), (2, 0)]).reefAll
      else if lt32 (natTo32 50) volts && le32 volts (natTo32 52) then
        if s.m.overLogged then s
        else (s.onM (fun m => { m with overLogged := true })).logM 0x8000 0x0d06 [(4, volts.toNat), (2, 1)]
      else s)

/-- INPUT_RANGE_END (13 R309, Table 13-1): at 36.5 V or more the low-input shed ends; at 50 V or less an excursion above it ends. -/
def execInputRangeEnd (volts : W32) (s : State) : Host.Outcome State Fault Refusal :=
  .next (if !s.live then s
    else
      let s := s.onM (fun m =>
        { m with volts := volts, overLogged := m.overLogged && !le32 volts (natTo32 50) })
      if s.m.shedLow && le32 (div32 (natTo32 73) (natTo32 2)) volts then (s.onM (fun m => { m with shedLow := false })).reefAll
      else s)

end Sys2Proof.Machine
end

