-- ==== Sys2Proof/Machine/Clock.lean ====
section
/-! DEFINITION. The reference clock and time alignment (14 R341 to R345, 19 R410). -/

namespace Sys2Proof.Machine

/-! ### REFCLK (14 R342) -/

/-- REFCLK_LOST: the roots go into holdover, the lowest-numbered powered channel's root being the package reference. -/
def execRefclkLost (s : State) : Host.Outcome State Fault Refusal :=
  .next (if s.live && s.m.refclk == 0 then
      (s.onM (fun m => { m with refclk := 1, refclkAt := s.count })).logM 0x8000 0x0e02
        [(2, match s.liveCh with | c :: _ => c.val | [] => 0xffff)]
    else s)

/-- REFCLK_RESTORED: the roots relock together. -/
def execRefclkRestored (s : State) : Host.Outcome State Fault Refusal :=
  .next (if s.live && s.m.refclk == 1 then
      (s.onM (fun m => { m with refclk := 0 })).logM 0x8000 0x0e03 [(8, s.count - s.m.refclkAt)]
    else s)

/-! ### Time alignment (14 R343, R344) -/

/-- The module that holds rank 0 is the time reference. -/
def State.isReference (s : State) : Bool := (s.ch 0).yard.rank == 0

/-- Hops to the reference, 63 for none (09 Table 09-14). -/
def State.hopsNow (s : State) : Nat := if s.m.alignState = 2 then min 63 s.m.alignHops else 63

/-- Keep an estimate within the slew limit of 1 count in 1,024 (14 R344). -/
def slewTo (old est : Int) (counts : Nat) : Int :=
  let lim : Int := 64 * counts
  if old + lim < est then old + lim else if est < old - lim then old - lim else est

/-- The counts since the offset was last set. -/
def State.alignAge (s : State) : Nat := s.count - s.m.alignLast

/-- The offset as it has been slewed towards its target (14 R344), in units of 2^-16 count. -/
def State.slewed (s : State) : Int := slewTo s.m.alignOffset s.m.alignTarget s.alignAge

/-- ALIGNED_COUNT: the local count corrected by the offset and, since it was last set, by the rate. -/
def State.alignedCount (s : State) : Nat :=
  (((s.count : Int) * 2 ^ 32 + s.slewed * 2 ^ 16 + s.m.alignRate * s.alignAge) / 2 ^ 32).toNat

/-- The offset in effect, the rate's part rounded up, so that setting it anew never steps ALIGNED_COUNT back. -/
def State.offsetNow (s : State) : Int := s.slewed + (s.m.alignRate * s.alignAge + 65535) / 65536

/-- The time that TX_COUNT carries (09 Table 09-14). -/
def State.txCount (s : State) : Nat := if s.m.alignState = 2 then s.alignedCount else s.count

/-- Log a change of alignment state. -/
def State.logAlign (s : State) (st hops rank : Nat) : State := s.logM 0x8000 0x0e04 [(2, st), (2, s.m.alignRef), (2, hops), (2, rank)]

/-- Log a change of alignment state that has no source: the entry's source partner rank, and its reference module where there is no
reference, are free values (log entry 31). -/
def State.logAlignAlone (s : State) (st hops : Nat) : State :=
  let n := s.freeNo
  let f := fun k => (Config.freeWord (n + k)).toNat % 65536
  ({ s with freeNo := n + 2 } : State).logM 0x8000 0x0e04 [(2, st), (2, if st = 2 then s.m.alignRef else f 0), (2, hops), (2, f 1)]

/-- The time reference is ALIGNED, with no hops and no offset, from its first HELLO or from when it is given rank 0 (14 R343, 09 Table
09-14; log entry 31). -/
def State.alignOwn (s : State) : State :=
  if s.isReference = false ∨ (s.m.alignState = 2 ∧ s.m.alignHops = 0) then s
  else
    let t := s.onM (fun m => { m with
      alignState := 2, alignHops := 0, alignRef := 0, alignSource := none, alignOffset := 0, alignTarget := 0, alignRate := 0
      alignLast := s.count })
    if s.m.alignState = 2 then t else t.logAlignAlone 2 0

/-- RANK of channel 0 has been written: `was` says whether the module held rank 0 before. A module that no longer holds it is UNALIGNED
until it has a source (14 R343, R344; log entry 31). -/
def State.rankWritten (s : State) (was : Bool) : State :=
  if s.isReference then (if was then s else s.alignOwn)
  else if was && s.m.alignState == 2 then
    (s.onM (fun m => { m with alignState := 0, alignSource := none })).logAlignAlone 0 63
  else s

/-- A port whose partner is a valid source: in junction mode, up, off the module, aligned and heard of in the last 2^20 counts. -/
def State.sourceAt (s : State) (i : Nat) : Option Hello :=
  let q := (s.ch (chOf (i / 5))).hub.ports[ptOf i]
  match q.hello with
  | some h =>
    if 2 ≤ i % 5 && q.mode == 0 && q.linkState == 2 && h.align == 2 && decide (h.hops < 63) &&
        decide (s.count < q.helloAt + 2 ^ 20) then some h else none
  | none => none

/-- The source: the fewest hops, then the lower partner rank, then the lower port; ports are numbered 5 × channel + port. -/
def State.alignBest (s : State) : Option (Nat × Hello) :=
  (List.range 20).foldl (fun b i =>
    match s.sourceAt i, b with
    | some h, some e => if h.hops < e.2.hops ∨ (h.hops = e.2.hops ∧ h.rank < e.2.rank) then some (i, h) else b
    | some h, none => some (i, h)
    | none, _ => b) none

/-- The offset that an exchange on port `i` gives, in units of 2^-16 count: the partner's time at transmission plus half the round trip,
less the local count. The round trip is counted from the moment the HELLO that is echoed was sent (log entry 31). -/
def State.alignEstimate (s : State) (i : Nat) (h : Hello) : Option Int :=
  let sent := ((s.ch (chOf (i / 5))).hub.ports[ptOf i].hellos.find? (fun e => e.1 == h.echoTx)).map (·.2)
  if h.echoDelta = 0xffffffff then none
  else sent.map (fun n => ((h.txCount : Int) - s.count) * 65536 + ((s.count : Int) - n - h.echoDelta) * 32768)

/-- The rate correction that an exchange gives: a free value within the 200 ppm by which REFCLKs may differ (log entry 31). -/
def freeRate (n : Nat) : Int := ((Config.freeWord n).toNat % 1717987 : Nat) - 858993

/-- What a HELLO that has arrived on port `i` does to the module's time. -/
def State.timeAlign (s : State) (i : Nat) : State :=
  if s.isReference then s
  else
    match s.alignBest with
    | none => s.onM (fun m => { m with alignSource := none })
    | some (b, h) =>
      let s := s.onM (fun m => { m with
        alignSource := some b, alignRef := 0, alignHops := h.hops + 1, alignHeard := s.count })
      match (if b = i then s.alignEstimate i h else none) with
      | none =>
        if s.m.alignState = 0 then
          (s.onM (fun m => { m with alignState := 1 })).logAlign 1 (h.hops + 1) h.rank
        else s
      | some est =>
        let old := s.m.alignState
        let n := s.freeNo
        let t := { s with freeNo := n + 1 }.onM (fun m =>
          { m with
            alignOffset := if old = 2 then s.offsetNow else est
            alignTarget := est, alignRate := freeRate n, alignState := 2, alignLast := s.count })
        if old = 2 then t else t.logAlign 2 (h.hops + 1) h.rank

/-- ALIGN_TIMEOUT (14 R344): 2^20 counts without a source. -/
def execAlignTimeout (s : State) : Host.Outcome State Fault Refusal :=
  .next (if !s.isReference && s.m.alignState != 0 && s.alignBest.isNone && s.after s.m.alignHeard (2 ^ 20) then
      (s.onM (fun m => { m with alignState := 0, alignSource := none })).logAlignAlone 0 63
    else s)

end Sys2Proof.Machine
end

