-- ==== Sys2Proof/Machine/Pages.lean ====
section
/-! DEFINITION. The page map, what a car or an outsider may access, watched pages, and the writes of outsiders (08 R192, R202 to R206,
R219, 06 R171). -/

namespace Sys2Proof.Machine

/-! ### Pages (08 Table 08-6) -/

/-- First address of a page entry. -/
def pageAddr (e : Nat) : Nat := bits e 63 16
/-- TARGET of a page entry. -/
def pageTarget (e : Nat) : Nat := bits e 127 64
/-- Size of a page in bytes. -/
def pageSize (e : Nat) : Nat := if e.testBit 8 then 2 ^ 30 else 2 ^ 21
/-- WATCH of a page entry. -/
def pageWatch (e : Nat) : Bool := e.testBit 7
/-- C of a page entry. -/
def pageC (e : Nat) : Bool := e.testBit 6
/-- SE of a page entry. -/
def pageSE (e : Nat) : Bool := e.testBit 5
/-- RA of a page entry. -/
def pageRA (e : Nat) : Bool := e.testBit 4
/-- W of a page entry. -/
def pageW (e : Nat) : Bool := e.testBit 3
/-- R of a page entry. -/
def pageR (e : Nat) : Bool := e.testBit 2

/-- The entry of the loaded map that covers an address. -/
def Chan.pageOf (x : Chan) (a : Nat) : Option Nat :=
  match x.run.image with
  | some i => i.pages.find? (fun e => decide (pageAddr e ≤ a ∧ a < pageAddr e + pageSize e))
  | none => none

/-- The far end of a sister link (01 R23). -/
def sisterOf (c : Ch) (p : Pt) : Option (Ch × Pt) :=
  if p = 0 then some (chOf (c.val + 1), 1) else if p = 1 then some (chOf (c.val + 3), 0) else none

/-- The partner window of a port is open: a sister link between two tenants closes it (01 R24). -/
def State.windowOpen (s : State) (c : Ch) (p : Pt) : Bool :=
  match sisterOf c p with
  | some q => (s.ch c).ctl.tenantSlot == (s.ch q.1).ctl.tenantSlot
  | none => true

/-- The page of an address as a car meets it: a partner window counts as mapped only while its port runs in junction mode and the
window is open (08 R204). -/
def State.page (s : State) (c : Ch) (a : Nat) : Option Nat :=
  match zoneOf a with
  | .partner p => if (s.ch c).hub.ports[p].mode = 0 && s.windowOpen c p then (s.ch c).pageOf a else none
  | _ => (s.ch c).pageOf a

/-- The TARGET address of an address of the host range or of a partner window. -/
def State.target (s : State) (c : Ch) (a : Nat) : Nat :=
  match s.page c a with
  | some e => pageTarget e + (a - pageAddr e)
  | none => a

/-! ### Available memory (08 R192, R205, 01 R25) -/

/-- The required regions: those of the loaded image; with none loaded, nothing restricts them. -/
def Chan.regionMask (x : Chan) : Nat :=
  match x.run.image with
  | some i => i.regionMask
  | none => 2 ^ 24 - 1

/-- The areas of the depot cache in a set of required regions: the top of the highest region first (08 R205). -/
def depotAreas (mask : Nat) : Nat → Nat → List (Nat × Nat)
  | 0, _ => []
  | _, 0 => []
  | n + 1, left =>
    if mask.testBit n then
      let got := min left regionBytes
      ((n + 1) * regionBytes - got, (n + 1) * regionBytes) :: depotAreas mask n (left - got)
    else depotAreas mask n left

/-- The depot areas of a channel; none before an image names the required regions. -/
def Chan.depot (x : Chan) : List (Nat × Nat) :=
  match x.run.image with
  | some i => depotAreas i.regionMask 24 (x.mem.depotSize * 2 ^ 28)
  | none => []

/-- May region memory be accessed? A lost region's memory stays readable while its stays carry it. -/
def Chan.regionOk (x : Chan) (a : Nat) (write : Bool) : Bool :=
  let r := a / regionBytes
  let u := x.sup.region r
  if u.st = .lost then !write && u.stays
  else x.regionMask.testBit r && !x.depot.any (fun d => decide (d.1 ≤ a ∧ a < d.2))

/-- Is the far tier's memory there (08 R200)? Every address outside the far tier passes. -/
def Chan.farOk (x : Chan) (a : Nat) : Bool :=
  match zoneOf a with
  | .far => x.mem.farStatus == 2 && decide (a < farBase + x.mem.farCapacity)
  | _ => true

/-- Is an address in the host page, which no car may access (11 R279)? -/
def inHostPage (a : Nat) : Bool := decide (hostPage ≤ a ∧ a < hostPage + 0x3000)

/-- May a car read or write an address (08 R192, R200, R217, 11 R279)? -/
def State.carMay (s : State) (c : Ch) (a : Nat) (write : Bool) : Bool :=
  match zoneOf a with
  | .region _ => (s.ch c).regionOk a write
  | .tender _ => true
  | .hole => false
  | _ =>
    !inHostPage a && (s.ch c).farOk a &&
      (match s.page c a with
       | some e => if write then pageW e else pageR e
       | none => false)

/-- Permissions are constant in each aligned 4 KiB of the control space and in each aligned 2 MiB elsewhere. -/
def permUnit (a : Nat) : Nat := match zoneOf a with | .control => 4096 | _ => 2 ^ 21

/-- The first address of a range that a car may not access. -/
def State.firstBad (s : State) (c : Ch) (a n : Nat) (write : Bool) : Option Nat :=
  if n = 0 then none
  else
    let u := permUnit a
    ((List.range ((a + n - 1) / u - a / u + 1)).find? (fun i => !s.carMay c (max a ((a / u + i) * u)) write)).map
      (fun i => max a ((a / u + i) * u))

/-- May run-ahead fetch from an address (08 R192, R214)? -/
def State.aheadMay (s : State) (c : Ch) (a : Nat) : Bool :=
  match zoneOf a with
  | .region _ => (s.ch c).regionOk a false
  | .tender _ => true
  | .hole => false
  | _ =>
    !inHostPage a && (s.ch c).farOk a &&
      (match s.page c a with
       | some e => pageR e && pageRA e && !pageSE e
       | none => false)

/-- May the host or a partner access an address (09 R234, 11 R273)? -/
def Chan.inboundOk (x : Chan) (a : Nat) (write : Bool) : Bool :=
  match zoneOf a with
  | .region _ => x.regionOk a write
  | .tender _ => true
  | .board => true
  | .far => x.farOk a
  | _ => false

/-- May the host or a partner access a whole range? -/
def Chan.inboundAll (x : Chan) (a n : Nat) (write : Bool) : Bool :=
  (granules a n).all (fun g => x.inboundOk (max a (g * 256)) write && zoneOf (max a (g * 256)) != .hole)

/-! ### Watched pages (08 R219) -/

/-- The watched ranges in effect: base and length. -/
def Memory.ranges (m : Memory) : List (Nat × Nat) :=
  (tab 16 (fun i =>
    (natOfBytes (Tab.getAll 0 m.watchRangesNow (16 * i) 8), natOfBytes (Tab.getAll 0 m.watchRangesNow (16 * i + 8) 8)))).filter
    (fun r => r.2 != 0)

/-- Is an address in a WATCH page: a page whose entry has WATCH or that overlaps a watched range; unpaged memory is watched inside a
watched range alone? -/
def Chan.isWatch (x : Chan) (a : Nat) : Bool :=
  x.mem.watchEnNow &&
    (match x.pageOf a with
     | some e => pageWatch e || x.mem.ranges.any (fun r => overlaps (pageAddr e) (pageSize e) r.1 r.2)
     | none => x.mem.ranges.any (fun r => decide (r.1 ≤ a ∧ a < r.1 + r.2)))

/-- Mark stale the copies staged in granules that meet a test, of the moves whose demand point is still to come: what a demand read has
brought stays as it is (08 R219, 11 R275, R276). -/
def Run.markStale (r : Run) (hit : Nat → Bool) : Run :=
  { r with clusters := r.clusters.map (fun e =>
      (e.1, { e.2 with moves := e.2.moves.map (fun m =>
        if m.started then m
        else { m with staged := m.staged.map (fun g => { g with stale := g.stale || hit (g.addr / 256) }) }) })) }

/-- An outsider has written (or a recall has hit) some granules: the staged copies of those in WATCH pages are marked stale, and in
STRICT mode while RUNNING the write is logged with the first such granule, as 08 Table 08-11 gives the parameter, where 06 R171 names the
page address (DESIGN CHOICE, log entry 64). `writer` is 0 for the host, 1 to 5 for a port, 6 for mail (08 R219). -/
def State.outsiderHit (s : State) (c : Ch) (gs : List Nat) (source writer : Nat) : State :=
  let x := s.ch c
  let hit := gs.filter (fun g => x.isWatch (g * 256))
  match hit with
  | [] => s
  | g :: _ =>
    let s := s.onRun c (fun r => r.markStale (fun h => hit.contains h))
    if x.ctl.st = .running ∧ x.watch.detMode = 0 then s.log c source 0x0803 [(8, g * 256), (2, writer)] else s

/-! ### Accesses through the depot cache (08 R206, 11 R275) -/

/-- Does an access to a page go through the depot cache? -/
def Chan.throughDepot (x : Chan) (a : Nat) : Bool :=
  x.mem.depotSize != 0 && (match x.pageOf a with | some e => pageC e | none => false)

/-- Count a sector access (08 Table 08-10). -/
def Memory.countDepot (m : Memory) (hit : Bool) : Memory :=
  if hit then { m with depotHits := m.depotHits + 1 } else { m with depotMisses := m.depotMisses + 1 }

/-- An access to a granule of the channel's own memory passes through the depot: a sector that is not there is filled; one that is
written becomes dirty, keeping what was beneath it (08 R206). -/
def State.depotGranule (s : State) (c : Ch) (write : Bool) (g : Nat) : State :=
  let x := s.ch c
  let a := g * 256
  if ownMemory a && x.throughDepot a then
    let old := x.mem.sector? false a
    let q : Sector := old.getD { no := a % 4096 / 256, dirty := false, bytes := [], poisoned := false }
    let q := if write && !q.dirty then { q with dirty := true, bytes := x.mem.read a 256, poisoned := x.mem.poisoned? g } else q
    (s.onMem c (fun m => m.countDepot old.isSome)).depotPut c false a q
  else s

/-- An access to a range of the channel's own memory passes through the depot. -/
def State.depotPass (s : State) (c : Ch) (a n : Nat) (write : Bool) : State :=
  if (s.ch c).mem.depotSize = 0 then s else (granules a n).foldl (fun t g => t.depotGranule c write g) s

/-- Write to a channel's memory through the depot where its page has C. -/
def State.depotStore (s : State) (c : Ch) (a : Nat) (bs : List Byte) : State := (s.depotPass c a bs.length true).store c a bs

/-- The sector of a host address takes a shared read's data, unless it is dirty: then the data are older (11 R275). The second part is
what the reader receives. -/
def State.fillHost (s : State) (c : Ch) (a : Nat) (bs : List Byte) (poisoned : Bool) : State × List Byte × Bool :=
  match (s.ch c).mem.sector? true a with
  | some x => if x.dirty then (s, x.bytes, x.poisoned) else (s.depotPut c true a { x with bytes := bs, poisoned := poisoned }, bs, poisoned)
  | none => (s.depotPut c true a { no := a % 4096 / 256, dirty := false, bytes := bs, poisoned := poisoned }, bs, poisoned)

/-- A write to a host sector that the depot owns: bytes from `a` on go into it, over what it holds; a sector written whole has no poison
but that of the bytes (16 R361). -/
def State.writeHost (s : State) (c : Ch) (a : Nat) (bs : List Byte) (poisoned : Bool) (under : List Byte × Bool) : State :=
  let off := a % 256
  s.depotPut c true a { no := a % 4096 / 256, dirty := true, bytes := patch (fitBytes 256 under.1) off bs
                        poisoned := poisoned || (under.2 && bs.length != 256) }

/-! ### Outsiders' writes -/

/-- An outsider's write to channel memory (08 R219): `poisoned` lists the granules that arrive with a poison mark. -/
def State.outsiderWrite (s : State) (c : Ch) (a : Nat) (bs : List Byte) (poisoned : List Nat) (source writer : Nat) : State :=
  let s := (s.depotStore c a bs).onMem c (fun m => poisoned.foldl Memory.poison m)
  s.outsiderHit c (granules a bs.length) source writer

/-! ### Doorbell completions (11 R282) -/

/-- A posted write of the M40 to host memory over slice `c`; nothing leaves while the slice is down. -/
def State.postHost (s : State) (c : Ch) (a : Nat) (bs : List Byte) : State :=
  if (s.ch c).host.link = 0 then s else s.send (.hostWrite c 0 a bs false)

/-- The completion record of a doorbell entry goes to the next slot of CPL_RING; then the producer count, and the message write. -/
def State.dbComplete (s : State) (c : Ch) (e : Nat × Nat) (status result : Nat) : State :=
  let h := (s.ch c).host
  let base := field h.cplRing 0 8
  let n := field h.cplRing 16 2
  if base = 0 ∨ n = 0 then s
  else
    let rec16 := bytesOfNat 3 0 ++ bytesOfNat 2 result ++ bytesOfNat 1 e.2 ++ bytesOfNat 2 status ++ bytesOfNat 8 e.1
    let prod := (h.cplProd + 1) % 2 ^ 32
    let s := (s.onHost c (fun h => { h with cplProd := prod })).postHost c (base + 16 * (h.cplProd % n)) rec16
    let s := s.postHost c (field h.cplRing 8 8) (bytesOfNat 4 prod)
    if h.evt.msiAddr = 0 then s else s.postHost c h.evt.msiAddr (bytesOfNat 4 h.evt.msiData)

/-- The load that a doorbell started has ended, or another has taken its place. -/
def State.loadReported (s : State) (c : Ch) (result : Nat) : State :=
  match (s.ch c).host.loadWait with
  | some e => (s.dbComplete c e 0 result).onHost c (fun h => { h with loadWait := none })
  | none => s

end Sys2Proof.Machine
end

