-- ==== Sys2Proof/Machine/Train.lean ====
section
/-! DEFINITION. Wagons and trains: heads, the link layer's sending side with its credits, route tables, and the sending of operations
and mail-lane trains (09 R225 to R231, R239, R241, R245). -/

namespace Sys2Proof.Machine

/-! ### Heads (09 Tables 09-6, 09-10, 09-14) -/

/-- A request head granule. -/
def ReqHead.bytes (h : ReqHead) : List Byte :=
  bytesOfNat 8 h.addr ++ bytesOfNat 4 h.seq ++ bytesOfNat 4 h.length ++ bytesOfNat 2 h.rank ++ bytesOfNat 1 h.port ++
    bytesOfNat 1 h.epoch ++ zeros 12

/-- An atomic head granule. -/
def AtomHead.bytes (h : AtomHead) : List Byte :=
  bytesOfNat 8 h.addr ++ bytesOfNat 4 h.seq ++ bytesOfNat 2 h.rank ++ bytesOfNat 1 h.port ++ bytesOfNat 1 h.epoch ++
    bytesOfNat 8 h.a ++ bytesOfNat 8 h.b

/-- A response head granule. -/
def RespHead.bytes (h : RespHead) : List Byte :=
  bytesOfNat 4 h.seq ++ bytesOfNat 1 h.status ++ bytesOfNat 1 h.epoch ++ bytesOfNat 2 h.rank ++ bytesOfNat 8 h.result ++
    bytesOfNat 3 h.length ++ zeros 13

/-- A mail head granule. -/
def MailHead.bytes (h : MailHead) : List Byte :=
  bytesOfNat 2 h.dstRank ++ bytesOfNat 2 h.srcRank ++ bytesOfNat 1 h.queue ++ bytesOfNat 1 h.hops ++ bytesOfNat 1 h.dstLeg ++
    bytesOfNat 1 h.dstIter ++ bytesOfNat 4 h.msg ++ bytesOfNat 4 h.length ++ bytesOfNat 4 h.fragFirst ++ bytesOfNat 4 h.tag ++
    zeros 8

/-- A mail acknowledgement granule. -/
def AckHead.bytes (h : AckHead) : List Byte :=
  bytesOfNat 2 h.dstRank ++ bytesOfNat 2 h.srcRank ++ bytesOfNat 1 h.status ++ bytesOfNat 1 h.queue ++ zeros 2 ++
    bytesOfNat 4 h.msg ++ bytesOfNat 4 h.nextFrag ++ zeros 16

/-- A HELLO payload granule. -/
def Hello.bytes (h : Hello) : List Byte :=
  bytesOfNat 2 h.rank ++ bytesOfNat 1 (h.port % 8 + if h.windowOpen then 8 else 0) ++
    bytesOfNat 1 (h.align % 4 + h.hops % 64 * 4) ++ bytesOfNat 4 h.resetGen ++ bytesOfNat 8 h.identity ++
    bytesOfNat 4 h.echoDelta ++ bytesOfNat 4 h.echoTx ++ bytesOfNat 8 h.txCount

/-! ### Wagons (09 Table 09-2) -/

/-- NGRAN of a wagon. -/
def Wagon.ngran (w : Wagon) : Nat := ceilDiv w.payload.length 32

/-- Units of credit that a wagon costs (09 R230). -/
def Wagon.cost (w : Wagon) : Nat := 1 + w.ngran

/-- Header bytes 0 to 11 of a wagon. -/
def Wagon.head12 (w : Wagon) : List Byte :=
  bytesOfNat 4 (w.index % 2 ^ 18 * 2 ^ 14) ++
    bytesOfNat 4 (w.train % 2 ^ 12 + w.ngran * 2 ^ 12 + w.kind * 2 ^ 16 + w.vl * 2 ^ 20 + w.lseq % 1024 * 2 ^ 22) ++
    bytesOfNat 4 w.waybill.toNat

/-- A wagon as it goes on the wire: header with LCRC, then payload. -/
def Wagon.wire (w : Wagon) : List Byte :=
  w.head12 ++ bytesOfNat 4 (crc32c (w.head12 ++ w.payload)).toNat ++ w.payload

/-- The waybill of a granule: its CRC, or the complement for a poison mark (16 R360). -/
def waybillOf (bs : List Byte) (poisoned : Bool) : W32 := if poisoned then ~~~ (crc32c bs) else crc32c bs

/-- The DATA wagons of a transfer to address `a`: wagon `i` carries the bytes of granule (a >> 8) + i (09 R227). -/
def dataWagons (vl train a : Nat) (data : List Byte) (poisoned : List Nat) : List Wagon :=
  (granules a data.length).zipIdx.map (fun g =>
    let lo := max a (g.1 * 256)
    let hi := min (a + data.length) (g.1 * 256 + 256)
    let bs := (data.drop (lo - a)).take (hi - lo)
    { lseq := 0, vl := vl, kind := 1, train := train, index := g.2
      waybill := if hi - lo = 256 then waybillOf bs (poisoned.contains g.2) else 0, payload := bs })

/-- The wagons of a train: HEAD with its operation code, then DATA (09 R226, R227). -/
def trainWagons (vl op train : Nat) (head : List Byte) (a : Nat) (data : List Byte) (poisoned : List Nat) : List Wagon :=
  { lseq := 0, vl := vl, kind := 0, train := train, index := op * 2 ^ 10, waybill := 0, payload := head } ::
    dataWagons vl train a data poisoned

/-! ### The sending side (09 R228, R230) -/

/-- Send the waiting wagons that their lanes' credits allow, at most 512 unacknowledged; a lane that lacks credits blocks only
itself. -/
def Port.push (p : Port) : List Wagon → List Nat → Port × List Wagon
  | [], _ => ({ p with waiting := [] }, [])
  | w :: ws, blocked =>
    if !blocked.contains w.vl && decide (w.cost ≤ p.credit.getD w.vl 0) && decide (p.unacked.length < 512) then
      let v := { w with lseq := p.txLseq }
      let r := Port.push { p with credit := modAt p.credit w.vl (· - w.cost), txLseq := (p.txLseq + 1) % 1024,
                                  unacked := p.unacked ++ [v] } ws blocked
      (r.1, v :: r.2)
    else
      let r := Port.push p ws (w.vl :: blocked)
      ({ r.1 with waiting := w :: r.1.waiting }, r.2)

/-- Is the port up in junction mode? -/
def Port.upJ (p : Port) : Bool := p.linkState == 2 && p.mode == 0

/-- Send what a port can send. -/
def State.pump (s : State) (c : Ch) (p : Pt) : State :=
  let q := (s.ch c).hub.ports[p]
  if q.upJ then
    let r := q.push q.waiting []
    r.2.foldl (fun t w => t.send (.wagon c p w)) (s.onPort c p (fun _ => r.1))
  else s

/-- Give a train to a port. -/
def State.sendTrain (s : State) (c : Ch) (p : Pt) (vl op : Nat) (head : List Byte) (a : Nat) (data : List Byte)
    (poisoned : List Nat) : State :=
  (s.onPort c p (fun q =>
    { q with train := (q.train + 1) % 4096
             waiting := q.waiting ++ trainWagons vl op q.train head a data poisoned })).pump c p

/-- A wagon outside the lanes and the sequence: HELLO or CTRL (09 R225, R228). -/
def State.sendControl (s : State) (c : Ch) (p : Pt) (kind train index : Nat) (waybill : W32) (payload : List Byte) : State :=
  s.send (.wagon c p { lseq := 0, vl := 3, kind := kind, train := train, index := index, waybill := waybill, payload := payload })

/-! ### Routes (09 R239, R241, R245) -/

/-- The rank at the far end of a port, when PARTNER is valid (09 Table 09-11). -/
def Port.rank? (p : Port) : Option Nat := if p.partner.testBit 31 then some (p.partner % 2 ^ 16) else none

/-- The route-table entry of a rank. -/
def Hub.route (h : Hub) (rank : Nat) : Nat := natOfBytes (Tab.getAll 0 h.routeTable (4 * rank) 4)

/-- The port to a rank: the first of its entry, or the second when the first is down (09 R241). -/
def Hub.routePort (h : Hub) (rank : Nat) : Option Pt :=
  let e := h.route rank
  let up := fun n => decide (n < 5) && h.ports[ptOf n].linkState == 2
  if rank < 2048 ∧ e.testBit 3 ∧ up (bits e 2 0) then some (ptOf (bits e 2 0))
  else if rank < 2048 ∧ e.testBit 7 ∧ up (bits e 6 4) then some (ptOf (bits e 6 4))
  else none

/-- The IPv6 address of a rank (09 Table 09-11, ETH_PEERS). -/
def Hub.peerAddr (h : Hub) (rank : Nat) : List Byte := Tab.getAll 0 h.ethPeers (16 * rank) 16

/-- The number of data bytes of one datagram (09 Table 09-11, ETH_DATA). -/
def Port.ethBytes (p : Port) : Nat := if p.ethData = 0 then 1024 else 8192

/-- Does any granule that a range touches carry a poison mark, taken granule by granule? -/
def Memory.poisonList (m : Memory) (a n : Nat) : List Nat :=
  if m.marks.isEmpty then [] else ((granules a n).zipIdx.filter (fun g => m.poisoned? g.1)).map (·.2)

/-- A number in network byte order (09 R245; 00 R7 leaves IPv6 and UDP fields their own order). -/
def netBytes (n v : Nat) : List Byte := (bytesOfNat n v).reverse

/-- The sum of the 16-bit words of some bytes in network byte order, an odd last byte filled with zero. -/
def wordSum : List Byte → Nat
  | [] => 0
  | [a] => a.toNat * 256
  | a :: b :: l => a.toNat * 256 + b.toNat + wordSum l

/-- The UDP checksum over the IPv6 pseudo-header, the UDP header and the payload: the complement of the ones' complement sum, with 0 sent
as 0xFFFF (log entry 66). -/
def udpChecksum (src dst head payload : List Byte) : Nat :=
  let n := wordSum (src ++ dst ++ netBytes 4 (head.length + payload.length) ++ [0, 0, 0, 17] ++ head ++ payload)
  let r := 65535 - (if n = 0 then 0 else (n - 1) % 65535 + 1)
  if r = 0 then 65535 else r

/-- An IPv6 packet with one UDP datagram from a port to an address (09 R245): hop limit 64, flow label 0, no extension headers. -/
def Port.packet (q : Port) (dst payload : List Byte) : List Byte :=
  let src := fitBytes 16 q.ipv6
  let len := 8 + payload.length
  let head := netBytes 2 q.udpPort ++ netBytes 2 q.udpPort ++ netBytes 2 len
  netBytes 4 (6 * 2 ^ 28 + q.trafficClass * 2 ^ 20) ++ netBytes 2 len ++ [17, 64] ++ src ++ dst ++
    head ++ netBytes 2 (udpChecksum src dst (head ++ [0, 0]) payload) ++ payload

/-- Ask for the link-layer address of a peer by a neighbour solicitation, once while the port is up (09 R245; log entry 66). -/
def State.solicit (s : State) (c : Ch) (p : Pt) (target : List Byte) : State :=
  if (s.ch c).hub.ports[p].solicited.contains target then s
  else (s.onPort c p (fun q => { q with solicited := target :: q.solicited })).send (.solicit c p target)

/-- A mail-lane or response-lane train to a rank on a port, as the wagons of a transfer to address `a` or as UDP datagrams; `headAt` gives
the head granule of the part that begins at a byte of the data (09 R227, R245). -/
def State.sendMailOn (s : State) (c : Ch) (p : Pt) (vl op rank : Nat) (headAt : Nat → List Byte) (a : Nat) (data : List Byte)
    (poisoned : List Nat) : State :=
  let q := (s.ch c).hub.ports[p]
  if q.mode = 0 then s.sendTrain c p vl op (headAt 0) a data poisoned
  else
    let dst := (s.ch c).hub.peerAddr rank
    (List.range (max 1 (ceilDiv data.length q.ethBytes))).foldl (fun t i =>
      t.send (.udp c p (q.packet dst (headAt (i * q.ethBytes) ++ (data.drop (i * q.ethBytes)).take q.ethBytes)))) (s.solicit c p dst)

/-! ### Operations to a partner (09 R231, R235, R238, R239) -/

/-- The head granule of an operation. -/
def PartnerOp.headBytes (o : PartnerOp) (rank : Nat) : List Byte :=
  if o.op = 1 ∨ o.op = 2 then
    ReqHead.bytes { addr := o.addr, seq := o.seq, length := o.length, rank := rank, port := o.port, epoch := o.epoch % 256 }
  else
    AtomHead.bytes { addr := o.addr, seq := o.seq, rank := rank, port := o.port, epoch := o.epoch % 256, a := o.a, b := o.b,
                     round := o.round, members := o.members }

/-- Where an operation goes now: its port; another up port of the bundle; or by route table as a DETOUR (09 R239). -/
def Hub.opPath (h : Hub) (o : PartnerOp) : Option (Pt × Bool) :=
  let q := h.ports[ptOf o.port]
  if q.upJ then some (ptOf o.port, false)
  else
    match q.rank? with
    | none => none
    | some r =>
      match ([0, 1, 2, 3, 4] : List Pt).find? (fun p => h.ports[p].upJ && h.ports[p].rank? == some r) with
      | some p => some (p, false)
      | none => (h.routePort r).map (fun p => (p, true))

/-- Change an outstanding operation. -/
def Hub.onOp (h : Hub) (port seq : Nat) (f : PartnerOp → PartnerOp) : Hub :=
  { h with ops := h.ops.map (fun o => if o.port = port ∧ o.seq = seq then f o else o) }

/-- The parts of a DETOUR train that bytes of a poisoned granule lie in: its data are the 32-byte head granule, then the operation's
own data (09 Table 09-5). -/
def PartnerOp.detourBad (o : PartnerOp) : List Nat :=
  (List.range (ceilDiv (32 + o.data.length) 256)).filter (fun i =>
    ((granules o.addr o.data.length).zipIdx).any (fun g =>
      o.poisoned.contains g.2 && overlaps (max o.addr (g.1 * 256) - o.addr + 32) (min (o.addr + o.data.length) (g.1 * 256 + 256) -
        max o.addr (g.1 * 256)) (256 * i) 256))

/-- Send an operation that is outstanding by the path there is; with none it waits (09 R239). The MSG, DST_LEG and DST_ITER of a DETOUR
head are 0 (log entry 10). A DETOUR in junction mode carries poison on; in Ethernet mode its egress consumes it, and the granule's
address, which the operation does not keep, is a free value (16 Table 16-2; log entry 37). -/
def State.sendOp (s : State) (c : Ch) (o : PartnerOp) : State :=
  let x := s.ch c
  if !x.hub.ops.any (fun q => q.port == o.port && q.seq == o.seq) then s
  else
    match x.hub.opPath o with
    | some (p, false) =>
      (s.onHub c (fun h => h.onOp o.port o.seq (fun o => { o with noPathAt := none, via := some p.val }))).sendTrain c p 0 o.op
        (o.headBytes x.rank) o.addr o.data o.poisoned
    | some (p, true) =>
      if x.hub.ports[p].mode ≠ 0 ∧ o.poisoned ≠ [] then
        ({ s with freeNo := s.freeNo + 1 } : State).consumePoison c ((Config.freeWord s.freeNo).toNat * 256) (0x0410 + p.val)
      else
        let rank := (x.hub.ports[ptOf o.port].rank?).getD 0
        let data := o.headBytes x.rank ++ o.data
        let h : MailHead :=
          { dstRank := rank, srcRank := x.rank, queue := 0, hops := 8, dstLeg := 0, dstIter := 0, msg := 0, length := data.length
            fragFirst := 0, tag := 0 }
        (s.onHub c (fun h =>
          { h.onOp o.port o.seq (fun o => { o with noPathAt := none, via := some p.val }) with detours := h.detours + 1 })).sendMailOn
            c p 2 0x42 rank (fun off => MailHead.bytes { h with fragFirst := off / 256 }) 0 data o.detourBad
    | none =>
      s.onHub c (fun h => h.onOp o.port o.seq (fun o =>
        { o with via := none, noPathAt := match o.noPathAt with | some t => some t | none => some s.count }))

/-- A new operation on a port: it takes the port's next sequence number and the current epoch (09 R235, R238). A channel in a containment
reset starts none. -/
def State.newOp (s : State) (c : Ch) (p : Pt) (o : PartnerOp) : State :=
  let h := (s.ch c).hub
  let o := { o with port := p.val, seq := h.ports[p].seq, epoch := h.epoch }
  if (s.ch c).ctl.st = .boot then s
  else
    ((s.onPort c p (fun q => { q with seq := (q.seq + 1) % 2 ^ 32 })).onHub c (fun h => { h with ops := h.ops ++ [o] })).sendOp c o

end Sys2Proof.Machine
end

