-- ==== Sys2Proof/Machine/Shunt.lean ====
section
/-! DEFINITION. Shunters: descriptors, MOVE cars in their five modes, run-ahead and demand, map faults, and re-fetches after a
misprediction (08 R208 to R218). -/

namespace Sys2Proof.Machine

/-! ### Descriptors (08 Table 08-8) -/

/-- SRC. -/
def dSrc (d : Nat) : Nat := bits d 511 464
/-- DST. -/
def dDst (d : Nat) : Nat := bits d 463 416
/-- LENGTH: bytes on the wide side. -/
def dLen (d : Nat) : Nat := bits d 415 384 + 1
/-- STAGE_ADDR in bytes. -/
def dStage (d : Nat) : Nat := bits d 383 368 * 32
/-- STAGE_KIB. -/
def dKib (d : Nat) : Nat := bits d 367 358
/-- MODE. -/
def dMode (d : Nat) : Nat := bits d 357 354
/-- HULL. -/
def dHull (d : Nat) : Bool := d.testBit 353
/-- Does NARROW_E4M3 round by SR: GRAD or RND (08 R210)? -/
def dSr (d : Nat) : Bool := d.testBit 352 || d.testBit 351
/-- Bytes of a wide element. -/
def dElem (d : Nat) : Nat := if d.testBit 350 then 4 else 2
/-- ROW_BYTES. -/
def dRow (d : Nat) : Nat := bits d 343 320
/-- Rows per patch. -/
def dRows (d : Nat) : Nat := bits d 319 304 + 1
/-- STRIDE1. -/
def dStride1 (d : Nat) : Nat := bits d 303 272
/-- Patches. -/
def dPatches (d : Nat) : Nat := bits d 271 256 + 1
/-- STRIDE2. -/
def dStride2 (d : Nat) : Nat := bits d 255 224
/-- DST_STRIDE2. -/
def dDstStride2 (d : Nat) : Nat := bits d 223 192
/-- NZ_ADDR in bytes. -/
def dNzAddr (d : Nat) : Nat := bits d 191 176 * 32
/-- NZ_EN. -/
def dNzEn (d : Nat) : Bool := d.testBit 175
/-- The tile-block size of NZ_G. -/
def dNzSize (d : Nat) : Nat := tileBlockOf (bits d 174 171)
/-- STREAM. -/
def dStream (d : Nat) : Nat := bits d 159 144
/-- LAYER. -/
def dLayer (d : Nat) : Nat := bits d 143 132
/-- SEED_POS. -/
def dSeed (d : Nat) : Nat := bits d 131 116
/-- LEN_OUT. -/
def dLenOut (d : Nat) : Nat := bits d 63 16

/-- The rules of R209 and R210 that a descriptor breaks; a reserved gauge code in NZ_G counts as a non-zero reserved field (02 R34). -/
def descBad (d : Nat) : Bool :=
  bits d 349 344 != 0 || bits d 170 160 != 0 || bits d 115 64 != 0 || bits d 15 0 != 0 || decide (4 < dMode d) ||
    dSrc d % 32 != 0 || dDst d % 32 != 0 || dLen d % 32 != 0 || (dMode d == 1 && dLenOut d % 32 != 0) ||
    decide (6 < bits d 174 171) ||
    (dRow d != 0 && (dMode d != 0 || dRow d % 32 != 0 || dLen d != dRow d * dRows d * dPatches d)) ||
    (dNzEn d && (dMode d != 0 || dRow d != 0 || dNzSize d == 0 || decide (4096 * dNzSize d < dLen d)))

/-- Tile blocks of a source under NZ_EN. -/
def dBlocks (d : Nat) : Nat := if dNzSize d = 0 then 0 else ceilDiv (dLen d) (dNzSize d)

/-- Bytes reserved for a compressed stream (08 R211). -/
def dStreamMax (d : Nat) : Nat := dLen d + 32 * ceilDiv (dLen d) 4096

/-- Bytes of the source, for DECOMPRESS the most there can be. -/
def dSrcLen (d : Nat) : Nat := if dMode d = 4 then dLen d / dElem d else if dMode d = 2 then dStreamMax d else dLen d

/-- The pieces of a COPY in the move's order: source, destination, bytes (08 R210, R216). -/
def copySegs (d : Nat) (blocks : List Nat) : List (Nat × Nat × Nat) :=
  if dRow d ≠ 0 then
    (List.range (dPatches d)).flatMap (fun p => tab (dRows d) (fun q =>
      (dSrc d + p * dStride2 d + q * dStride1 d, dDst d + p * dDstStride2 d + q * dRow d, dRow d)))
  else if dNzEn d then
    blocks.map (fun b => (dSrc d + b * dNzSize d, dDst d + b * dNzSize d, min (dNzSize d) (dLen d - b * dNzSize d)))
  else [(dSrc d, dDst d, dLen d)]

/-- The source ranges that a move's pattern names (08 R212). -/
def moveRanges (d : Nat) (blocks : List Nat) : List (Nat × Nat) :=
  if dMode d = 0 then (copySegs d blocks).map (fun g => (g.1, g.2.2)) else [(dSrc d, dSrcLen d)]

/-- The hull of each patch: from its first to its last source granule (08 R213). -/
def hullRanges (d : Nat) : List (Nat × Nat) :=
  if dHull d ∧ dRow d ≠ 0 then tab (dPatches d) (fun p => (dSrc d + p * dStride2 d, (dRows d - 1) * dStride1 d + dRow d)) else []

/-! ### Source bytes -/

/-- Cut a range at every multiple of `u`. -/
def cutRange (u a n : Nat) : List (Nat × Nat) :=
  if n = 0 then []
  else (List.range ((a + n - 1) / u - a / u + 1)).map (fun i =>
    let lo := max a ((a / u + i) * u)
    (lo, min (a + n) ((a / u + i + 1) * u) - lo))

/-- The staged copy that holds an address, stale copies apart. -/
def stagedAt (st : List Staged) (a : Nat) : Option Staged :=
  st.find? (fun g => !g.stale && decide (g.addr ≤ a ∧ a < g.addr + g.data.length))

/-- Is a range staged? -/
def stagedAll (st : List Staged) (a n : Nat) : Bool :=
  (cutRange 256 a n).all (fun p => st.any (fun g => !g.stale && decide (g.addr ≤ p.1 ∧ p.1 + p.2 ≤ g.addr + g.data.length)))

/-- One byte of a move's source: the staged copy, or the channel's memory. -/
def State.srcByte (s : State) (c : Ch) (st : List Staged) (a : Nat) : Byte :=
  match stagedAt st a with
  | some g => g.data.getD (a - g.addr) 0
  | none => (s.ch c).mem.byte a

/-- Bytes of a move's source. -/
def State.srcBytes (s : State) (c : Ch) (st : List Staged) (a n : Nat) : List Byte :=
  if st.isEmpty then (s.ch c).mem.read a n else tab n (fun i => s.srcByte c st (a + i))

/-- Does a source byte come from a poisoned granule? -/
def State.srcPoison (s : State) (c : Ch) (st : List Staged) (a : Nat) : Bool :=
  match stagedAt st a with
  | some g => g.poisoned
  | none => (s.ch c).mem.poisoned? (a / 256)

/-- The first address of a range that comes from a poisoned granule. -/
def State.srcPoisonIn (s : State) (c : Ch) (st : List Staged) (a n : Nat) : Option Nat :=
  if (s.ch c).mem.marks.isEmpty && !st.any (·.poisoned) then none
  else ((cutRange 256 a n).find? (fun p => s.srcPoison c st p.1)).map (·.1)

/-! ### The compressed stream (08 R211) -/

/-- Append `w` bits, least significant first, to a string of bits kept as value and length. -/
def putBits (st : Nat × Nat) (v w : Nat) : Nat × Nat := (st.1 + v % 2 ^ w * 2 ^ st.2, st.2 + w)

/-- Bits of an element beside its exponent: 8 for BF16, 24 for FP32. -/
def elemEw (eb : Nat) : Nat := 8 * eb - 8

/-- The exponent of an element. -/
def elemExp (eb v : Nat) : Nat := v / 2 ^ (8 * eb - 9) % 256

/-- Mantissa and sign bits of an element, sign last. -/
def elemRest (eb v : Nat) : Nat := v % 2 ^ (8 * eb - 9) + v / 2 ^ (8 * eb - 1) % 2 * 2 ^ (8 * eb - 9)

/-- Pack one non-zero element. -/
def packElem (eb : Nat) (st : (Nat × Nat) × Nat) (v : Nat) : (Nat × Nat) × Nat :=
  let e := elemExp eb v
  let dlt : Int := (e : Int) - st.2
  let b := if -7 ≤ dlt ∧ dlt ≤ 7 then putBits st.1 (codeOf 4 dlt) 4 else putBits (putBits st.1 8 4) e 8
  (putBits b (elemRest eb v) (elemEw eb), e)

/-- Pack a group of up to 16 elements: the mask, then the elements that have a bit set. -/
def packGroup (eb : Nat) (st : (Nat × Nat) × Nat) (vs : List Nat) : (Nat × Nat) × Nat :=
  let mask := vs.zipIdx.foldl (fun m v => if v.1 ≠ 0 then m + 2 ^ v.2 else m) 0
  (vs.filter (· ≠ 0)).foldl (packElem eb) (putBits st.1 mask 16, st.2)

/-- The elements of a byte string. -/
def elemsOf (eb : Nat) (bs : List Byte) : List Nat := tab (bs.length / eb) (fun i => field bs (eb * i) eb)

/-- The packed payload of a chunk. -/
def packChunk (eb : Nat) (bs : List Byte) : List Byte :=
  let vs := elemsOf eb bs
  let st := (List.range (ceilDiv vs.length 16)).foldl (fun st g => packGroup eb st ((vs.drop (16 * g)).take 16)) ((0, 0), 127)
  bytesOfNat (ceilDiv st.1.2 8) st.1.1

/-- A chunk of the stream: head, payload, padding. -/
def streamChunk (eb : Nat) (bs : List Byte) : List Byte :=
  let p := packChunk eb bs
  let small := decide (p.length < bs.length)
  let pay := if small then p else bs
  let u := bytesOfNat 4 pay.length ++ bytesOfNat 2 (bs.length / 32) ++ bytesOfNat 1 (if small then 1 else 0) ++ [0] ++ pay
  u ++ zeros (ceilDiv u.length 32 * 32 - u.length)

/-- The stream of a byte string, chunk by chunk. -/
def compressChunks (eb : Nat) (bs : List Byte) : List (List Byte) :=
  tab (ceilDiv bs.length 4096) (fun i => streamChunk eb ((bs.drop (4096 * i)).take 4096))

/-- Read one element of a packed payload: its bit place, the exponent before it, and the bits. -/
def unpackElem (eb v : Nat) (pos eprev : Nat) : Nat × Nat × Nat :=
  let d := v / 2 ^ pos % 16
  let e := if d = 8 then v / 2 ^ (pos + 4) % 256 else (((eprev : Int) + signedOf 4 d) % 256).toNat
  let pos := if d = 8 then pos + 12 else pos + 4
  let r := v / 2 ^ pos % 2 ^ elemEw eb
  let m := 8 * eb - 9
  (pos + elemEw eb, e, r % 2 ^ m + e * 2 ^ m + r / 2 ^ m * 2 ^ (8 * eb - 1))

/-- Unpack `n` elements of a payload. -/
def unpackChunk (eb n : Nat) (bs : List Byte) : List Byte :=
  let v := natOfBytes bs
  let r := (List.range n).foldl (fun (st : Nat × Nat × Nat × List Nat) i =>
    let st := if i % 16 = 0 then (st.1 + 16, st.2.1, v / 2 ^ st.1 % 2 ^ 16, st.2.2.2) else st
    if st.2.2.1.testBit (i % 16) then
      let u := unpackElem eb v st.1 st.2.1
      (u.1, u.2.1, st.2.2.1, u.2.2 :: st.2.2.2)
    else (st.1, st.2.1, st.2.2.1, 0 :: st.2.2.2)) (0, 127, 0, [])
  (r.2.2.2.reverse).flatMap (fun e => bytesOfNat eb e)

/-- A chunk found in a stream: where its payload lies, its length, method, and original bytes; `ok` says that its head is as R211
gives it. -/
structure ChunkAt where
  head : Nat
  pay : Nat
  orig : Nat
  method : Nat
  ok : Bool
  deriving DecidableEq, Repr

/-- Bytes of a chunk in the stream. -/
def ChunkAt.size (k : ChunkAt) : Nat := ceilDiv (8 + k.pay) 32 * 32

/-- Walk the chunks of a stream as far as its heads are at hand; the second part is the head that is missing. -/
def walkStream (have8 : Nat → Bool) (word : Nat → Nat) : Nat → Nat → Nat → List ChunkAt × Option Nat
  | 0, _, _ => ([], none)
  | n + 1, a, left =>
    if left = 0 then ([], none)
    else if have8 a then
      let w := word a
      let orig := min 4096 left
      let pay := bits w 31 0
      let meth := bits w 55 48
      let ok := bits w 47 32 * 32 == orig && decide (meth ≤ 1) && decide (pay ≤ orig) && (meth == 1 || pay == orig)
      let k : ChunkAt := { head := a, pay := pay, orig := orig, method := meth, ok := ok }
      if ok then
        let r := walkStream have8 word n (a + k.size) (left - orig)
        (k :: r.1, r.2)
      else ([k], none)
    else ([], some a)

/-- The chunks of a DECOMPRESS source. -/
def State.chunks (s : State) (c : Ch) (d : Nat) (st : List Staged) : List ChunkAt × Option Nat :=
  walkStream (fun a => ownMemory a || stagedAll st a 8) (fun a => natOfBytes (s.srcBytes c st a 8))
    (ceilDiv (dLen d) 4096) (dSrc d) (dLen d)

/-! ### What a move still needs -/

/-- Is an address fetched over a port, the host slice or the control space, so that its bytes must be staged first? -/
def mustStage (a : Nat) : Bool :=
  match zoneOf a with
  | .host => true
  | .partner _ => true
  | .control => true
  | _ => false

/-- The unit in which a range is fetched from outside the channel: trains of 4 KiB from a partner (09 R231), granules otherwise. -/
def fetchUnit (a : Nat) : Nat := match zoneOf a with | .partner _ => 4096 | _ => 256

/-- Put a range of addresses [lo, hi) among ranges in increasing address, joining those that meet. -/
def addRange (lo hi : Nat) : List (Nat × Nat) → List (Nat × Nat)
  | [] => [(lo, hi)]
  | (a, b) :: t =>
    if hi < a then (lo, hi) :: (a, b) :: t
    else if b < lo then (a, b) :: addRange lo hi t
    else addRange (min lo a) (max hi b) t

/-- The 32-byte granules of some ranges (address and bytes), each once and in increasing address (08 R189, R215), as ranges [lo, hi). -/
def inOrder (rs : List (Nat × Nat)) : List (Nat × Nat) :=
  rs.foldr (fun r l => if r.2 = 0 then l else addRange (r.1 / 32 * 32) (ceilDiv (r.1 + r.2) 32 * 32) l) []

/-- The parts of a piece that are not staged. -/
def unstaged (st : List Staged) (p : Nat × Nat) : List (Nat × Nat) :=
  (((tab (p.2 / 32) (fun i => p.1 + 32 * i)).filter (fun a => !stagedAll st a 32)).foldr (fun a l => addRange a (a + 32) l) []).map
    (fun r => (r.1, r.2 - r.1))

/-- The ranges whose bytes a move needs now; of a DECOMPRESS, the chunks found so far and the head that comes next. -/
def State.moveWants (s : State) (c : Ch) (m : Move) : List (Nat × Nat) :=
  if dMode m.desc = 2 then
    let w := s.chunks c m.desc m.staged
    w.1.map (fun k => (k.head, k.size)) ++ (match w.2 with | some a => [(a, 32)] | none => [])
  else moveRanges m.desc m.blocks

/-- The pieces a move still needs from outside the channel before it can write its destination, in increasing address and none twice
(08 R215). -/
def State.moveNeeds (s : State) (c : Ch) (m : Move) : List (Nat × Nat) :=
  if mustStage (dSrc m.desc) then
    (inOrder ((s.moveWants c m).filter (fun r => mustStage r.1))).flatMap (fun r =>
      (cutRange (fetchUnit r.1) r.1 (r.2 - r.1)).flatMap (unstaged m.staged))
  else []

/-- A staged copy that has just arrived. -/
def freshStaged (s : State) (a : Nat) (bs : List Byte) (poisoned : Bool) : Staged :=
  { addr := a, data := bs, poisoned := poisoned, stale := false, cameAt := s.count, ahead := false }

/-- The numbers of a cluster's active moves and waiting tile cars. -/
def Cluster.fetchers (cl : Cluster) : List Nat :=
  cl.moves.map (·.id) ++ cl.refetch.filterMap (fun f => f.2.map (·.id))

/-- The tags in use of a cluster's shunter: the granules it has asked for outside the channel and not received (08 R208). -/
def Chan.tagsUsed (x : Chan) (k : Nat) : Nat :=
  let ids := (x.run.cluster k).fetchers
  ((x.host.ops.filter (fun o => o.read && ids.contains o.id)).map HostOp.granules).sum +
    ((x.hub.ops.filter (fun o => o.op == 1 && ids.contains o.id)).map (fun o => ceilDiv o.length 256)).sum

/-- Has a car asked for a piece and not received it? -/
def Chan.askedFor (x : Chan) (id : Nat) (p : Nat × Nat) : Bool :=
  x.host.ops.any (fun o => o.id == id && o.read && decide (o.dst ≤ p.1 ∧ p.1 + p.2 ≤ o.dst + o.length)) ||
    x.hub.ops.any (fun o => o.id == id && o.op == 1 && decide (o.dst ≤ p.1 ∧ p.1 + p.2 ≤ o.dst + o.length))

/-- Ask for a piece from outside the channel, under a car's number, while the shunter has tags. The depot answers for a host sector that it
holds, and else asks for the whole sector (11 R275). Control space gives bytes that the manual does not state, at once (log entry 11). -/
def State.fetchPiece (s : State) (c : Ch) (k id : Nat) (put : Staged → State → State) (p : Nat × Nat) : State :=
  let x := s.ch c
  if x.askedFor id p || decide (128 < x.tagsUsed k + ceilDiv p.2 256) then s
  else match zoneOf p.1 with
  | .host =>
    let h := s.target c p.1
    if x.throughDepot p.1 then
      let old := x.mem.sector? true h
      let s := s.onMem c (fun m => m.countDepot old.isSome)
      match old with
      | some q => put (freshStaged s p.1 ((q.bytes.drop (h % 256)).take p.2) q.poisoned) (s.depotPut c true h q)
      | none => s.hostOp c { tag := 0, id := id, read := true, kind := 1, addr := h / 256 * 256, length := 256, data := []
                             poisoned := false, dst := p.1 / 256 * 256, sent := false, sentAt := 0 }
    else s.hostOp c { tag := 0, id := id, read := true, kind := 0, addr := h, length := p.2, data := [], poisoned := false
                      dst := p.1, sent := false, sentAt := 0 }
  | .partner q =>
    s.newOp c q { id := id, port := 0, seq := 0, epoch := 0, op := 1, addr := s.target c p.1, length := p.2, data := [],
                  poisoned := [], a := 0, b := 0, round := 0, members := 0, dst := p.1, via := none, noPathAt := none }
  | _ =>
    put (freshStaged s p.1 (tab p.2 (fun i => (Config.freeWord (s.freeNo + i)).setWidth 8)) false)
      { s with freeNo := s.freeNo + p.2 }

/-- Change an active move. -/
def Cluster.onMove (cl : Cluster) (id : Nat) (f : Move → Move) : Cluster :=
  { cl with moves := cl.moves.map (fun m => if m.id = id then f m else m) }

/-- Add a staged copy to an active move: run-ahead has brought it when the demand point is still to come. -/
def State.stage (s : State) (c : Ch) (k id : Nat) (g : Staged) : State :=
  s.onCluster c k (fun cl => cl.onMove id (fun m => { m with staged := m.staged ++ [{ g with ahead := !m.started }] }))

/-- An active move by its number. -/
def State.move? (s : State) (c : Ch) (k id : Nat) : Option Move := (s.cluster c k).moves.find? (fun m => m.id == id)

/-! ### Map faults (08 R217) -/

/-- One step of a move in its order: a source range, the destination range it gives, and whether a source fault leaves the whole
destination range unwritten. -/
structure MoveUnit where
  src : Nat
  srcN : Nat
  dst : Nat
  dstN : Nat
  chunk : Bool
  deriving DecidableEq, Repr

/-- Where a move faults: the address, write or read, the units before it, and the bytes of the faulting unit's destination that come
before the faulting byte. -/
structure MapFault where
  addr : Nat
  write : Bool
  before : Nat
  part : Nat
  deriving DecidableEq, Repr

/-- The first map fault of a move's units. -/
def State.unitFault (s : State) (c : Ch) : List MoveUnit → Nat → Option MapFault
  | [], _ => none
  | u :: us, n =>
    let r := s.firstBad c u.src u.srcN false
    let w := s.firstBad c u.dst u.dstN true
    let tr := fun a => if u.chunk || u.srcN = 0 then 0 else (a - u.src) * u.dstN / u.srcN
    match r, w with
    | some a, some b =>
      if tr a ≤ b - u.dst then some { addr := a, write := false, before := n, part := tr a }
      else some { addr := b, write := true, before := n, part := b - u.dst }
    | some a, none => some { addr := a, write := false, before := n, part := tr a }
    | none, some b => some { addr := b, write := true, before := n, part := b - u.dst }
    | none, none => s.unitFault c us (n + 1)

/-- The units of a move whose lengths need no data: a COPY or a conversion between fixed widths. -/
def plainUnits (d : Nat) (blocks : List Nat) : List MoveUnit :=
  match dMode d with
  | 0 => (copySegs d blocks).map (fun g => { src := g.1, srcN := g.2.2, dst := g.2.1, dstN := g.2.2, chunk := false })
  | 3 => [{ src := dSrc d, srcN := dLen d, dst := dDst d, dstN := dLen d / dElem d, chunk := false }]
  | _ => [{ src := dSrc d, srcN := dLen d / dElem d, dst := dDst d, dstN := dLen d, chunk := false }]

/-- The units of a COMPRESS: chunks, with the stream that each gives; then LEN_OUT. -/
def State.compressUnits (s : State) (c : Ch) (d : Nat) (st : List Staged) : List (MoveUnit × List Byte) :=
  let cs := compressChunks (dElem d) (s.srcBytes c st (dSrc d) (dLen d))
  let r := cs.zipIdx.foldl (fun (acc : Nat × List (MoveUnit × List Byte)) k =>
    (acc.1 + k.1.length,
     acc.2 ++ [({ src := dSrc d + 4096 * k.2, srcN := min 4096 (dLen d - 4096 * k.2), dst := dDst d + acc.1
                  dstN := k.1.length, chunk := true }, k.1)])) (0, [])
  if dLenOut d = 0 then r.2
  else r.2 ++ [({ src := dSrc d, srcN := 0, dst := dLenOut d, dstN := 32, chunk := true }, bytesOfNat 8 r.1 ++ zeros 24)]

/-- The units of a DECOMPRESS: chunks, with the bytes that each restores; from a head that is not as R211 gives it, the bytes are not
stated and are free values (log entry 11). -/
def State.decompressUnits (s : State) (c : Ch) (d : Nat) (st : List Staged) : List (MoveUnit × List Byte) :=
  let ks := (s.chunks c d st).1
  let r := ks.foldl (fun (acc : Nat × List (MoveUnit × List Byte)) k =>
    if k.ok then
      let pay := s.srcBytes c st (k.head + 8) k.pay
      let bs := if k.method = 0 then pay else unpackChunk (dElem d) (k.orig / dElem d) pay
      (acc.1 + k.orig, acc.2 ++ [({ src := k.head, srcN := k.size, dst := dDst d + acc.1, dstN := k.orig, chunk := true }, bs)])
    else
      let n := dLen d - acc.1
      let h := natOfBytes (s.srcBytes c st k.head 8)
      (dLen d, acc.2 ++ [({ src := k.head, srcN := 8, dst := dDst d + acc.1, dstN := n, chunk := true }, tab n (Config.restored h))])) (0, [])
  r.2

/-- The E4M3 codes of a NARROW_E4M3 and its counts (08 R210). -/
def narrowE4 (draw : Draw) (d : Nat) (bs : List Byte) : List Byte × Counts :=
  let g : Gauge := if dElem d = 4 then .fp32 else .bf16
  let rs := (elemsOf (dElem d) bs).zipIdx.map (fun e =>
    narrowOne .e4m3 (if dSr d then .sr (draw.u16 (streamId (dStream d) (dLayer d)) (narrowPos (dSeed d) e.2)) else .rne)
      (decodeCode g e.1))
  (rs.map (fun r => BitVec.ofNat 8 r.1), rs.foldl (fun n r => n.add r.2) {})

/-- The wide elements of a WIDEN_E4M3 and its counts (08 R210). -/
def widenE4 (d : Nat) (bs : List Byte) : List Byte × Counts :=
  let g : Gauge := if dElem d = 4 then .fp32 else .bf16
  let rs := bs.map (fun b => narrowOne g .rne (decodeCode .e4m3 b.toNat))
  (rs.flatMap (fun r => bytesOfNat (dElem d) r.1), rs.foldl (fun n r => n.add r.2) {})

/-- The units of a move with the bytes each writes, and its conversion counts. -/
def State.moveUnits (s : State) (c : Ch) (m : Move) : List (MoveUnit × List Byte) × Counts :=
  let d := m.desc
  let st := m.staged
  match dMode d with
  | 0 => ((plainUnits d m.blocks).map (fun u => (u, s.srcBytes c st u.src u.srcN)), {})
  | 1 => (s.compressUnits c d st, {})
  | 2 => (s.decompressUnits c d st, {})
  | 3 =>
    let r := narrowE4 ((s.ch c).draw (s.ch c).run.leg) d (s.srcBytes c st (dSrc d) (dLen d))
    ((plainUnits d []).map (fun u => (u, r.1)), r.2)
  | _ =>
    let r := widenE4 d (s.srcBytes c st (dSrc d) (dLen d / dElem d))
    ((plainUnits d []).map (fun u => (u, r.1)), r.2)

/-- The first map fault of a move, as far as its bytes at hand show it; what is still to be fetched is checked before it is. The
destination of a COMPRESS is known once its source is at hand, the source of a DECOMPRESS chunk by chunk, the next head included. -/
def State.moveFault (s : State) (c : Ch) (m : Move) : Option MapFault :=
  let d := m.desc
  if dMode d = 1 then
    match s.firstBad c (dSrc d) (dLen d) false with
    | none => if (s.moveNeeds c m).isEmpty then s.unitFault c ((s.compressUnits c d m.staged).map (·.1)) 0 else none
    | some a =>
      if mustStage (dSrc d) then some { addr := a, write := false, before := (a - dSrc d) / 4096, part := 0 }
      else s.unitFault c ((s.compressUnits c d m.staged).map (·.1)) 0
  else if dMode d = 2 then
    s.unitFault c ((s.decompressUnits c d m.staged).map (·.1) ++
      (match (s.chunks c d m.staged).2 with
       | some a => [{ src := a, srcN := 32, dst := dDst d, dstN := 0, chunk := true }]
       | none => [])) 0
  else s.unitFault c (plainUnits d m.blocks) 0

/-! ### Writing the destination -/

/-- The far-tier granules of a range that do not go through the depot (08 R201). -/
def Chan.farGranules (x : Chan) (a n : Nat) : List Nat :=
  match zoneOf a with
  | .far => if x.throughDepot a then [] else granules a n
  | _ => []

/-- Note the far-tier writes of a car, with what the granules held (08 R201). -/
def State.noteFarWrite (s : State) (c : Ch) (id a n : Nat) : State :=
  s.onMem c (fun m =>
    { m with farOps := ((s.ch c).farGranules a n).reverse.map (fun g =>
        { id := id, granule := g, beneath := some (m.read (g * 256) 256, m.poisoned? g) }) ++ m.farOps })

/-- Note the destination granules of a COPY from the far tier (08 R201). -/
def State.noteFarRead (s : State) (c : Ch) (id : Nat) (u : MoveUnit) : State :=
  if !((s.ch c).farGranules u.src u.srcN).isEmpty && ownMemory u.dst then
    s.onMem c (fun m =>
      { m with farOps := (granules u.dst u.dstN).map (fun g => { id := id, granule := g, beneath := none }) ++ m.farOps })
  else s

/-- Write bytes of a move to one granule of a host page with C: over the sector that the depot owns, or, once an owning read has brought
the sector, then (11 R275). -/
def State.writeOwned (s : State) (c : Ch) (id h : Nat) (bs : List Byte) (bad : Bool) : State :=
  let old := (s.ch c).mem.sector? true h
  let s := s.onMem c (fun m => m.countDepot old.isSome)
  match old.filter (fun x => x.dirty) with
  | some x => s.writeHost c h bs bad (x.bytes, x.poisoned)
  | none => s.hostOp c { tag := 0, id := id, read := true, kind := 2, addr := h / 256 * 256, length := 256, data := bs
                         poisoned := bad, dst := h, sent := false, sentAt := 0 }

/-- Write bytes of a move to one destination range: channel memory, a host page through the depot cache or over the slice, or a
partner window as WRITE trains. `bad` lists the 32-byte units, by offset, that carry poison. -/
def State.writeDst (s : State) (c : Ch) (id a : Nat) (bs : List Byte) (bad : List Nat) : State :=
  let badIn := fun lo n => bad.any (fun u => overlaps (a + 32 * u) 32 lo n)
  match zoneOf a with
  | .host =>
    (cutRange 256 a bs.length).foldl (fun t p =>
      let part := (bs.drop (p.1 - a)).take p.2
      let host := t.target c p.1
      if (t.ch c).throughDepot p.1 then t.writeOwned c id host part (badIn p.1 p.2)
      else
        t.hostOp c { tag := 0, id := id, read := false, kind := 0, addr := host, length := p.2, data := part
                     poisoned := badIn p.1 p.2, dst := 0, sent := false, sentAt := 0 }) s
  | .partner q =>
    (cutRange 4096 a bs.length).foldl (fun t p =>
      let part := (bs.drop (p.1 - a)).take p.2
      let gs := (cutRange 256 p.1 p.2).zipIdx
      t.newOp c q { id := id, port := 0, seq := 0, epoch := 0, op := 2, addr := t.target c p.1, length := p.2, data := part
                    poisoned := (gs.filter (fun g => badIn g.1.1 g.1.2)).map (·.2), a := 0, b := 0, round := 0, members := 0
                    dst := 0, via := none, noPathAt := none }) s
  | .control => s
  | _ =>
    let s := (s.noteFarWrite c id a bs.length).depotStore c a bs
    if bad.isEmpty then s else s.onMem c (fun m => bad.foldl (fun m u => m.poison ((a + 32 * u) / 256)) m)

/-- The 32-byte units of a COPY's range that come from poisoned granules. -/
def State.badUnits (s : State) (c : Ch) (st : List Staged) (a n : Nat) : List Nat :=
  if (s.srcPoisonIn c st a n).isNone then []
  else (List.range (n / 32)).filter (fun u => s.srcPoison c st (a + 32 * u))

/-- A poisoned granule that a conversion reads, or that a COPY would send to a partner as part of a granule (16 Table 16-2). -/
def State.moveEats (s : State) (c : Ch) (m : Move) (us : List MoveUnit) : Option Nat :=
  us.findSome? (fun u =>
    if dMode m.desc ≠ 0 then s.srcPoisonIn c m.staged u.src u.srcN
    else
      match zoneOf u.dst with
      | .partner _ =>
        (cutRange 256 (s.target c u.dst) u.dstN).findSome? (fun p =>
          if p.2 = 256 then none else s.srcPoisonIn c m.staged (u.src + (p.1 - s.target c u.dst)) p.2)
      | _ => none)

/-- A move has met a map fault: a free choice of the whole 32-byte destination granules before the faulting byte has been written,
the fault is logged, the car never posts, and the channel will hold with MAP_FAULT (08 R217, 03 R89). Granules outside the channel's
own memory are not written (log entry 12), nor any whose source has not come yet. -/
def State.mapFault (s : State) (c : Ch) (k : Nat) (m : Move) (f : MapFault) : State :=
  let us := (s.moveUnits c m).1.takeWhile (fun u => !mustStage u.1.src || stagedAll m.staged u.1.src u.1.srcN)
  let done := (us.take f.before) ++ ((us.drop f.before).take 1).map (fun u => (u.1, u.2.take f.part))
  let gs := done.flatMap (fun u =>
    if ownMemory u.1.dst then
      ((cutRange 32 u.1.dst u.2.length).filter (fun p => p.2 == 32)).map (fun p => (p.1, (u.2.drop (p.1 - u.1.dst)).take 32))
    else [])
  let s := gs.zipIdx.foldl (fun t g => if Config.freeBool (s.freeNo + g.2) then t.depotStore c g.1.1 g.1.2 else t) s
  let s := { s with freeNo := s.freeNo + gs.length }
  let par := paramBytes [(8, f.addr), (2, k), (4, m.q.pos), (2, if f.write then 1 else 0)]
  let s := s.logAs c (0x0200 + k) (0x0200 + k) 0x0801 par
  let s := s.onCluster c k (fun cl => { cl with deadCars := true, moves := cl.moves.filter (fun n => n.id != m.id) })
  (s.touch c).stopFor c 0x10a (0x0200 + k) par

/-- A move is done: it leaves the shunter, its staging counts, and its post is to be made. -/
def State.retire (s : State) (c : Ch) (k : Nat) (m : Move) : State :=
  let pat := moveRanges m.desc m.blocks
  let early := m.staged.filter (fun g => g.ahead)
  let used := early.filter (fun g => pat.any (fun r => overlaps r.1 r.2 g.addr g.data.length))
  let s := s.onMem c (fun x =>
    { x with pfUsed := x.pfUsed + used.length, pfUnused := x.pfUnused + (early.length - used.length)
             pfLead := x.pfLead + ((used.map (fun g => m.demandAt - g.cameAt)).sum)
             farOps := if Car.postEn m.q.car then x.farOps else x.farOps.filter (fun o => o.id != m.id) })
  let s := s.onCluster c k (fun cl =>
    { cl with moves := cl.moves.filter (fun n => n.id != m.id)
              lastNz := if dNzEn m.desc then Tab.put none cl.lastNz (dNzAddr m.desc) (some (m.desc, m.q.pos)) else cl.lastNz })
  s.pendPost c k m.q.car m.id

/-- The conversion counts of a shunt car go to its descriptor's layer; those of a car inside a span count for the span's pass too
(08 R210, 05 R113, R120). -/
def Watch.reportShunt (w : Watch) (e : QCar) (n : Counts) : Watch := w.report e n

/-- The destination bytes of some writes, by address, the later write on top. -/
def imageOf (us : List (MoveUnit × List Byte)) : Tab (Option Byte) :=
  us.foldl (fun t u => Tab.putAll none t u.1.dst (u.2.map some)) []

/-- Group bytes at rising addresses into runs of adjacent bytes of one 256-byte granule. -/
def byteRuns : List (Nat × Byte) → List (Nat × List Byte)
  | [] => []
  | e :: l =>
    match byteRuns l with
    | (o, bs) :: rs => if o = e.1 + 1 ∧ o % 256 ≠ 0 then (e.1, e.2 :: bs) :: rs else (e.1, [e.2]) :: (o, bs) :: rs
    | [] => [(e.1, [e.2])]

/-- Writes into an SE page are made once each, in increasing address (08 R215); `bad` lists, for each write, its poisoned units. -/
def State.seWrites (s : State) (c : Ch) (us : List ((MoveUnit × List Byte) × List Nat)) : List ((MoveUnit × List Byte) × List Nat) :=
  let se := fun (a : Nat) => match s.page c a with | some e => pageSE e | none => false
  if us.length ≤ 1 || !us.any (fun u => mustStage u.1.1.dst && se u.1.1.dst) then us
  else
    let bad := us.flatMap (fun u => u.2.map (fun i => u.1.1.dst + 32 * i))
    (byteRuns ((imageOf (us.map (·.1))).filterMap (fun e => e.2.map (fun b => (e.1, b))))).map (fun r =>
      (({ src := 0, srcN := 0, dst := r.1, dstN := r.2.length, chunk := false }, r.2),
        (List.range (ceilDiv r.2.length 32)).filter (fun i => bad.contains (r.1 + 32 * i))))

/-- Carry out the units of a move: the reads of the channel's own memory pass through the depot, then the writes are made. -/
def State.carryOut (s : State) (c : Ch) (m : Move) (us : List (MoveUnit × List Byte)) : State :=
  let pairs := us.map (fun u => (u, if dMode m.desc = 0 then s.badUnits c m.staged u.1.src u.1.srcN else []))
  let t := us.foldl (fun t u => if (stagedAt m.staged u.1.src).isSome then t else t.depotPass c u.1.src u.1.srcN false) s
  let t := (t.seWrites c pairs).foldl (fun t u => t.writeDst c m.id u.1.1.dst u.1.2 u.2) t
  if dMode m.desc = 0 then us.foldl (fun t u => t.noteFarRead c m.id u.1) t else t

/-- Write a move's destination, every byte it needs being at hand. -/
def State.finishMove (s : State) (c : Ch) (k : Nat) (m : Move) : State :=
  let r := s.moveUnits c m
  match s.moveEats c m (r.1.map (·.1)) with
  | some a => s.consumePoison c (a / 256 * 256) (0x0200 + k)
  | none =>
    let s := s.carryOut c m r.1
    let s := if dMode m.desc = 0 then s else s.onWatch c (fun w => w.reportShunt m.q r.2)
    s.retire c k m

/-! ### Doorbells (09 Table 09-4) -/

/-- The doorbell that an address names: 0 SEND, 1 ATOMIC, 2 FENCE. -/
def doorbellOf (a : Nat) : Option Nat :=
  if controlBase ≤ a ∧ a < controlBase + 384 * 256 then
    match (a - controlBase) % 256 with
    | 0 => some 0
    | 0x20 => some 1
    | 0x40 => some 2
    | _ => none
  else none

/-- Does a range touch the doorbells' part of the control space? -/
def nearDoorbells (a n : Nat) : Bool := overlaps a n controlBase (384 * 256)

/-- A MOVE that writes doorbells must be one linear COPY of 32 bytes to one doorbell (09 R231). -/
def doorbellBad (d : Nat) : Bool :=
  (nearDoorbells (dDst d) (if dMode d = 1 then dStreamMax d else dLen d) || (dMode d == 1 && dLenOut d != 0 && nearDoorbells (dLenOut d) 32)) &&
    !(dMode d == 0 && dRow d == 0 && dLen d == 32 && (doorbellOf (dDst d)).isSome)

/-! ### MOVE cars -/

/-- The descriptor number of a MOVE: DESC_INDEX plus the iteration of the loop at depth LOOP_LVL (08 R208). -/
def moveIndex (e : QCar) : Nat :=
  let l := Car.get e.car 74 71
  Car.get e.car 70 51 + (if l = 0 then 0 else e.iters.getD (l - 1) 0)

/-- Address and count of the descriptor table. -/
def Chan.descTable (x : Chan) : Nat × Nat :=
  match x.run.image with
  | some i => (i.tableAddr, i.descCount)
  | none => (0, 0)

/-- The rules of a shunt car that need no descriptor (08 R208, 06 R152). -/
def shuntInvalid (e : QCar) : Option Nat :=
  let car := e.car
  if !Car.commonOk car || Car.get car 50 0 != 0 then some 0
  else if 1 < Car.func car then some 1
  else if Car.get car 78 75 == 0 && Car.get car 90 79 != 0 then some 2
  else if Car.func car = 1 then
    if Car.get car 54 51 != 0 || Car.get car 74 71 != 0 || Car.get car 78 75 != 0 then some 3 else none
  else if 8 < Car.get car 74 71 || decide (e.iters.length < Car.get car 74 71) then some 4
  else none

/-- Does a range lie in a cluster's own tender window? -/
def inTender (k a n : Nat) : Bool := decide (tenderAt k 0 ≤ a ∧ a + n ≤ tenderAt k tenderBytes)

/-- Do the source and the destination of a descriptor, every row, patch and length record included, lie below the host range (05 R115)? -/
def belowHost (d : Nat) : Bool :=
  let blocks := List.range (dBlocks d)
  (moveRanges d blocks).all (fun r => decide (r.1 + r.2 ≤ hostBase)) &&
    (if dMode d = 0 then (copySegs d blocks).all (fun g => decide (g.2.1 + g.2.2 ≤ hostBase))
     else decide (dDst d + (if dMode d = 1 then dStreamMax d else if dMode d = 3 then dLen d / dElem d else dLen d) ≤ hostBase)) &&
    (dMode d != 1 || decide (dLenOut d + 32 ≤ hostBase))

/-- Is the loaded image FORWARD_ONLY: no GRAD attributes (06 Table 06-1)? -/
def Chan.forwardOnly (x : Chan) : Bool := match x.run.image with | some i => i.flags.testBit 1 | none => false

/-- The rules of a MOVE that its descriptor decides (08 R209, R210, 09 R231, 05 R115, 06 Table 06-1). -/
def moveInvalid (x : Chan) (k : Nat) (e : QCar) (d : Nat) : Option Nat :=
  if (x.descTable).2 ≤ moveIndex e then some 5
  else if descBad d then some 6
  else if dKib d = 0 && !inTender k (dSrc d) 32 && !inTender k (dDst d) 32 then some 7
  else if doorbellBad d then some 8
  else if e.span.isSome && !belowHost d then some 9
  else if !spanOk e x k none then some 10
  else if d.testBit 352 && dMode d == 3 && x.forwardOnly then some 11
  else none

/-- Do the staging areas of two descriptors overlap (08 R218)? -/
def stagesClash (d e : Nat) : Bool := overlaps (dStage d) (dKib d * 1024) (dStage e) (dKib e * 1024)

/-- The blocks that a move carries: under NZ_EN with zero skip on, those whose prediction bit is 1 as it becomes active (08 R216). -/
def Chan.moveBlocks (x : Chan) (k d : Nat) : List Nat :=
  if dNzEn d then
    (List.range (dBlocks d)).filter (fun b => !x.watch.zeroSkipNow || mapBit x.mem (tenderAt k (dNzAddr d)) b)
  else []

/-- Fetch one granule ahead of the demand point: from a page that permits it, into staging while there is room; a hull granule that
cannot be fetched is dropped and counted (08 R212 to R214). -/
def State.fetchAhead (s : State) (c : Ch) (k id a : Nat) : State :=
  match s.move? c k id with
  | none => s
  | some m =>
    let g := a / 256 * 256
    let s := if mustStage g then s else s.depotPass c g 256 false
    let inPat := (moveRanges m.desc m.blocks).any (fun r => overlaps r.1 r.2 g 256)
    let inHull := (hullRanges m.desc).any (fun r => overlaps r.1 r.2 g 256)
    if !(inPat || inHull) || (stagedAt m.staged g).isSome || dKib m.desc * 4 ≤ m.staged.length then s
    else if s.aheadMay c g then
      if mustStage g then s.fetchPiece c k id (fun t u => u.stage c k id t) (g, 256)
      else s.stage c k id (freshStaged s g ((s.ch c).mem.read g 256) ((s.ch c).mem.poisoned? (g / 256)))
    else if !inPat then s.onMem c (fun x => { x with raDropped := x.raDropped + 1 })
    else s

/-- Ask for the pieces that a move needs. -/
def State.fetchAll (s : State) (c : Ch) (k : Nat) (m : Move) : State :=
  (s.moveNeeds c m).foldl (fun t p => t.fetchPiece c k m.id (fun g u => u.stage c k m.id g) p) s

/-- Go on with a move whose demand point has passed: a map fault ends it; else ask for what is missing, again after each piece that the
depot gave at once; with nothing missing, write the destination. -/
def State.advanceMove (s : State) (c : Ch) (k id : Nat) : Nat → State
  | 0 => s
  | n + 1 =>
    match s.move? c k id with
    | none => s
    | some m =>
      match s.moveFault c m with
      | some f => s.mapFault c k m f
      | none =>
        if (s.moveNeeds c m).isEmpty then (if (doorbellOf (dDst m.desc)).isNone then s.finishMove c k m else s)
        else
          let t := s.fetchAll c k m
          match t.move? c k id with
          | none => t
          | some m' => if m'.staged.length = m.staged.length then t else t.advanceMove c k id n

/-- The rounds of fetching that a move can need: one for the head and one for the payload of each chunk. -/
def rounds (m : Move) : Nat := 2 * ceilDiv (dLen m.desc) 4096 + 2

/-- Go on with every move of a cluster whose demand point has passed: tags may have come free. -/
def State.advanceAll (s : State) (c : Ch) (k : Nat) : State :=
  ((s.cluster c k).moves.filter (fun m => m.started)).foldl (fun t m => t.advanceMove c k m.id (rounds m)) s

/-- The demand point of an active move (08 R212, R217, R219): map faults are found, the reads meet the damage there is, stale copies
are dropped, and the move goes on. -/
def State.demand (s : State) (c : Ch) (k id : Nat) (faults : List MemFault) : State :=
  match s.move? c k id with
  | none => s
  | some m =>
    match s.moveFault c m with
    | some f => s.mapFault c k m f
    | none =>
      let stale := (m.staged.filter (·.stale)).length
      let late := (s.ch c).host.ops.any (fun o => o.id == id && o.read) || (s.ch c).hub.ops.any (fun o => o.id == id)
      let s := faults.foldl (fun t f =>
        if (moveRanges m.desc m.blocks).any (fun r => overlaps r.1 r.2 (f.addr / 256 * 256) 256) && ownMemory f.addr
        then t.damage c f (memSource f.addr) else t) s
      let s := s.onMem c (fun x =>
        { x with pfUnused := x.pfUnused + stale, pfLate := if late then x.pfLate + 1 else x.pfLate })
      let s := s.onCluster c k (fun cl => cl.onMove id (fun m =>
        { m with started := true, demandAt := s.count, staged := m.staged.filter (fun g => !g.stale) }))
      s.advanceMove c k id (rounds m)

/-- A MOVE at the head of the shunter's queue: checked, then made active (08 R208, R218). `body` goes on from its number and
descriptor; nothing happens while eight moves are active or a staging area clashes, or when the MODE is another command's. -/
def State.moveCar (s : State) (c : Ch) (k : Nat) (want : QCar → Nat → Bool) (body : Nat → Nat → QCar → State → Option State) :
    State :=
  s.issueFrom c k 5 (fun e t =>
    let x := t.ch c
    match shuntInvalid e with
    | some row => some (t.carInvalid c k e.car e.pos row)
    | none =>
      if Car.func e.car ≠ 0 then none
      else
        let a := (x.descTable).1 + 64 * moveIndex e
        match (if moveIndex e < (x.descTable).2 then x.mem.poisonIn a 64 else none) with
        | some p => some (t.consumePoison c p (0x0200 + k))
        | none =>
          let d := x.mem.nat a 64
          match moveInvalid x k e d with
          | some row => some (t.carInvalid c k e.car e.pos row)
          | none =>
            let cl := x.run.cluster k
            if !want e d || decide (8 ≤ cl.moves.length) || cl.moves.any (fun m => stagesClash m.desc d) then none
            else
              let nid := t.newId c
              let m : Move := { q := e, id := nid.1, desc := d, blocks := x.moveBlocks k d, staged := [], started := false
                                demandAt := 0 }
              let t := (nid.2.popCar c k 5).onCluster c k (fun cl => { cl with moves := cl.moves ++ [m] })
              body nid.1 d e (t.issued c))

/-- A MOVE of one mode becomes active; its run-ahead fetches land in staging, and with no destination wait to come it reaches its
demand point at once (08 R212). A doorbell write without such a wait is left to SEND, ATOMIC and FENCE. -/
def State.runMove (s : State) (c : Ch) (k mode : Nat) (ahead : List Nat) (faults : List MemFault) : State :=
  s.moveCar c k (fun e d => dMode d == mode && ((doorbellOf (dDst d)).isNone || e.dst.isSome)) (fun id d e t =>
    let t := if dKib d = 0 then t else ahead.foldl (fun t a => t.fetchAhead c k id a) t
    some (if e.dst.isNone then t.demand c k id faults else t))

/-- COPY (08 R210). -/
def execCopy (w : At) (ahead : List Nat) (faults : List MemFault) (s : State) : Host.Outcome State Fault Refusal :=
  .next ((s.meet w).runMove w.ch w.cl 0 ahead faults)

/-- COMPRESS (08 R211). -/
def execCompress (w : At) (ahead : List Nat) (faults : List MemFault) (s : State) : Host.Outcome State Fault Refusal :=
  .next ((s.meet w).runMove w.ch w.cl 1 ahead faults)

/-- DECOMPRESS (08 R211). -/
def execDecompress (w : At) (ahead : List Nat) (faults : List MemFault) (s : State) : Host.Outcome State Fault Refusal :=
  .next ((s.meet w).runMove w.ch w.cl 2 ahead faults)

/-- NARROW_E4M3 (08 R210). -/
def execNarrowE4m3 (w : At) (ahead : List Nat) (faults : List MemFault) (s : State) : Host.Outcome State Fault Refusal :=
  .next ((s.meet w).runMove w.ch w.cl 3 ahead faults)

/-- WIDEN_E4M3 (08 R210). -/
def execWidenE4m3 (w : At) (ahead : List Nat) (faults : List MemFault) (s : State) : Host.Outcome State Fault Refusal :=
  .next ((s.meet w).runMove w.ch w.cl 4 ahead faults)

/-- DEMAND_POINT (08 R212, R219): the destination wait of active move number `slot` is satisfied. -/
def execDemandPoint (w : At) (slot : Nat) (faults : List MemFault) (s : State) : Host.Outcome State Fault Refusal :=
  let s := s.meet w
  let c := w.ch
  let k := w.cl.val
  let x := s.ch c
  .next (match (x.run.cluster k).moves[slot]? with
    | none => s
    | some m =>
      if x.ctl.st = .running && !m.started && x.waitMet k m.q.dst && (doorbellOf (dDst m.desc)).isNone &&
          (x.sup.region (regionOf k)).st == .on then
        ((s.demand c k m.id faults).touch c).settle c
      else s)

/-! ### Data from outside, and re-fetches -/

/-- The cluster whose active move or waiting tile car has a number. -/
def Run.ownerOf (r : Run) (id : Nat) : Option Nat :=
  (r.clusters.find? (fun e => e.2.moves.any (fun m => m.id == id) ||
    e.2.refetch.any (fun f => match f.2 with | some g => g.id == id | none => false))).map (·.1)

/-- Data of a read from outside the channel has arrived: it is staged granule by granule for the car it belongs to, and the cluster's moves
whose demand point has passed go on. `bad` lists the poisoned granules by number. -/
def State.arrive (s : State) (c : Ch) (id a : Nat) (bs : List Byte) (bad : List Nat) : State :=
  match (s.ch c).run.ownerOf id with
  | none => s
  | some k =>
    let gs := (cutRange 256 a bs.length).zipIdx.map (fun p =>
      freshStaged s p.1.1 ((bs.drop (p.1.1 - a)).take p.1.2) (bad.contains p.2))
    let s := s.onCluster c k (fun cl =>
      { cl.onMove id (fun m => { m with staged := m.staged ++ gs.map (fun g => { g with ahead := !m.started }) }) with
        refetch := cl.refetch.map (fun f =>
          (f.1, f.2.map (fun g => if g.id = id then { g with staged := g.staged ++ gs } else g))) })
    ((s.advanceAll c k).touch c).settle c

/-- A mispredicted car starts again, its true half as its prediction; the cycles that the first pass and the wait for the missing blocks
have cost depend on the traffic of the moment (03 R84, R85, R90; log entry 42). -/
def State.restartCar (s : State) (c : Ch) (k eng : Nat) (f : Refetch) (r : TileRec) : State :=
  let n := Car.kBlocks f.q.car
  let blocks := includedBlocks (s.ch c).mem k r 0 n
  let lost := (Config.freeWord s.freeNo).toNat
  let t := ({ s with freeNo := s.freeNo + 1 } : State).onCluster c k (fun cl =>
    { cl with refetch := Tab.put none cl.refetch eng none, zsLost := (cl.zsLost + lost) % 2 ^ 64
              zsPred := cl.zsPred + ((List.range n).length - blocks.length) })
  (match (t.ch c).mem.poisonAmong (tileReads k f.q.car r blocks) with
    | some a => t.consumePoison c a (0x0200 + k)
    | none => t.runMatmul c k f.q r blocks).settle c

/-- The repeated MOVE of a waiting tile car: the latest completed one with NZ_EN that names its map pair, for the missing blocks alone
(08 R216). -/
def Refetch.move (f : Refetch) (d : Nat × Nat) : Move :=
  { q := { f.q with pos := d.2 }, id := f.id, desc := d.1, blocks := f.blocks.filter (fun b => decide (b < dBlocks d.1))
    staged := f.staged, started := true, demandAt := 0 }

/-- REFETCH_DONE (08 R216, 03 R84): the shunter has repeated, as demand fetches, the latest completed MOVE with NZ_EN that names the car's
map pair, for the missing blocks alone, and the car starts again with its true half. Blocks outside the channel are asked for first; a
map fault ends the car; without such a MOVE there is nothing to repeat, and the car starts again at once (log entry 63). -/
def execRefetchDone (w : At) (eng : Fin 4) (s : State) : Host.Outcome State Fault Refusal :=
  let s := s.meet w
  let c := w.ch
  let k := w.cl.val
  let x := s.ch c
  let cl := x.run.cluster k
  .next (match Tab.get none cl.refetch eng.val with
    | none => s
    | some f =>
      if x.ctl.st != .running || (x.sup.region (regionOf k)).st != .on then s
      else
        let raw := x.mem.nat (tenderAt k (Car.setAddr f.q.car)) 32
        let r := tileRecOf raw (Car.op f.q.car) (x.substOf f.q)
        match Tab.get none cl.lastNz r.nzAddr with
        | none => s.restartCar c k eng.val f r
        | some d =>
          let m := f.move d
          match s.moveFault c m with
          | some e => ((s.onCluster c k (fun cl => { cl with refetch := Tab.put none cl.refetch eng.val none })).mapFault c k m e).settle c
          | none =>
            let more := fun (g : Staged) (h : Refetch) => { h with staged := h.staged ++ [g] }
            let put := fun (g : Staged) (u : State) => u.onCluster c k (fun cl =>
              { cl with refetch := cl.refetch.map (fun e => if e.1 = eng.val then (e.1, e.2.map (more g)) else e) })
            let need := s.moveNeeds c m
            if !need.isEmpty then (need.foldl (fun t p => t.fetchPiece c k f.id put p) s).touch c
            else
              let us := (s.moveUnits c m).1
              match s.moveEats c m (us.map (·.1)) with
              | some a => s.consumePoison c (a / 256 * 256) (0x0200 + k)
              | none => (s.carryOut c { m with id := 0 } us).restartCar c k eng.val f r)

end Sys2Proof.Machine
end

