-- ==== Sys2Proof/Machine/World.lean ====
section
/-! DEFINITION. World operations: slots, resets with their draws, rings (07 R173 to R185). -/

namespace Sys2Proof.Machine

/-! ### Records -/

/-- Slot record fields (07 Table 07-2). -/
def slStream (v : Nat) : Nat := bits v 255 224
/-- EPISODE. -/
def slEpisode (v : Nat) : Nat := bits v 223 192
/-- STEP. -/
def slStep (v : Nat) : Nat := bits v 191 160
/-- STEP_LIMIT. -/
def slLimit (v : Nat) : Nat := bits v 159 128
/-- RDESC. -/
def slRdesc (v : Nat) : Nat := bits v 127 112
/-- ACTIVE. -/
def slActive (v : Nat) : Bool := v.testBit 103
/-- RESET. -/
def slReset (v : Nat) : Bool := v.testBit 102
/-- TERM_LAST. -/
def slTermLast (v : Nat) : Bool := v.testBit 101
/-- STATE_ADDR. -/
def slAddr (v : Nat) : Nat := bits v 95 48
/-- STATE_LEN. -/
def slLen (v : Nat) : Nat := bits v 47 16

/-- Replace bits [hi:lo] of a value. -/
def withBits (v hi lo x : Nat) : Nat := v - bits v hi lo * 2 ^ lo + x % 2 ^ (hi + 1 - lo) * 2 ^ lo

/-- Ring record fields (07 Table 07-5). -/
def rgBase (v : Nat) : Nat := bits v 255 208
/-- DEPTH. -/
def rgDepth (v : Nat) : Nat := bits v 191 160
/-- WORDS. -/
def rgWords (v : Nat) : Nat := bits v 159 144
/-- GROUPS. -/
def rgGroups (v : Nat) : Nat := bits v 143 128
/-- FIRST_SLOT. -/
def rgFirst (v : Nat) : Nat := bits v 127 112
/-- HEAD. -/
def rgHead (v : Nat) : Nat := bits v 95 64
/-- FILL. -/
def rgFill (v : Nat) : Nat := bits v 63 32
/-- WRAPS. -/
def rgWraps (v : Nat) : Nat := bits v 31 0
/-- Bytes of a ring. -/
def rgBytes (v : Nat) : Nat := rgDepth v * rgWords v * rgGroups v * 256

/-- The address of word `k` of lane `l` of ring group `g` at step `t` (07 R185). -/
def ringAddr (v k g t l : Nat) : Nat := rgBase v + (((k * rgGroups v + g) * rgDepth v + t) * 64 + l) * 4

/-- The fields of a ring record that Table 07-5 bounds. -/
def ringFieldsOk (v : Nat) : Bool :=
  bits v 207 192 == 0 && bits v 111 96 == 0 && rgBase v % 256 == 0 && decide (1 ≤ rgDepth v ∧ rgDepth v ≤ 2 ^ 20) &&
    decide (2 ≤ rgWords v ∧ rgWords v ≤ 1024) && decide (1 ≤ rgGroups v ∧ rgGroups v ≤ 256) && rgFirst v % 64 == 0 &&
    decide (rgHead v < rgDepth v) && decide (rgFill v ≤ rgDepth v)

/-- Does a range lie wholly in region memory, board memory or the far tier? -/
def inDataMemory (a n : Nat) : Bool :=
  decide (a + n ≤ 24 * regionBytes) || decide (boardBase ≤ a ∧ a + n ≤ boardEnd) ||
    decide (farBase ≤ a ∧ a + n ≤ farBase + 0x8000000000)

/-- A ring record obeys Table 07-5 and its ring lies in memory that may be written (07 R185). -/
def State.ringOk (s : State) (c : Ch) (v : Nat) : Bool :=
  ringFieldsOk v && inDataMemory (rgBase v) (rgBytes v) && (s.firstBad c (rgBase v) (rgBytes v) true).isNone

/-- Reset descriptor fields (07 Table 07-6). -/
def rdTemplate (v : Nat) : Nat := bits v 255 208
/-- LENGTH. -/
def rdLen (v : Nat) : Nat := bits v 207 176
/-- NPARAM. -/
def rdParams (v : Nat) : Nat := bits v 175 168
/-- PARAM_ADDR. -/
def rdParamAddr (v : Nat) : Nat := bits v 159 112

/-- Parameter entry fields (07 Table 07-7). -/
def paB (v : Nat) : Nat := bits v 127 96
/-- A. -/
def paA (v : Nat) : Nat := bits v 95 64
/-- OFFSET. -/
def paOff (v : Nat) : Nat := bits v 63 32
/-- KIND. -/
def paKind (v : Nat) : Nat := bits v 31 24

/-- The span B − A + 1 of an INT parameter. -/
def paSpan (v : Nat) : Int := signedOf 32 (paB v) - signedOf 32 (paA v) + 1

/-- A parameter entry obeys R184. -/
def paramOk (v len : Nat) : Bool :=
  decide (1 ≤ paKind v ∧ paKind v ≤ 3) && decide (paOff v < len) && paOff v % 4 == 0 &&
    (paKind v != 3 || decide (1 ≤ paSpan v ∧ paSpan v ≤ 2 ^ 24))

/-- The word a parameter draws (07 R184). -/
def paramWord (v : Nat) (t : Ticket) : W32 :=
  let a := BitVec.ofNat 32 (paA v)
  let b := BitVec.ofNat 32 (paB v)
  match paKind v with
  | 1 => fma32 (uniform32 t.x0) (sub32 b a) a
  | 2 => fma32 (normal32 t) b a
  | _ => BitVec.ofInt 32 (signedOf 32 (paA v) + ((t.x0.toNat / 256 * (paSpan v).toNat / 2 ^ 24 : Nat) : Int))

/-- The position of the draw of parameter `j` (07 R184). -/
def paramPos (episode rdesc j : Nat) : Nat := 2 ^ 63 + episode % 2 ^ 31 * 2 ^ 32 + rdesc * 2 ^ 16 + j

/-! ### World operation records (07 Table 07-3) -/

/-- OP. -/
def woOp (v : Nat) : Nat := bits v 3 0
/-- TADDR in bytes. -/
def woTaddr (v : Nat) : Nat := bits v 127 112 * 32
/-- WORD_COUNT. -/
def woCount (v : Nat) : Nat := bits v 111 96
/-- WORD_FIRST. -/
def woFirstWord (v : Nat) : Nat := bits v 95 80
/-- GROUPS. -/
def woGroups (v : Nat) : Nat := bits v 79 64
/-- FIRST_SLOT. -/
def woFirst (v : Nat) : Nat := bits v 63 48
/-- RING. -/
def woRing (v : Nat) : Nat := bits v 47 44
/-- FORCE. -/
def woForce (v : Nat) : Bool := v.testBit 43

/-- Address of slot `n` (07 R174). -/
def Image.slotAt (i : Image) (n : Nat) : Nat := i.slotBase + 32 * n
/-- Address of ring record `n` (07 R174). -/
def Image.ringAt (i : Image) (n : Nat) : Nat := i.slotBase + 32 * (i.slots + n)
/-- Address of reset descriptor `n` (07 R183). -/
def Image.rdescAt (i : Image) (n : Nat) : Nat := i.rdescBase + 32 * n

/-- The rules of R177 that a world operation breaks as it starts; `ring` is its ring record. -/
def State.worldInvalid (s : State) (c : Ch) (i : Image) (v ring : Nat) : Option Nat :=
  let op := woOp v
  let usesRing := op == 1 || op == 3 || op == 4
  let need := if op = 1 then woGroups v * 256 else if op = 3 then woGroups v * woCount v * 256 else 0
  if bits v 255 128 != 0 || bits v 42 4 != 0 || op = 0 || 4 < op || woGroups v = 0 || woFirst v % 64 != 0 then some 20
  else if !i.hasWorld then some 21
  else if i.slots < woFirst v + 64 * woGroups v then some 22
  else if usesRing && decide (i.rings ≤ woRing v) then some 23
  else if usesRing && !s.ringOk c ring then some 24
  else if (op == 1 || op == 3) &&
      !decide (rgFirst ring ≤ woFirst v ∧ woFirst v + 64 * woGroups v ≤ rgFirst ring + 64 * rgGroups ring) then some 25
  else if op == 3 && (decide (rgWords ring < woFirstWord v + woCount v) || decide (woFirstWord v < 2) || woCount v == 0) then
    some 26
  else if tenderBytes < woTaddr v + need then some 27
  else none

/-- A world operation at the head of the shunter's queue (07 R176, R177): its record, and the ring record for an operation that names
one, are read and checked; `body` carries it out from its record and ring record. -/
def State.worldCar (s : State) (c : Ch) (k op : Nat) (body : QCar → Image → Nat → Nat → State → State) : State :=
  s.issueFrom c k 5 (fun e t =>
    let x := t.ch c
    match shuntInvalid e with
    | some row => some (t.carInvalid c k e.car e.pos row)
    | none =>
      if Car.func e.car ≠ 1 then none
      else
        let a := tenderAt k (Car.get e.car 70 55 * 32)
        let v := x.mem.nat a 32
        match x.run.image with
        | none => none
        | some i =>
          let usesRing := i.hasWorld && woOp v != 2 && decide (woRing v < i.rings)
          let ra := i.ringAt (woRing v)
          match x.mem.poisonAmong ((a, 32) :: (if usesRing then [(ra, 32)] else [])) with
          | some p => some (t.consumePoison c p (0x0200 + k))
          | none =>
            let ring := if usesRing then x.mem.nat ra 32 else 0
            match (if !spanOk e x k none then some 10 else t.worldInvalid c i v ring) with
            | some row => some (t.carInvalid c k e.car e.pos row)
            | none => if woOp v = op then some (body e i v ring (t.popCar c k 5)) else none)

/-- Complete a world operation (07 R176). -/
def State.worldDone (s : State) (c : Ch) (k : Nat) (e : QCar) : State :=
  let nid := s.newId c
  (nid.2.pendPost c k e.car nid.1).issued c

/-! ### END (07 R178) -/

/-- END on one slot: the new record, the END and TERM masks, and what is counted (07 Table 07-4). -/
def endSlot (v : Nat) (done : W32) : Nat × W32 × W32 × (Memory → Memory) :=
  let terminal := isNan32 done || !isZero32 done
  let nan := fun (m : Memory) => if isNan32 done then { m with doneNan := m.doneNan + 1 } else m
  let stepped := withBits v 191 160 (slStep v + 1)
  if !slActive v then (v, 0, 0, id)
  else if slReset v then
    (v, one32, if slTermLast v then one32 else 0, fun m => { m with lateEnds := m.lateEnds + 1 })
  else if terminal then
    (withBits stepped 102 101 3, one32, one32, fun m => nan { m with epTerminal := m.epTerminal + 1 })
  else if slLimit v ≠ 0 ∧ slLimit v ≤ slStep v + 1 then
    (withBits stepped 102 101 2, one32, 0, fun m => { m with epTruncated := m.epTruncated + 1 })
  else (stepped, 0, 0, id)

/-- The slots an operation covers, in increasing number (07 R176). -/
def woSlots (v : Nat) : List Nat := (List.range (64 * woGroups v)).map (fun j => woFirst v + j)

/-- END on the slots of an operation; it stops at a slot record in a poisoned granule. -/
def State.endSlots (s : State) (c : Ch) (k : Nat) (i : Image) (v ring : Nat) : List Nat → State
  | [] => s
  | n :: ns =>
    let x := s.ch c
    match x.mem.poisonAmong [(i.slotAt n, 32)] with
    | some a => s.consumePoison c a (0x0200 + k)
    | none =>
      let j := n - woFirst v
      let done := BitVec.ofNat 32 (x.mem.nat (tenderAt k (woTaddr v + 4 * j)) 4)
      let r := endSlot (x.mem.nat (i.slotAt n) 32) done
      let g := (n - rgFirst ring) / 64
      let l := n % 64
      let s := s.onMem c (fun m =>
        let m := r.2.2.2 m
        let m := if slActive (m.nat (i.slotAt n) 32) then m.write (i.slotAt n) (bytesOfNat 32 r.1) else m
        let m := m.write (ringAddr ring 0 g (rgHead ring) l) (bytesOfNat 4 r.2.1.toNat)
        m.write (ringAddr ring 1 g (rgHead ring) l) (bytesOfNat 4 r.2.2.1.toNat))
      s.endSlots c k i v ring ns

/-- END (07 R178). -/
def execWorldEnd (w : At) (s : State) : Host.Outcome State Fault Refusal :=
  let s := s.meet w
  let c := w.ch
  let k := w.cl.val
  .next (s.worldCar c k 1 (fun e i v ring t =>
    match (t.ch c).mem.poisonAmong [(tenderAt k (woTaddr v), woGroups v * 256)] with
    | some a => t.consumePoison c a (0x0200 + k)
    | none =>
      let u := t.endSlots c k i v ring (woSlots v)
      if (u.ch c).ctl.st = .running then u.worldDone c k e else u))

/-! ### RESET (07 R179, R184) -/

/-- Does a range lie wholly in channel memory (07 R174)? -/
def inOwn (a n : Nat) : Bool :=
  inDataMemory a n || decide (tenderBase ≤ a ∧ a + n ≤ tenderBase + 384 * tenderBytes)

/-- What stops a RESET at a slot. -/
inductive ResetStop where
  | invalid (row : Nat)
  | poison (a : Nat)
  | unmapped (a : Nat)
  deriving DecidableEq, Repr

/-- The checks of a slot that a RESET selects (07 R177): its descriptor, its lengths, its parameters, and what they read. -/
def State.resetCheck (s : State) (c : Ch) (i : Image) (n : Nat) : Option ResetStop :=
  let m := (s.ch c).mem
  let v := m.nat (i.slotAt n) 32
  if i.rdescs ≤ slRdesc v then some (.invalid 28)
  else
    let da := i.rdescAt (slRdesc v)
    match m.poisonAmong [(da, 32)] with
    | some a => some (.poison a)
    | none =>
      let d := m.nat da 32
      if slLen v ≠ rdLen d ∨ 24 * regionBytes < slAddr v + slLen v ∨ inOwn (rdTemplate d) (rdLen d) = false ∨
          inOwn (rdParamAddr d) (16 * rdParams d) = false then some (.invalid 29)
      else
        match s.firstBad c (rdTemplate d) (rdLen d) false, s.firstBad c (rdParamAddr d) (16 * rdParams d) false with
        | some a, _ => some (.unmapped a)
        | none, some a => some (.unmapped a)
        | none, none =>
          match m.poisonAmong [(rdParamAddr d, 16 * rdParams d), (rdTemplate d, rdLen d)] with
          | some a => some (.poison a)
          | none =>
            if !(List.range (rdParams d)).all (fun j => paramOk (m.nat (rdParamAddr d + 16 * j) 16) (rdLen d)) then
              some (.invalid 30)
            else (s.firstBad c (slAddr v) (slLen v) true).map .unmapped

/-- Reset one slot: its state is the template with the parameters drawn, EPISODE rises, STEP and RESET are cleared (07 R179, R184). -/
def State.resetSlot (s : State) (c : Ch) (i : Image) (n : Nat) : State :=
  let x := s.ch c
  let m := x.mem
  let v := m.nat (i.slotAt n) 32
  let d := m.nat (i.rdescAt (slRdesc v)) 32
  let ep := (slEpisode v + 1) % 2 ^ 32
  let draw := x.draw x.run.leg
  let image := (List.range (rdParams d)).foldl (fun bs j =>
    let p := m.nat (rdParamAddr d + 16 * j) 16
    patch bs (paOff p) (bytesOfNat 4 (paramWord p (draw.at (slStream v) (paramPos ep (slRdesc v) j))).toNat))
    (m.read (rdTemplate d) (rdLen d))
  let v' := withBits (withBits (withBits v 223 192 ep) 191 160 0) 102 102 0
  s.onMem c (fun m =>
    { (m.write (slAddr v) (image.take (rdLen d))).write (i.slotAt n) (bytesOfNat 32 v') with worldResets := m.worldResets + 1 })

/-- RESET on the slots of an operation, up to the first that stops it. -/
def State.resetSlots (s : State) (c : Ch) (i : Image) (v : Nat) : List Nat → State × Option ResetStop
  | [] => (s, none)
  | n :: ns =>
    let m := (s.ch c).mem
    match m.poisonAmong [(i.slotAt n, 32)] with
    | some a => (s, some (.poison a))
    | none =>
      let r := m.nat (i.slotAt n) 32
      if slActive r && (slReset r || woForce v) then
        match s.resetCheck c i n with
        | some stop => (s, some stop)
        | none => (s.resetSlot c i n).resetSlots c i v ns
      else s.resetSlots c i v ns

/-- WORLD_RESET (07 R179). -/
def execWorldReset (w : At) (s : State) : Host.Outcome State Fault Refusal :=
  let s := s.meet w
  let c := w.ch
  let k := w.cl.val
  .next (s.worldCar c k 2 (fun e i v _ t =>
    let r := t.resetSlots c i v (woSlots v)
    match r.2 with
    | none => r.1.worldDone c k e
    | some (.poison a) => r.1.consumePoison c a (0x0200 + k)
    | some (.invalid row) => r.1.carInvalid c k e.car e.pos row
    | some (.unmapped a) =>
      let par := paramBytes [(8, a), (2, k), (4, e.pos), (2, 0)]
      let u := r.1.logAs c (0x0200 + k) (0x0200 + k) 0x0801 par
      ((u.onCluster c k (fun cl => { cl with deadCars := true })).touch c).stopFor c 0x10a (0x0200 + k) par))

/-! ### RECORD and ADVANCE (07 R180, R181) -/

/-- RECORD (07 R180): words are copied unchanged, each group's 64 lanes together. -/
def execRecord (w : At) (s : State) : Host.Outcome State Fault Refusal :=
  let s := s.meet w
  let c := w.ch
  let k := w.cl.val
  .next (s.worldCar c k 3 (fun e _ v ring t =>
    let from0 := tenderAt k (woTaddr v)
    match (t.ch c).mem.poisonAmong [(from0, woGroups v * woCount v * 256)] with
    | some a => t.consumePoison c a (0x0200 + k)
    | none =>
      let g0 := (woFirst v - rgFirst ring) / 64
      let u := t.onMem c (fun m => (List.range (woGroups v * woCount v)).foldl (fun m j =>
        m.write (ringAddr ring (woFirstWord v + j % woCount v) (g0 + j / woCount v) (rgHead ring) 0)
          (m.read (from0 + 256 * j) 256)) m)
      u.worldDone c k e))

/-- The ring record after ADVANCE (07 R181). -/
def advanced (v : Nat) : Nat :=
  let head := (rgHead v + 1) % rgDepth v
  let v := withBits (withBits v 95 64 head) 63 32 (min (rgFill v + 1) (rgDepth v))
  if head = 0 then withBits v 31 0 (rgWraps v + 1) else v

/-- ADVANCE (07 R181). -/
def execAdvance (w : At) (s : State) : Host.Outcome State Fault Refusal :=
  let s := s.meet w
  let c := w.ch
  let k := w.cl.val
  .next (s.worldCar c k 4 (fun e i v ring t =>
    (t.store c (i.ringAt (woRing v)) (bytesOfNat 32 (advanced ring))).worldDone c k e))

end Sys2Proof.Machine
end

