-- ==== Sys2Proof/Machine/Doorbell.lean ====
section
/-! DEFINITION. The doorbells of the junction hub: mail, atomics and fences that a MOVE starts (09 R231, R232, R238, R240). -/

namespace Sys2Proof.Machine

/-! ### Fences (09 R238) -/

/-- The epochs of outstanding WRITEs, atomics and messages; the yard's mail has none (10 R260 names the rules that govern it; log entry
38). -/
def Hub.openEpochs (h : Hub) : List Nat :=
  (h.ops.filter (fun o => o.op != 1)).map (·.epoch) ++ (h.msgsOut.filter (fun m => m.yard.isNone)).map (·.epoch)

/-- Complete the fences whose epochs have nothing outstanding. -/
def Hub.closeFences (h : Hub) : Hub :=
  { h with fences := h.fences.filter (fun f => h.openEpochs.any (fun e => decide (e ≤ f.2))) }

/-- Must a fence wait, because it would open a 256th epoch? -/
def Hub.fenceWaits (h : Hub) : Bool := h.openEpochs.any (fun e => decide (256 ≤ h.epoch + 2 - e))

/-! ### Sending mail (09 R240, R245) -/

/-- Fragments of a message. -/
def MsgOut.frags (m : MsgOut) : Nat := ceilDiv m.head.length 256

/-- Bytes of the fragments from `f` on, `n` of them. -/
def MsgOut.fragBytes (m : MsgOut) (f n : Nat) : Nat := min (256 * n) (m.head.length - 256 * f)

/-- The poisoned fragments among `n` from `f` on, counted from `f`. -/
def MsgOut.badFrags (m : MsgOut) (mem : Memory) (f n : Nat) : List Nat :=
  if mem.marks.isEmpty then []
  else (List.range n).filter (fun i => (mem.poisonIn (m.src + 256 * (f + i)) (m.fragBytes (f + i) 1)).isSome)

/-- The poisoned granule that sending some fragments consumes: any under Ethernet mode, one of a partial fragment in junction mode
(16 Table 16-2). -/
def MsgOut.eats (m : MsgOut) (mem : Memory) (eth : Bool) (f n : Nat) : Option Nat :=
  if eth then mem.poisonIn (m.src + 256 * f) (m.fragBytes f n)
  else if (f + n = m.frags) && m.head.length % 256 != 0 then
    mem.poisonIn (m.src + 256 * (m.frags - 1)) (m.head.length % 256)
  else none

/-- Change a message being sent. -/
def Hub.onMsg (h : Hub) (id : Nat) (f : MsgOut → MsgOut) : Hub :=
  { h with msgsOut := h.msgsOut.map (fun m => if m.id = id then f m else m) }

/-- A train of fragments of a message goes out on a port. -/
def State.sendFragTrain (s : State) (c : Ch) (p : Pt) (m : MsgOut) (f n : Nat) (data : List Byte) (poisoned : List Nat) : State :=
  (s.onHub c (fun h => h.onMsg m.id (fun m =>
    { m with sent := f + n, ways := if m.ways.contains p.val then m.ways else p.val :: m.ways }))).sendMailOn c p 2 0x41 m.head.dstRank
    (fun off => MailHead.bytes { m.head with fragFirst := f + off / 256 }) 0 data poisoned

/-- Send one train of at most 64 fragments of a message. -/
def State.sendFrags (s : State) (c : Ch) (p : Pt) (m : MsgOut) (f n : Nat) : State :=
  let x := s.ch c
  match m.yard with
  | some bs => s.sendFragTrain c p m f n ((bs.drop (256 * f)).take (m.fragBytes f n)) []
  | none =>
    match m.eats x.mem (x.hub.ports[p].mode != 0) f n with
    | some a => s.consumePoison c (a / 256 * 256) (0x0410 + p.val)
    | none =>
      let data := x.mem.read (m.src + 256 * f) (m.fragBytes f n)
      (s.depotPass c (m.src + 256 * f) data.length false).sendFragTrain c p m f n data (m.badFrags x.mem f n)

/-- Send what a message may send: at most 4 MiB beyond what has been acknowledged (09 R240); a rank without a route makes no progress
(09 R241). -/
def State.mailPump (s : State) (c : Ch) (id : Nat) : State :=
  match (s.ch c).hub.msgsOut.find? (fun m => m.id == id) with
  | none => s
  | some m =>
    match (s.ch c).hub.routePort m.head.dstRank with
    | none => s
    | some p =>
      let hi := min m.frags (m.acked + 16384)
      (List.range (ceilDiv (hi - m.sent) 64)).foldl (fun t i =>
        let f := m.sent + 64 * i
        t.sendFrags c p m f (min 64 (hi - f))) s

/-! ### Doorbell writes -/

/-- What a doorbell makes of its descriptor. -/
inductive Ring where
  /-- It must wait (09 R238, R240). -/
  | wait
  /-- The descriptor is invalid (09 R231). -/
  | bad
  /-- An address it names may not be accessed (08 R217). -/
  | unmapped (a : Nat) (write : Bool)
  /-- Done, giving the next state. -/
  | done (t : State)

/-- A doorbell write of an active move: its 32 bytes are fetched, then `body` acts on them under the car's number. -/
def State.ringDoorbell (s : State) (c : Ch) (k : Nat) (m : Move) (body : Nat → List Byte → State → Ring) : Option State :=
  match s.moveFault c m with
  | some f => some (s.mapFault c k m f)
  | none =>
    let need := s.moveNeeds c m
    if !need.isEmpty then
      if need.all (fun p => (s.ch c).askedFor m.id p) then none else some ((s.fetchAll c k m).touch c)
    else
      match s.srcPoisonIn c m.staged (dSrc m.desc) 32 with
      | some a => some (s.consumePoison c (a / 256 * 256) (0x0200 + k))
      | none =>
        match body m.id (s.srcBytes c m.staged (dSrc m.desc) 32) s with
        | .wait => none
        | .bad =>
          some ((s.onCluster c k (fun cl => { cl with moves := cl.moves.filter (fun n => n.id != m.id) })).carInvalid c k m.q.car
            m.q.pos 11)
        | .unmapped a wr => some (s.mapFault c k m { addr := a, write := wr, before := 0, part := 0 })
        | .done t => some ((t.retire c k m).touch c)

/-- SEND, ATOMIC or FENCE: an active move that writes that doorbell and whose destination wait is satisfied, or the car at the head of
the shunter's queue with both waits satisfied. -/
def State.doorbellCar (s : State) (c : Ch) (k kind : Nat) (body : Nat → List Byte → State → Ring) : State :=
  let x := s.ch c
  let rings := fun (m : Move) => doorbellOf (dDst m.desc) == some kind && x.waitMet k m.q.dst
  match (if x.ctl.st = .running && (x.sup.region (regionOf k)).st == .on then (x.run.cluster k).moves.find? rings else none) with
  | some m => ((s.ringDoorbell c k m body).map (fun t => t.settle c)).getD s
  | none =>
    s.moveCar c k (fun e d => doorbellOf (dDst d) == some kind && x.waitMet k e.dst) (fun id _ _ t =>
      match t.move? c k id with
      | some m => t.ringDoorbell c k m body
      | none => none)

/-- SEND (09 R240, Table 09-9): the message's source must be channel memory that the car may read. -/
def execSend (w : At) (s : State) : Host.Outcome State Fault Refusal :=
  let s := s.meet w
  let c := w.ch
  .next (s.doorbellCar c w.cl 0 (fun id bs t =>
    let d := natOfBytes bs
    let src := bits d 255 208
    let len := bits d 207 176
    let h : MailHead :=
      { dstRank := bits d 111 96, srcRank := (t.ch c).rank, queue := bits d 95 90, hops := 8, dstLeg := bits d 89 84
        dstIter := bits d 83 76, msg := bits d 175 144, length := len, fragFirst := 0, tag := bits d 143 112 }
    if bits d 75 0 != 0 || src % 32 != 0 || len % 32 != 0 || len < 32 || 2 ^ 26 < len then .bad
    else
      match (if ownMemory src && ownMemory (src + len - 1) then t.firstBad c src len false else some src) with
      | some a => .unmapped a false
      | none =>
        if 64 ≤ ((t.ch c).hub.msgsOut.filter (fun m => m.yard.isNone)).length then .wait
        else
          let m : MsgOut :=
            { id := id, src := src, head := h, epoch := (t.ch c).hub.epoch, acked := 0, sent := 0, progressAt := t.count
              status := 0, statusAt := t.count, triedAt := t.count, ways := [], yard := none }
          .done ((t.onHub c (fun h => { h with msgsOut := h.msgsOut ++ [m] })).mailPump c id)))

/-- Is an operation code an atomic of Table 09-5? -/
def isAtomic (op : Nat) : Bool := decide (0x10 ≤ op ∧ op ≤ 0x16) || decide (0x18 ≤ op ∧ op ≤ 0x1e)

/-- Bytes of the word an atomic acts on (09 R233). -/
def atomicSize (op : Nat) : Nat := if op < 0x18 then 8 else 4

/-- The rules of an atomic descriptor (09 Table 09-7). -/
def atomicDescOk (d : Nat) : Bool :=
  let op := bits d 31 24
  isAtomic op && bits d 255 208 % atomicSize op == 0 && bits d 207 160 % 32 == 0 &&
    (bits d 95 32 == 0 || op == 0x16 || op == 0x1e) && ((bits d 23 8 == 0) == (bits d 7 0 == 0)) &&
    (match zoneOf (bits d 255 208) with | .partner _ => true | _ => false) && ownMemory (bits d 207 160)

/-- ATOMIC (09 R231, Table 09-7): the request goes through the partner window; the page must permit both read and write, since the word
is read and written. -/
def execAtomic (w : At) (s : State) : Host.Outcome State Fault Refusal :=
  let s := s.meet w
  let c := w.ch
  .next (s.doorbellCar c w.cl 1 (fun id bs t =>
    let d := natOfBytes bs
    if !atomicDescOk d then .bad
    else
      let target := bits d 255 208
      let op := bits d 31 24
      let dst := bits d 207 160
      if !t.carMay c target false then .unmapped target false
      else if !t.carMay c target true then .unmapped target true
      else if !t.carMay c dst true then .unmapped dst true
      else
        match zoneOf target with
        | .partner p =>
          .done (t.newOp c p { id := id, port := 0, seq := 0, epoch := 0, op := op, addr := t.target c target
                               length := atomicSize op, data := [], poisoned := [], a := bits d 159 96, b := bits d 95 32
                               round := bits d 23 8, members := bits d 7 0, dst := dst, via := none, noPathAt := none })
        | _ => .bad))

/-- FENCE (09 R238): the current epoch closes and the next opens; the car's post waits for the fence. -/
def execFence (w : At) (s : State) : Host.Outcome State Fault Refusal :=
  let s := s.meet w
  let c := w.ch
  .next (s.doorbellCar c w.cl 2 (fun id bs t =>
    if natOfBytes bs ≠ 1 then .bad
    else if (t.ch c).hub.fenceWaits then .wait
    else .done (t.onHub c (fun h => Hub.closeFences { h with fences := h.fences ++ [(id, h.epoch)], epoch := h.epoch + 1 }))))

end Sys2Proof.Machine
end

