-- ==== Sys2Proof/Machine/Junction.lean ====
section
/-! DEFINITION. The junction hub: training, HELLO, link retry and credits, operations from partners, combining, and their answers at the
requester (09 R224 to R239). -/

namespace Sys2Proof.Machine

/-! ### Receiving (09 R228, R230) -/

/-- Does a channel serve what arrives on its ports and its slice (16 Table 16-4, 18 R405)? -/
def Chan.serves (x : Chan) : Bool := x.ctl.st != .off && x.ctl.st != .boot

/-- A train of a lane has been accepted in order: the wagons' LSEQs pass and their credits are freed. -/
def Port.accept (q : Port) (lane a : Nat) (data : List Byte) : Port :=
  if q.mode = 0 then
    let ws := dataWagons lane 0 a data []
    { q with rxLseq := (q.rxLseq + 1 + ws.length) % 1024, nakSent := false, failRun := 0
             freed := modAt q.freed lane (· + 2 + (ws.map Wagon.cost).sum) }
  else q

/-- May a train of a lane arrive on a port: one that is up, in Ethernet mode not of the request lane (09 R223, R245)? -/
def Port.takes (q : Port) (lane : Nat) : Bool := q.linkState == 2 && (q.mode == 0 || lane != 0)

/-- A train arrives at a port that may take it: `body` acts on it. -/
def State.onTrain (s : State) (c : Ch) (p : Pt) (lane a : Nat) (data : List Byte) (body : State → State) : State :=
  if (s.ch c).serves && (s.ch c).hub.ports[p].takes lane then body (s.onPort c p (fun q => q.accept lane a data)) else s

/-! ### HELLO (09 R224, R225, 16 R367) -/

/-- Send HELLO on a port, keeping with its TX_COUNT the local count at which it goes (14 R343). -/
def State.sendHello (s : State) (c : Ch) (p : Pt) : State :=
  let s := s.alignOwn
  let x := s.ch c
  let q := x.hub.ports[p]
  let h : Hello :=
    { rank := x.rank, port := p.val, windowOpen := s.windowOpen c p, align := s.m.alignState, hops := s.hopsNow
      resetGen := x.hub.resetGen, identity := natOfBytes (keyId Config.identityKey)
      echoDelta := match q.hello with | some _ => (s.count - q.helloAt) % 2 ^ 32 | none => 0xffffffff
      echoTx := match q.hello with | some g => g.txCount % 2 ^ 32 | none => 0
      txCount := s.txCount }
  (s.onPort c p (fun q =>
    { q with helloSent := s.count, hellos := lastN 4 (q.hellos ++ [(s.txCount % 2 ^ 32, s.count)]) })).sendControl c p 3 0 0 0 (Hello.bytes h)

/-- The operations that go to a rank. -/
def Hub.opsTo (h : Hub) (rank : Nat) : List PartnerOp := h.ops.filter (fun o => h.ports[ptOf o.port].rank? == some rank)

/-- The partner of a rank has been reset: operations to it end with PARTNER_LOST, and the sequences with it begin again (16 R367; log
entry 32). -/
def State.partnerReset (s : State) (c : Ch) (p : Pt) (rank : Nat) : State :=
  let lost := (s.ch c).hub.opsTo rank
  let s := s.onHub c (fun h =>
    let g : Hub := { h with
      ops := h.ops.filter (fun o => h.ports[ptOf o.port].rank? != some rank)
      peers := h.peers.filter (fun e => e.rank != rank)
      ports := h.ports.map (fun q => if q.rank? = some rank then { q with seq := 0 } else q) }
    g.closeFences)
  match lost with
  | [] => s
  | o :: _ =>
    (s.log c (0x0410 + p.val) 0x0903 [(2, rank), (4, o.seq)]).holdNow c 0x10d (0x0410 + p.val) (paramBytes [(2, rank), (4, o.seq)])

/-- A HELLO has been received on a port. -/
def State.gotHello (s : State) (c : Ch) (p : Pt) (g : Hello) : State :=
  let old := (s.ch c).hub.ports[p].hello
  let s := match old with
    | some o => if o.resetGen ≠ g.resetGen then s.partnerReset c p o.rank else s
    | none => s
  (s.onPort c p (fun q =>
    { q with hello := some g, helloAt := s.count, partner := g.rank % 65536 + g.port % 8 * 65536 + 2 ^ 31 })).timeAlign
    (c.val * 5 + p.val)

/-- HELLO (09 R225). -/
def execHello (c : Ch) (p : Pt) (hello : Hello) (s : State) : Host.Outcome State Fault Refusal :=
  .next (if (s.ch c).serves && (s.ch c).hub.ports[p].upJ then (s.gotHello c p hello).settle c else s)

/-- HELLO_TRANSMIT (09 R225): once every 2^16 counts. -/
def execHelloTransmit (c : Ch) (p : Pt) (s : State) : Host.Outcome State Fault Refusal :=
  .next (
    let q := (s.ch c).hub.ports[p]
    if (s.ch c).serves && q.upJ && s.after q.helloSent (2 ^ 16) then s.sendHello c p else s)

/-- Send again what found no path before. -/
def State.resume (s : State) (c : Ch) : State :=
  let h := (s.ch c).hub
  let s := (h.ops.filter (fun o => o.noPathAt.isSome)).foldl (fun t o => t.sendOp c o) s
  h.msgsOut.foldl (fun t m => t.mailPump c m.id) s

/-- Units of credit in a mail pool of 64 KiB × 2^v (09 R230, Table 09-11). -/
def Port.mailUnits (q : Port) : Nat := 2048 * 2 ^ q.mailPool

/-- LINK_UP (09 R224): the port is up with the credits of an empty receiver; of the mail credits each end counts on the smallest pool, and
returns to the other what its own pool holds beyond that (log entry 33). In Ethernet mode the port asks after its own address (R245; log
entry 66). The HELLO it sends says that none has been received since the port came up (09 Table 09-14). -/
def execLinkUp (c : Ch) (p : Pt) (hello : Hello) (s : State) : Host.Outcome State Fault Refusal :=
  .next (
    let q := (s.ch c).hub.ports[p]
    if (s.ch c).serves && q.linkState == 1 then
      let s := s.onPort c p (fun q =>
        { q with linkState := 2, trainFails := 0, rxLseq := 0, txLseq := 0, unacked := [], nakSent := false, failRun := 0
                 credit := [16384, 16384, 2048], freed := [0, 0, q.mailUnits - 2048] })
      let s := if q.mode = 0 then
          (((s.onPort c p (fun v => { v with hello := none })).sendHello c p).onPort c p (fun v =>
            { v with hello := q.hello })).gotHello c p hello
        else s.solicit c p (fitBytes 16 q.ipv6)
      ((s.resume c).settle c)
    else s)

/-- PORT_FAILED (09 R224): the third training in a row has failed. -/
def execPortFailed (c : Ch) (p : Pt) (s : State) : Host.Outcome State Fault Refusal :=
  .next (if (s.ch c).serves && (s.ch c).hub.ports[p].linkState == 1 then
      (s.onPort c p (fun q => { q with linkState := 3, trainFails := 3 })).log c (0x0410 + p.val) 0x0902 [(2, p.val)]
    else s)

/-! ### Link retry, credits and loss (09 R228 to R230) -/

/-- Send a CTRL wagon with the credits freed, of each lane at most what its 12-bit field holds, acknowledging every wagon before LSEQ
`next`. -/
def State.sendCtrl (s : State) (c : Ch) (p : Pt) (next : Nat) (nak : Bool) : State :=
  let q := (s.ch c).hub.ports[p]
  let n := fun i => min 4095 (q.freed.getD i 0)
  let train := ((next + 1023) % 1024) * 4 + if nak then 2 else 0
  (s.onPort c p (fun q => { q with freed := [q.freed.getD 0 0 - n 0, q.freed.getD 1 0 - n 1, q.freed.getD 2 0 - n 2] })).sendControl
    c p 2 train (n 2 * 64) (BitVec.ofNat 32 (n 0 * 2 ^ 20 + n 1 * 2 ^ 8)) []

/-- CREDIT_RETURN (09 R230). -/
def execCreditReturn (c : Ch) (p : Pt) (s : State) : Host.Outcome State Fault Refusal :=
  .next (
    let q := (s.ch c).hub.ports[p]
    if (s.ch c).serves && q.upJ && q.freed.any (· != 0) then s.sendCtrl c p q.rxLseq false else s)

/-- Has an unacknowledged wagon been acknowledged by a cumulative ACKSEQ? -/
def ackedBy (ackSeq lseq : Nat) : Bool := decide ((ackSeq + 1024 - lseq) % 1024 < 512)

/-- CTRL (09 R228, R230): acknowledgement, credits, and with NAK set the resending of everything after ACKSEQ. -/
def execCtrl (c : Ch) (p : Pt) (k : Ctrl) (s : State) : Host.Outcome State Fault Refusal :=
  .next (
    let q := (s.ch c).hub.ports[p]
    if (s.ch c).serves && q.upJ then
      let left := q.unacked.filter (fun w => !ackedBy k.ackSeq w.lseq)
      let s := s.onPort c p (fun q =>
        { q with unacked := left
                 credit := [q.credit.getD 0 0 + k.reqCredit, q.credit.getD 1 0 + k.respCredit, q.credit.getD 2 0 + k.mailCredit]
                 retries := if k.nak then q.retries + left.length else q.retries })
      (if k.nak then left.foldl (fun t w => t.send (.wagon c p w)) s else s).pump c p
    else s)

/-- FAILED_WAGON (09 R228): the first wagon that fails, and each failed resend of it, is answered with a NAK; what follows it is
discarded. Every wagon before the first that fails was accepted in order, its train whole or not. -/
def execFailedWagon (c : Ch) (p : Pt) (lseq : Nat) (s : State) : Host.Outcome State Fault Refusal :=
  .next (
    let q := (s.ch c).hub.ports[p]
    if (s.ch c).serves && q.upJ && (!q.nakSent || lseq % 1024 == q.failLseq) then
      let run := if q.nakSent && lseq % 1024 == q.failLseq then q.failRun + 1 else 1
      (s.onPort c p (fun q => { q with nakSent := true, failLseq := lseq % 1024, failRun := run })).sendCtrl c p (lseq % 1024) true
    else s)

/-- The operations last sent on a port, and the messages of which something not acknowledged went by it (09 R239, R244). -/
def Hub.onWay (h : Hub) (p : Pt) : List PartnerOp × List MsgOut :=
  (h.ops.filter (fun o => o.via == some p.val), h.msgsOut.filter (fun m => m.ways.contains p.val))

/-- A port without a link: nothing in flight, no credits. -/
def Port.dropped (q : Port) (link : Nat) : Port :=
  { q with linkState := link, unacked := [], waiting := [], nakSent := false, failRun := 0, credit := [0, 0, 0], freed := [0, 0, 0]
           solicited := [] }

/-- Send operations and messages again by another path (09 R229, R239, R244). -/
def State.sendAgain (s : State) (c : Ch) (w : List PartnerOp × List MsgOut) : State :=
  let s := w.1.foldl (fun t o => t.sendOp c o) s
  w.2.foldl (fun t m =>
    (t.onHub c (fun h =>
      { h.onMsg m.id (fun m => { m with sent := m.acked, ways := [] }) with mailResends := h.mailResends + 1 })).mailPump c m.id) s

/-- PORT_DOWN (09 R229, R239, R244): after 8 failures of one LSEQ, or loss of lock; the entry's value for loss of lock is a free value
(log entry 34). -/
def execPortDown (c : Ch) (p : Pt) (lockLost : Bool) (s : State) : Host.Outcome State Fault Refusal :=
  .next (
    let x := s.ch c
    let q := x.hub.ports[p]
    if x.serves && q.linkState == 2 && (lockLost || decide (8 ≤ q.failRun)) then
      let free := s.freeNo
      let s := s.onPort c p (fun q =>
        { q.dropped (if q.linkEnable then 1 else 0) with linkDowns := (q.linkDowns + 1) % 2 ^ 32 })
      let s := if lockLost then { s with freeNo := free + 1 } else s
      let s := s.log c (0x0410 + p.val) 0x0901
        [(2, p.val), (2, if lockLost then (Config.freeWord free).toNat % 65536 else q.failLseq)]
      s.sendAgain c (x.hub.onWay p)
    else s)

/-- LINK_ENABLE written (09 R224): 1 trains a port that is not up, a failed one too; 0 takes the link down. -/
def State.setLinkEnable (s : State) (c : Ch) (p : Pt) (on : Bool) : State :=
  let x := s.ch c
  let q := x.hub.ports[p]
  if on then s.onPort c p (fun q => { q with linkEnable := true, linkState := if q.linkState = 2 then 2 else 1, trainFails := 0 })
  else
    let t := s.onPort c p (fun q => { q.dropped 0 with linkEnable := false })
    if q.linkState = 2 then t.sendAgain c (x.hub.onWay p) else t

/-! ### Answers to partners (09 R234, R239) -/

/-- Where an operation came from: the port it arrived on, or a DETOUR. -/
inductive Came where
  | port (p : Pt)
  | detour
  deriving DecidableEq, Repr

/-- The writer code and SOURCE of an arrival: a DETOUR counts as the port that the requester's operation would have come on. -/
def Hub.arrivalPort (h : Hub) (rank port : Nat) (p : Pt) : Pt :=
  match ([0, 1, 2, 3, 4] : List Pt).find? (fun q => h.ports[q].partner == rank + port * 65536 + 2 ^ 31) with
  | some q => q
  | none => p

/-- Send a response: on the path the operation came by, or by route table to the requester's rank; with neither it is lost. Poisoned
data are consumed on their way into an Ethernet frame (16 Table 16-2). -/
def State.respond (s : State) (c : Ch) (came : Came) (op rank : Nat) (h : RespHead) (a : Nat) (data : List Byte)
    (poisoned : List Nat) : State :=
  let hub := (s.ch c).hub
  match (match came with | .port p => (if hub.ports[p].upJ then some p else none) | .detour => none) with
  | some p => s.sendTrain c p 1 op (RespHead.bytes h) a data poisoned
  | none =>
    match hub.routePort rank with
    | some p =>
      if hub.ports[p].mode ≠ 0 ∧ poisoned ≠ [] then s.consumePoison c ((a / 256 + poisoned.headD 0) * 256) (0x0410 + p.val)
      else s.sendMailOn c p 1 op rank (fun _ => RespHead.bytes h) a data poisoned
    | none => s

/-- The status of an access by a partner to `n` bytes at `a` (09 R234, Table 09-8): the window first, then the target. -/
def State.partnerStatus (s : State) (c : Ch) (p : Pt) (a n : Nat) (write : Bool) : Nat :=
  let x := s.ch c
  if !s.windowOpen c p then 5
  else if !((granules a n).all (fun g => ownMemory (max a (g * 256)))) then 1
  else if !x.inboundAll a n write then 2
  else 0

/-! ### Sequence and replay (09 R235, R236) -/

/-- What is kept for a pair (RANK, PORT). -/
def Hub.peer (h : Hub) (rank port : Nat) : Peer :=
  match h.peers.find? (fun e => e.rank == rank && e.port == port) with
  | some e => e
  | none => { rank := rank, port := port, next := 0, table := [], behind := [] }

/-- Store what is kept for a pair. -/
def Hub.setPeer (h : Hub) (e : Peer) : Hub :=
  { h with peers := e :: h.peers.filter (fun g => !(g.rank == e.rank && g.port == e.port)) }

/-- Where a sequence number stands: 0 next, 1 below, 2 above (modulo 2^32). -/
def seqCase (next seq : Nat) : Nat :=
  let d := (seq + 2 ^ 32 - next) % 2 ^ 32
  if d = 0 then 0 else if 2 ^ 31 ≤ d then 1 else 2

/-- Take an operation of a pair in sequence: `body` applies it, `again` answers a duplicate. -/
def State.inSequence (s : State) (c : Ch) (rank port seq : Nat) (body again : State → State) : State :=
  let e := (s.ch c).hub.peer rank port
  match seqCase e.next seq with
  | 0 => body (s.onHub c (fun h => h.setPeer { e with next := (e.next + 1) % 2 ^ 32 }))
  | 1 => again (s.onHub c (fun h => { h with duplicates := h.duplicates + 1 }))
  | _ => s

/-! ### Combining (09 R237) -/

/-- Where an operation came from, numbered: a port, or 5 and a port for a DETOUR that counts as that port. -/
def arrivalNo (p : Pt) : Came → Nat
  | .port _ => p.val
  | .detour => 5 + p.val

/-- The way in that a number stands for. -/
def cameOf (arrival : Nat) : Came := if 5 ≤ arrival then .detour else .port (ptOf arrival)

/-- An arrival within 64 FCLK cycles of the first of its kind combines with it when that came on another port. FCLK makes 0.4 n cycles a
count. The first arrival is kept until its time is over. -/
def State.combine (s : State) (c : Ch) (addr key arrival : Nat) : State :=
  let n := reefN (s.ch c).sup.step
  let live := (s.ch c).hub.recent.filter (fun e => decide ((s.count - e.since) * n ≤ 160))
  match live.find? (fun e => e.addr == addr && e.key == key) with
  | some e =>
    s.onHub c (fun h => { h with recent := live, combined := if e.arrival % 5 = arrival % 5 then h.combined else h.combined + 1 })
  | none => s.onHub c (fun h => { h with recent := { addr := addr, key := key, arrival := arrival, since := s.count } :: live })

/-! ### READ and WRITE (09 R234, R235) -/

/-- Serve a READ. -/
def State.serveRead (s : State) (c : Ch) (p : Pt) (came : Came) (h : ReqHead) : State :=
  let st := s.partnerStatus c p h.addr h.length false
  let s := if st = 0 then s.depotPass c h.addr h.length false else s
  let m := (s.ch c).mem
  let bad := m.poisonList h.addr h.length
  let head : RespHead := { seq := h.seq, status := st, epoch := h.epoch, rank := h.rank, result := 0, length := 0 }
  if st ≠ 0 then s.respond c came 0x81 h.rank head h.addr [] []
  else
    s.respond c came 0x81 h.rank { head with status := if bad.isEmpty then 0 else 3, length := h.length } h.addr
      (m.read h.addr h.length) bad

/-- Does a range touch a doorbell of the channel? -/
def touchesDoorbell (a n : Nat) : Bool := nearDoorbells a n

/-- Acknowledge a WRITE. -/
def State.ackWrite (s : State) (c : Ch) (came : Came) (h : ReqHead) (status : Nat) : State :=
  s.respond c came 0x82 h.rank { seq := h.seq, status := status, epoch := h.epoch, rank := h.rank, result := 0, length := 0 } 0 [] []

/-- Apply a WRITE: made visible, then acknowledged; a doorbell is no target and is counted (09 R231). -/
def State.applyWrite (s : State) (c : Ch) (p : Pt) (came : Came) (h : ReqHead) (data : List Byte) (poisoned : List Nat) : State :=
  let st := s.partnerStatus c p h.addr data.length true
  if st = 0 then
    (s.outsiderWrite c h.addr data (poisoned.map (h.addr / 256 + ·)) (0x0410 + p.val) (1 + p.val)).ackWrite c came h 0
  else
    (if touchesDoorbell h.addr data.length then
      s.onHub c (fun h => { h with doorbellRefused := h.doorbellRefused + 1 }) else s).ackWrite c came h st

/-! ### Atomics (09 R233, R236, R237) -/

/-- The value an atomic stores, if it stores one (09 R233). -/
def atomicNew (op old a b : Nat) : Option Nat :=
  let w := 8 * atomicSize op
  let a := a % 2 ^ w
  let b := b % 2 ^ w
  match op % 8 with
  | 0 => some ((old + a) % 2 ^ w)
  | 1 => some (min old a)
  | 2 => some (max old a)
  | 3 => some (if signedOf w old ≤ signedOf w a then old else a)
  | 4 => some (if signedOf w old ≤ signedOf w a then a else old)
  | 5 => some a
  | _ => if old = a then some b else none

/-- Answer an atomic and keep the answer in the replay table of its pair. -/
def State.answerAtomic (s : State) (c : Ch) (came : Came) (h : AtomHead) (status result : Nat) : State :=
  let s := s.onHub c (fun g =>
    let e := g.peer h.rank h.port
    g.setPeer { e with table := ((h.seq, (result, status)) :: e.table).take 256 })
  s.respond c came 0x83 h.rank
    { seq := h.seq, status := status, epoch := h.epoch, rank := h.rank, result := result, length := 0 } 0 [] []

/-- Apply an atomic. -/
def State.applyAtomic (s : State) (c : Ch) (p : Pt) (came : Came) (op : Nat) (h : AtomHead) : State :=
  let n := atomicSize op
  let st := s.partnerStatus c p h.addr n true
  if st ≠ 0 then s.answerAtomic c came h st 0
  else
    let s := s.depotPass c h.addr n false
    let old := (s.ch c).mem.nat h.addr n
    let s := match atomicNew op old h.a h.b with
      | some v => s.outsiderWrite c h.addr (bytesOfNat n v) [] (0x0410 + p.val) (1 + p.val)
      | none => s
    s.answerAtomic c came h 0 old

/-- The order of a round: RANK, PORT, SEQ of the head granules. -/
def Held.before (x y : Held) : Bool :=
  decide (x.head.rank < y.head.rank ∨ (x.head.rank = y.head.rank ∧
    (x.head.port < y.head.port ∨ (x.head.port = y.head.port ∧ x.head.seq ≤ y.head.seq))))

/-- Insert into a round in order. -/
def Held.insert (x : Held) : List Held → List Held
  | [] => [x]
  | y :: l => if x.before y then x :: y :: l else y :: Held.insert x l

/-- Apply a round's members in order and close it. -/
def State.applyRound (s : State) (c : Ch) (r : Round) : State :=
  let s := s.onHub c (fun h =>
    { h with rounds := h.rounds.filter (fun q => !(q.addr == r.addr && q.round == r.round))
             combined := h.combined + (r.held.length - 1) })
  (r.held.foldl (fun l x => Held.insert x l) []).foldl (fun t x =>
    t.applyAtomic c (ptOf x.arrival) (cameOf x.arrival) x.op x.head) s

/-- An atomic of a STRICT round is held until its members have arrived. -/
def State.holdAtomic (s : State) (c : Ch) (p : Pt) (came : Came) (op : Nat) (h : AtomHead) : State :=
  let x : Held := { op := op, head := h, arrival := arrivalNo p came }
  let r : Round := match (s.ch c).hub.rounds.find? (fun r => r.addr == h.addr && r.round == h.round) with
    | some r => { r with held := r.held ++ [x] }
    | none => { addr := h.addr, round := h.round, members := h.members, openedAt := s.count, held := [x] }
  if r.members ≤ r.held.length then s.applyRound c r
  else
    s.onHub c (fun g =>
      { g with rounds := g.rounds.filter (fun q => !(q.addr == h.addr && q.round == h.round)) ++ [r] })

/-! ### Operations in sequence (09 R235 to R237) -/

/-- RANK, PORT and SEQ of an operation's head. -/
def innerKey : Inner → Nat × Nat × Nat
  | .read h => (h.rank, h.port, h.seq)
  | .write h _ _ => (h.rank, h.port, h.seq)
  | .atomic _ h => (h.rank, h.port, h.seq)

/-- Is an operation an atomic of a round? -/
def Round.takes (r : Round) : Inner → Bool
  | .atomic _ h => h.addr == r.addr && h.round == r.round
  | _ => false

/-- Does an atomic of a pair stand held in a round? -/
def Round.holds (r : Round) (rank port : Nat) : Bool := r.held.any (fun x => x.head.rank == rank && x.head.port == port)

/-- Is an operation of a pair behind a held round: one of its atomics is held in a round that this operation is no member of? -/
def Hub.behindRound (h : Hub) (x : Inner) : Bool := h.rounds.any (fun r => r.holds (innerKey x).1 (innerKey x).2.1 && !r.takes x)

/-- Apply an operation that is next in its sequence. -/
def State.applyInner (s : State) (c : Ch) (arrival : Nat) (x : Inner) : State :=
  let p := ptOf arrival
  let came := cameOf arrival
  match x with
  | .read h => s.serveRead c p came h
  | .write h d bad => s.applyWrite c p came h d bad
  | .atomic op h => if (s.ch c).watch.detMode = 0 ∧ h.round ≠ 0 then s.holdAtomic c p came op h else s.applyAtomic c p came op h

/-- The first pair whose oldest waiting operation is behind no round any more. -/
def Hub.released (h : Hub) : Option (Peer × Behind) :=
  h.peers.findSome? (fun e => match e.behind with | x :: _ => if h.behindRound x.inner then none else some (e, x) | [] => none)

/-- Apply the operations that wait behind no round any more; the fuel is how many wait. -/
def State.releaseHeld (s : State) (c : Ch) : Nat → State
  | 0 => s
  | n + 1 =>
    match (s.ch c).hub.released with
    | none => s
    | some e =>
      ((s.onHub c (fun h => h.setPeer { e.1 with behind := e.1.behind.tail })).applyInner c e.2.arrival e.2.inner).releaseHeld c n

/-- The operations that wait behind held rounds. -/
def Hub.waitingOps (h : Hub) : Nat := (h.peers.map (fun e => e.behind.length)).sum

/-- Reads, and atomics in RELAXED mode, combine as they arrive (09 R237). -/
def State.combineInner (s : State) (c : Ch) (arrival : Nat) : Inner → State
  | .read h => s.combine c h.addr h.length arrival
  | .write _ _ _ => s
  | .atomic op h => if (s.ch c).watch.detMode = 0 then s else s.combine c h.addr (8192 + op) arrival

/-- Answer a duplicate: a READ is served again, a WRITE acknowledged again, an atomic answered from the replay table (09 R235, R236). One
that waits or is held is answered when it is applied. -/
def State.answerAgain (s : State) (c : Ch) (arrival : Nat) (x : Inner) : State :=
  let g := (s.ch c).hub
  let came := cameOf arrival
  let waits := (g.peer (innerKey x).1 (innerKey x).2.1).behind.any (fun y => innerKey y.inner == innerKey x) ||
    g.rounds.any (fun r => r.held.any (fun y => innerKey (.atomic y.op y.head) == innerKey x))
  if waits then s
  else
    match x with
    | .read h => s.serveRead c (ptOf arrival) came h
    | .write h d _ => s.ackWrite c came h (s.partnerStatus c (ptOf arrival) h.addr d.length true)
    | .atomic _ h =>
      let head : RespHead := { seq := h.seq, status := 4, epoch := h.epoch, rank := h.rank, result := 0, length := 0 }
      match (g.peer h.rank h.port).table.find? (fun e => e.1 == h.seq) with
      | some e => s.respond c came 0x83 h.rank { head with status := e.2.2, result := e.2.1 } 0 [] []
      | none => s.respond c came 0x83 h.rank head 0 [] []

/-- An operation that has arrived: in sequence it is applied, or waits behind a round that holds an atomic of its pair (09 R235, R237). -/
def State.takeOp (s : State) (c : Ch) (p : Pt) (came : Came) (x : Inner) : State :=
  let n := arrivalNo p came
  s.inSequence c (innerKey x).1 (innerKey x).2.1 (innerKey x).2.2
    (fun t =>
      let t := t.combineInner c n x
      let e := (t.ch c).hub.peer (innerKey x).1 (innerKey x).2.1
      if !e.behind.isEmpty || (t.ch c).hub.behindRound x then
        t.onHub c (fun h => h.setPeer { e with behind := e.behind ++ [{ inner := x, arrival := n }] })
      else (t.applyInner c n x).releaseHeld c (t.ch c).hub.waitingOps)
    (fun t => t.answerAgain c n x)

/-- READ (09 R235). -/
def execRead (c : Ch) (p : Pt) (h : ReadReq) (s : State) : Host.Outcome State Fault Refusal :=
  .next (s.onTrain c p 0 0 [] (fun t => (t.meetAll c h.faults).takeOp c p (.port p) (.read h.toReqHead)))

/-- WRITE (09 R235). -/
def execWrite (c : Ch) (p : Pt) (h : ReqHead) (data : List Byte) (poisoned : List Nat) (s : State) :
    Host.Outcome State Fault Refusal :=
  .next (s.onTrain c p 0 h.addr data (fun t => t.takeOp c p (.port p) (.write h data poisoned)))

/-- An atomic command. -/
def State.atomicTrain (s : State) (c : Ch) (p : Pt) (op : Nat) (h : AtomHead) : State :=
  s.onTrain c p 0 0 [] (fun t => t.takeOp c p (.port p) (.atomic op h))

/-- ADD, 64-bit (09 R233). -/
def execAtomicAdd64 (c : Ch) (p : Pt) (h : AtomHead) (s : State) : Host.Outcome State Fault Refusal :=
  .next (s.atomicTrain c p 0x10 h)
/-- UMIN, 64-bit (09 R233). -/
def execAtomicUmin64 (c : Ch) (p : Pt) (h : AtomHead) (s : State) : Host.Outcome State Fault Refusal :=
  .next (s.atomicTrain c p 0x11 h)
/-- UMAX, 64-bit (09 R233). -/
def execAtomicUmax64 (c : Ch) (p : Pt) (h : AtomHead) (s : State) : Host.Outcome State Fault Refusal :=
  .next (s.atomicTrain c p 0x12 h)
/-- SMIN, 64-bit (09 R233). -/
def execAtomicSmin64 (c : Ch) (p : Pt) (h : AtomHead) (s : State) : Host.Outcome State Fault Refusal :=
  .next (s.atomicTrain c p 0x13 h)
/-- SMAX, 64-bit (09 R233). -/
def execAtomicSmax64 (c : Ch) (p : Pt) (h : AtomHead) (s : State) : Host.Outcome State Fault Refusal :=
  .next (s.atomicTrain c p 0x14 h)
/-- SWAP, 64-bit (09 R233). -/
def execAtomicSwap64 (c : Ch) (p : Pt) (h : AtomHead) (s : State) : Host.Outcome State Fault Refusal :=
  .next (s.atomicTrain c p 0x15 h)
/-- CAS, 64-bit (09 R233). -/
def execAtomicCas64 (c : Ch) (p : Pt) (h : AtomHead) (s : State) : Host.Outcome State Fault Refusal :=
  .next (s.atomicTrain c p 0x16 h)
/-- ADD, 32-bit (09 R233). -/
def execAtomicAdd32 (c : Ch) (p : Pt) (h : AtomHead) (s : State) : Host.Outcome State Fault Refusal :=
  .next (s.atomicTrain c p 0x18 h)
/-- UMIN, 32-bit (09 R233). -/
def execAtomicUmin32 (c : Ch) (p : Pt) (h : AtomHead) (s : State) : Host.Outcome State Fault Refusal :=
  .next (s.atomicTrain c p 0x19 h)
/-- UMAX, 32-bit (09 R233). -/
def execAtomicUmax32 (c : Ch) (p : Pt) (h : AtomHead) (s : State) : Host.Outcome State Fault Refusal :=
  .next (s.atomicTrain c p 0x1a h)
/-- SMIN, 32-bit (09 R233). -/
def execAtomicSmin32 (c : Ch) (p : Pt) (h : AtomHead) (s : State) : Host.Outcome State Fault Refusal :=
  .next (s.atomicTrain c p 0x1b h)
/-- SMAX, 32-bit (09 R233). -/
def execAtomicSmax32 (c : Ch) (p : Pt) (h : AtomHead) (s : State) : Host.Outcome State Fault Refusal :=
  .next (s.atomicTrain c p 0x1c h)
/-- SWAP, 32-bit (09 R233). -/
def execAtomicSwap32 (c : Ch) (p : Pt) (h : AtomHead) (s : State) : Host.Outcome State Fault Refusal :=
  .next (s.atomicTrain c p 0x1d h)
/-- CAS, 32-bit (09 R233). -/
def execAtomicCas32 (c : Ch) (p : Pt) (h : AtomHead) (s : State) : Host.Outcome State Fault Refusal :=
  .next (s.atomicTrain c p 0x1e h)

/-- ROUND_TIMEOUT (09 R237): the members present are applied in order; the entry's SOURCE is the port of the first arrival. -/
def execRoundTimeout (c : Ch) (addr round : Nat) (s : State) : Host.Outcome State Fault Refusal :=
  .next (
    let h := (s.ch c).hub
    match h.rounds.find? (fun r => r.addr == addr && r.round == round) with
    | some r =>
      if (s.ch c).serves && s.after r.openedAt h.roundTimeout then
        let p := match r.held with | x :: _ => x.arrival % 5 | [] => 0
        ((s.applyRound c r).log c (0x0410 + p) 0x0907 [(8, r.addr), (2, r.round), (2, r.held.length)]).releaseHeld c h.waitingOps
      else s
    | none => s)

/-! ### Responses at the requester (09 R232, R235, Table 09-8) -/

/-- The outstanding operation that a response answers: of that port, or one that another path carried. -/
def Hub.answered (h : Hub) (p : Pt) (r : RespHead) (isOp : Nat → Bool) : Option PartnerOp :=
  let same := fun (o : PartnerOp) => o.seq == r.seq && o.epoch % 256 == r.epoch && isOp o.op
  match h.ops.find? (fun o => same o && o.port == p.val) with
  | some o => some o
  | none => h.ops.find? same

/-- The operations that may have overtaken another: later ones of its sequence that went by another port. The destination discarded them
if they came before it (09 R235). -/
def Hub.overtook (h : Hub) (o : PartnerOp) : List PartnerOp :=
  h.ops.filter (fun q => q.port == o.port && seqCase o.seq q.seq == 2 && q.via.isSome && q.via != o.via)

/-- Take an operation off the outstanding ones; fences that waited for it may complete (09 R238), and what may have overtaken it is sent
again (R235; log entry 66). -/
def State.endOp (s : State) (c : Ch) (o : PartnerOp) : State :=
  let again := (s.ch c).hub.overtook o
  let s := s.onHub c (fun h => Hub.closeFences { h with ops := h.ops.filter (fun q => !(q.port == o.port && q.seq == o.seq)) })
  again.foldl (fun t q => t.sendOp c q) s

/-- The rank an operation was sent to. -/
def Hub.opRank (h : Hub) (o : PartnerOp) : Nat := (h.ports[ptOf o.port].rank?).getD 0

/-- A refusing status holds the channel with PARTNER_REFUSED. -/
def State.partnerRefused (s : State) (c : Ch) (p : Pt) (o : PartnerOp) (status : Nat) : State :=
  let ps : List Param := [(2, (s.ch c).hub.opRank o), (2, status), (8, o.addr)]
  (s.log c (0x0410 + p.val) 0x0904 ps).holdNow c 0x10c (0x0410 + p.val) (paramBytes ps)

/-- A status that refuses an operation (09 Table 09-8). -/
def refusing (status : Nat) : Bool := status == 1 || status == 2 || status == 5

/-- READ_DATA (09 R235); its wagons are those of a transfer to the operation's address (R227), and of a response that answers nothing, as
if from a granule's start. -/
def execReadData (c : Ch) (p : Pt) (h : RespHead) (data : List Byte) (poisoned : List Nat) (s : State) :
    Host.Outcome State Fault Refusal :=
  let found := (s.ch c).hub.answered p h (· == 1)
  .next (s.onTrain c p 1 ((found.map (·.addr)).getD 0) data (fun s =>
    match found with
    | none => s
    | some o =>
      let s := s.endOp c o
      if refusing h.status then (s.partnerRefused c p o h.status).settle c
      else ((s.arrive c o.id o.dst (fitBytes o.length data) poisoned).touch c).settle c))

/-- WRITE_ACK (09 R232). -/
def execWriteAck (c : Ch) (p : Pt) (h : RespHead) (s : State) : Host.Outcome State Fault Refusal :=
  .next (s.onTrain c p 1 0 [] (fun s =>
    match (s.ch c).hub.answered p h (· == 2) with
    | none => s
    | some o =>
      let s := s.endOp c o
      ((if refusing h.status then s.partnerRefused c p o h.status else s).touch c).settle c))

/-- ATOMIC_RESULT (09 R232, Table 09-7). -/
def execAtomicResult (c : Ch) (p : Pt) (h : RespHead) (s : State) : Host.Outcome State Fault Refusal :=
  .next (s.onTrain c p 1 0 [] (fun s =>
    match (s.ch c).hub.answered p h isAtomic with
    | none => s
    | some o =>
      let rank := (s.ch c).hub.opRank o
      let s := s.endOp c o
      if refusing h.status then (s.partnerRefused c p o h.status).settle c
      else
        let s := s.depotStore c o.dst (bytesOfNat 8 h.result ++ bytesOfNat 1 h.status ++ zeros 23)
        let s := if h.status = 4 then
            let ps : List Param := [(2, rank), (2, o.port), (4, o.seq)]
            (s.log c (0x0410 + p.val) 0x0905 ps).holdNow c 0x10e (0x0410 + p.val) (paramBytes ps)
          else s
        (s.touch c).settle c))

/-! ### DETOUR (09 R239) -/

/-- The data a DETOUR train carries: the original head granule and data. -/
def Inner.data : Inner → List Byte
  | .read h => ReqHead.bytes h
  | .write h d _ => ReqHead.bytes h ++ d
  | .atomic _ h => AtomHead.bytes h

/-- DETOUR: the operation is applied as if it had come on its own port; a train for another rank is FORWARD's. -/
def execDetour (c : Ch) (p : Pt) (h : MailHead) (inner : Inner) (s : State) : Host.Outcome State Fault Refusal :=
  .next (if h.dstRank ≠ (s.ch c).rank then s
    else
      s.onTrain c p 2 0 (Inner.data inner) (fun s =>
        let hub := (s.ch c).hub
        s.takeOp c (hub.arrivalPort (innerKey inner).1 (innerKey inner).2.1 p) .detour inner))

end Sys2Proof.Machine
end

