-- ==== Sys2Proof/Machine/Sequencer.lean ====
section
/-! DEFINITION. Signal cars, control cars and posts (06 R153 to R166). -/

namespace Sys2Proof.Machine

/-- The rules of a signal car (06 Table 06-6, R152, 05 R115). -/
def signalInvalid (cl : Cluster) (car : Car) : Option Nat :=
  if !Car.commonOk car then some 0
  else if 1 < Car.func car then some 1
  else if Car.get car 78 67 = 0 || Car.get car 66 0 != 0 then some 2
  else if !spanPostOk cl car then some 3
  else none

/-- A signal car at the read point: checked, then its common wait (06 R153, R159). -/
def State.signalCar (s : State) (w : At) (func : Nat) (body : Car → State → Option State) : State :=
  s.readPoint w.ch w.cl (fun car t =>
    let cl := t.cluster w.ch w.cl
    if Car.cls car ≠ 4 then none
    else
      match signalInvalid cl car with
      | some row => some (t.carInvalid w.ch w.cl car cl.pos row)
      | none =>
        if Car.func car ≠ func then none
        else (t.commonWait w.ch w.cl car).bind (body car))

/-- Complete a car at the read point: the read point passes it, and its post is to be made. -/
def State.passPost (s : State) (c : Ch) (k : Nat) (car : Car) : State :=
  let nid := (s.pass c k).newId c
  (nid.2.pendPost c k car nid.1).issued c

/-- SIGNAL_ADD (06 R153). -/
def execSignalAdd (w : At) (s : State) : Host.Outcome State Fault Refusal :=
  let s := s.meet w
  .next (s.signalCar w 0 (fun car t =>
    some ((t.addSignal w.ch w.cl (Car.get car 90 79) (Car.get car 78 67)).passPost w.ch w.cl car)))

/-- SIGNAL_WAIT (06 R153): the target is raised by AMOUNT, and the read point stays until it is satisfied. -/
def execSignalWait (w : At) (s : State) : Host.Outcome State Fault Refusal :=
  let s := s.meet w
  .next (s.signalCar w 1 (fun car t =>
    let r := (t.cluster w.ch w.cl).raise (Car.get car 90 79) (Car.get car 78 67)
    if (t.ch w.ch).waitMet w.cl r.2 then
      some ((t.onCluster w.ch w.cl (fun _ => r.1)).passPost w.ch w.cl car)
    else none))

/-- A control car of a function at the read point (06 R154, R155). -/
def State.controlCar (s : State) (w : At) (func : Nat) (body : Car → Cluster → State → Option State) : State :=
  s.readPoint w.ch w.cl (fun car t =>
    if Car.cls car = 6 ∧ Car.func car = func then body car (t.cluster w.ch w.cl) t else none)

/-- LEG (06 R154, R162): the read point passes the car of the current leg. -/
def execLeg (w : At) (s : State) : Host.Outcome State Fault Refusal :=
  let s := s.meet w
  .next (s.controlCar w 0 (fun car _ t =>
    if Car.get car 90 85 = (t.ch w.ch).run.leg then some ((t.pass w.ch w.cl).issued w.ch) else none))

/-- LOOP (06 R155). -/
def execLoop (w : At) (s : State) : Host.Outcome State Fault Refusal :=
  let s := s.meet w
  .next (s.controlCar w 1 (fun car _ t =>
    some ((t.onCluster w.ch w.cl (fun cl =>
      { cl with pos := cl.pos + 1,
                loops := { body := cl.pos + 1, last := Car.get car 90 67, iter := 0 } :: cl.loops })).touch w.ch)))

/-- Close the innermost loop: read its body again, or leave it (06 R155). -/
def Cluster.endloop (cl : Cluster) : Cluster :=
  match cl.loops with
  | [] => { cl with pos := cl.pos + 1 }
  | f :: l =>
    if f.iter < f.last then { cl with pos := f.body, loops := { f with iter := f.iter + 1 } :: l }
    else { cl with pos := cl.pos + 1, loops := l }

/-- ENDLOOP (06 R155). -/
def execEndloop (w : At) (s : State) : Host.Outcome State Fault Refusal :=
  let s := s.meet w
  .next (s.controlCar w 2 (fun _ _ t => some ((t.onCluster w.ch w.cl Cluster.endloop).touch w.ch)))

/-- NOP (06 R155). -/
def execNop (w : At) (s : State) : Host.Outcome State Fault Refusal :=
  let s := s.meet w
  .next (s.controlCar w 4 (fun _ _ t => some ((t.pass w.ch w.cl).touch w.ch)))

/-! ### MARK (06 R164 to R166) -/

/-- The place of the COMMIT car that closes the span opened at `pos` (06 R164). -/
def commitAhead (x : Chan) (k : Nat) : Nat → Nat → Option Nat
  | 0, _ => none
  | n + 1, pos => if Car.cls (x.carAt k pos) = 7 then some pos else commitAhead x k n (pos + 1)

/-- Record a range of a table of counts. -/
def rangeOf (t : Tab W16) (lo hi : Nat) : Tab W16 := t.filter (fun p => decide (lo ≤ p.1 ∧ p.1 ≤ hi))

/-- Put a recorded range back. -/
def restoreRange (t saved : Tab W16) (lo hi : Nat) : Tab W16 :=
  let rest := t.filter (fun p => !decide (lo ≤ p.1 ∧ p.1 ≤ hi))
  saved.foldl (fun t p => Tab.put 0 t p.1 p.2) rest

/-- An occurrence opened by its first MARK (06 R165, 05 R126). -/
def openOcc (layer occ rung lo hi : Nat) (saved : Tab W16) : Occ :=
  { layer := layer, occ := occ, pass := 0, rung := rung, startRung := rung, parts := none, reports := [], counts := {}
    contribs := [], maxExp := none, causeC := false, suspect := false, mismatched := [], toldT := false
    moved := [], sigLo := lo, sigHi := hi, saved := saved, savedLocal := [] }

/-- MARK (06 R165, R166): opens the span; the first participating consist opens the occurrence and records its counts. -/
def execMark (w : At) (s : State) : Host.Outcome State Fault Refusal :=
  let s := s.meet w
  .next (s.controlCar w 3 (fun car cl t =>
    let c := w.ch
    let k := w.cl.val
    let x := t.ch c
    let layer := Car.get car 90 79
    let lo := Car.get car 78 67
    let hi := Car.get car 66 55
    match commitAhead x k ((x.consist k).2 - cl.pos) (cl.pos + 1) with
    | none => some (t.carInvalid c k car cl.pos 4)
    | some cp =>
      let occ := (Car.get (x.carAt k cp) 78 63 + Tab.get 0 cl.issued cp) % 2 ^ 16
      let known := x.watch.occ? layer occ
      let clash := match known with | some o => o.sigLo != lo || o.sigHi != hi | none => false
      if clash then some (t.carInvalid c k car cl.pos 5)
      else if known.isNone && decide (64 ≤ x.watch.occs.length) then none
      else
        let o := known.getD (openOcc layer occ (x.watch.layer layer).rung lo hi (rangeOf x.run.sigs lo hi))
        let o := { o with savedLocal := o.savedLocal ++ [(k, rangeOf cl.sigs lo hi)] }
        let t := t.onWatch c (fun v =>
          if known.isSome then v.onOcc layer occ (fun _ => o) else { v with occs := v.occs ++ [o] })
        let ref : SpanRef := { layer := layer, occ := occ, pass := o.pass, rung := o.rung, moved := o.moved }
        let sp : OpenSpan :=
          { ref := ref, markPos := cl.pos, sigLo := lo, sigHi := hi, ordinal := cl.ordinal, loops := cl.loops,
            targets := rangeOf cl.targets lo hi }
        some (((t.onCluster c k (fun cl => { cl with span := some sp })).pass c k).touch c)))

/-! ### POST (06 R156, R158) -/

/-- Is everything complete that the post of car `id` waits for (06 R158, 05 R135)? -/
def Chan.postReady (x : Chan) (id : Nat) : Bool :=
  !x.hub.ops.any (fun o => o.id == id) && !x.hub.fences.any (fun f => f.1 == id) &&
    !x.hub.msgsOut.any (fun m => m.id == id) && !x.host.ops.any (fun o => o.id == id) &&
    !x.watch.checks.any (fun q => q.ids.contains id) &&
    !x.run.clusters.any (fun e => e.2.chains.any (fun h =>
      match h.2 with | some g => g.sampled && g.ids.contains id | none => false))

/-- POST (06 R156, R158). -/
def execPost (c : Ch) (slot : Nat) (s : State) : Host.Outcome State Fault Refusal :=
  let x := s.ch c
  .next (match x.run.posts[slot]? with
    | some p =>
      if x.ctl.st = .running && x.postReady p.id then
        let t := (s.onRun c (fun r => { r with posts := dropAt r.posts slot })).onMem c (fun m =>
          { m with farOps := m.farOps.filter (fun o => o.id != p.id) })
        ((t.addSignal c p.cl p.sig 1).progress c).settle c
      else s
    | none => s)

end Sys2Proof.Machine
end

