-- ==== Sys2Proof/Machine/Watch.lean ====
section
/-! DEFINITION. The watch: COMMIT cars, the verdict of a pass, replay, and the crow's nest comparison (05 R114 to R138). -/

namespace Sys2Proof.Machine

/-! ### COMMIT (05 R117) -/

/-- The reports of an occurrence that COMMIT cars already passed have still to make (05 R117). -/
def Chan.reportsDue (x : Chan) (p : OpenSpan) : Nat :=
  (x.run.clusters.map (fun e =>
    (e.2.commits.filter (fun w => w.span.ref.layer == p.ref.layer && w.span.ref.occ == p.ref.occ)).length)).sum

/-- The rules of a watch car (05 Table 05-1, R117, R115); `due` counts the reports that earlier COMMIT cars have still to make. -/
def watchInvalid (cl : Cluster) (car : Car) (o : Option Occ) (due : Nat) : Option Nat :=
  if !Car.commonOk car then some 0
  else if Car.func car ≠ 0 then some 1
  else if Car.get car 53 0 ≠ 0 ∨ 383 < Car.get car 62 54 then some 2
  else if !spanPostOk cl car then some 3
  else
    match o with
    | some o =>
      if (match o.parts with | some n => n != Car.get car 62 54 | none => false) ||
          decide (Car.get car 62 54 + 1 ≤ o.reports.length + due) then some 4 else none
    | none => some 5

/-- Report the oldest COMMIT of a cluster whose span is done. -/
def State.reportCommit (s : State) (c : Ch) (k : Nat) : Option State :=
  let x := s.ch c
  let cl := x.run.cluster k
  match cl.commits with
  | [] => none
  | w :: rest =>
    if cl.spanDone k x.run.posts w.span then
      let t := s.onCluster c k (fun cl => { cl with commits := rest })
      some ((t.onWatch c (fun v => v.onOcc w.span.ref.layer w.span.ref.occ (fun o =>
        { o with reports := o.reports ++ [{ cl := k, car := w.car, span := w.span }] }))).touch c)
    else none

/-- After the COMMIT car of a replay pass, reading goes on where the replay broke in (05 R126). -/
def Cluster.leaveSpan (cl : Cluster) : Cluster :=
  match cl.replays with
  | [] => { cl with span := none, pos := cl.pos + 1 }
  | r :: rest =>
    { cl with span := r.backSpan, pos := r.backPos, loops := r.backLoops, ordinal := r.backOrdinal, replays := rest,
              queues := r.backQueues.foldl (fun t q => Tab.put [] t q.1 (Tab.get [] t q.1 ++ q.2)) cl.queues }

/-- COMMIT (05 R114, R117): a COMMIT that the read point has passed reports once its span is done; else the car at the read point is
passed and reports when it may. -/
def execCommit (w : At) (s : State) : Host.Outcome State Fault Refusal :=
  let s := s.meet w
  let c := w.ch
  let k := w.cl.val
  .next (match (if (s.ch c).ctl.st = .running then s.reportCommit c k else none) with
    | some t => t.settle c
    | none =>
      s.readPoint c k (fun car t =>
        let cl := t.cluster c k
        if Car.cls car ≠ 7 then none
        else
          match cl.span with
          | none => some (t.carInvalid c k car cl.pos 5)
          | some p =>
            match watchInvalid cl car ((t.ch c).watch.occ? p.ref.layer p.ref.occ) ((t.ch c).reportsDue p) with
            | some row => some (t.carInvalid c k car cl.pos row)
            | none =>
              (t.commonWait c k car).map (fun t =>
                let t := t.onCluster c k (fun cl =>
                  Cluster.leaveSpan { cl with
                    commits := cl.commits ++ [{ car := car, pos := cl.pos, span := p }]
                    issued := if p.ref.pass = 0 then Tab.put 0 cl.issued cl.pos (Tab.get 0 cl.issued cl.pos + 1)
                      else cl.issued })
                let t := t.onWatch c (fun v => v.onOcc p.ref.layer p.ref.occ (fun o =>
                  { o with parts := some (Car.get car 62 54) }))
                ((t.reportCommit c k).getD t).touch c)))

/-! ### The verdict (05 R120 to R125) -/

/-- The order in which a cluster's cars were read, clusters in increasing number (05 R121). -/
def contribOrder (a b : Contrib) : Bool := decide (a.cl < b.cl ∨ (a.cl = b.cl ∧ a.inst ≤ b.inst))

/-- Insert a contribution in reading order. -/
def contribInsert (x : Contrib) : List Contrib → List Contrib
  | [] => [x]
  | y :: l => if contribOrder x y then x :: y :: l else y :: contribInsert x l

/-- The contributions of a kind in order. -/
def contribsOf (o : Occ) (grad : Bool) : List Contrib :=
  (o.contribs.filter (fun x => x.grad == grad)).foldl (fun l x => contribInsert x l) []

/-- The total of a kind: each cluster's partial, added in increasing cluster number (05 R121). -/
def telltaleTotal (l : List Contrib) : W32 :=
  let parts := ((l.map (·.cl)).dedup).map (fun k => (l.filter (fun x => x.cl == k)).foldl (fun a x => add32 a x.sum) 0)
  parts.foldl add32 0

/-- The norm N of a kind (05 R121). -/
def telltaleNorm (l : List Contrib) (grad : Bool) (sg : Int) : W32 :=
  let n := sqrt32 (telltaleTotal l)
  if grad then ((decode32 n).scale (-sg)).to32 else n

/-- The tests of a kind: upper norm, lower norm, jump, codes (05 Table 05-4), as the bits 3 to 6 of CAUSES. -/
def telltaleTests (rc : Nat) (grad : Bool) (avg : W32) (count : Nat) (n : W32) (codes : Nat) : Nat :=
  let w := fun hi lo => BitVec.ofNat 32 (bits rc hi lo)
  let hi := if grad then w 511 480 else w 415 384
  let lo := if grad then w 479 448 else w 383 352
  let jump := if grad then w 447 416 else w 351 320
  let cmax := if grad then bits rc 319 304 else bits rc 303 288
  let warm := if grad then bits rc 271 264 else bits rc 263 256
  (if lt32 hi n || isInf32 n then 8 else 0) +
  (if !isZero32 lo && lt32 n lo then 16 else 0) +
  (if !isZero32 jump && warm ≤ count && !isZero32 avg && lt32 (mul32 jump avg) n then 32 else 0) +
  (if cmax ≠ 0xffff ∧ cmax < codes then 64 else 0)

/-- What the telltales of a pass find: bits 3 to 7 of CAUSES and the norm that trips; the GRAD kind is reported when it trips
(05 Table 05-7). -/
def telltales (x : Chan) (o : Occ) : Nat × W32 :=
  let rc := x.layerRec o.layer
  let ls := x.watch.layer o.layer
  let kind := fun grad =>
    let l := contribsOf o grad
    let n := telltaleNorm l grad ls.sg
    if l.isEmpty then (0, (0 : W32))
    else (telltaleTests rc grad (if grad then ls.gradAvg else ls.outAvg) (if grad then ls.gradCount else ls.outCount) n
            ((l.map (·.codes)).sum), n)
  if x.watch.telltalesNow && recTell rc then
    let g := kind true
    let u := kind false
    if g.1 ≠ 0 then (g.1 + 128, g.2) else u
  else (0, 0)

/-- The reference car of a pass: the first contributing car of the GRAD kind, or of the OUT kind (05 Table 05-7). -/
def refCar (o : Occ) : Option Contrib :=
  match contribsOf o true with
  | x :: _ => some x
  | [] => (contribsOf o false).head?

/-- The gauge code of the reference car in the pass decided; a free code of Table 02-1 when no car contributes (log entry 28). -/
def gaugeNow (o : Occ) (tstep : W32) : Nat :=
  match refCar o with
  | some x => x.gauge
  | none => (Config.lostGauge o.layer o.occ o.pass tstep).toNat % 7

/-- The gauge code of the reference car in a pass at another rung. -/
def gaugeAt (rc : Nat) (o : Occ) (rung : Nat) (tstep : W32) : Nat :=
  match refCar o with
  | some x => (substGauge (recBase rc) rung (recQ4i rc) x.rawGauge).1
  | none => (Config.lostGauge o.layer o.occ (o.pass + 1) tstep).toNat % 7

/-- A verdict (05 Table 05-5). -/
inductive Verdict where
  | commit
  | replay (rung : Nat) (relocated : Bool)
  | hold (code : Nat)
  deriving DecidableEq, Repr

/-- Table 05-5: the first row that matches decides. -/
def verdictOf (suspect o t c told : Bool) (rung ceil : Nat) : Verdict :=
  if suspect then .hold 0x105
  else if t && told then .hold 0x104
  else if (o || t) && rung == ceil then .hold 0x103
  else if o || t then .replay (rung + 1) false
  else if c then .replay (if rung < ceil then rung + 1 else rung) true
  else .commit

/-- A consist goes back to its MARK for another pass (05 R126, 06 R165). -/
def Cluster.replayFrom (cl : Cluster) (p : OpenSpan) (saved : Tab W16) : Cluster :=
  let r : Replay :=
    { span := p, backPos := cl.pos, backLoops := cl.loops, backQueues := cl.queues, backSpan := cl.span,
      backOrdinal := cl.ordinal }
  { cl with
    sigs := if p.sigHi < 256 then restoreRange cl.sigs saved p.sigLo p.sigHi else cl.sigs
    targets := restoreRange cl.targets p.targets p.sigLo p.sigHi
    pos := p.markPos + 1, loops := p.loops, span := some p, ordinal := p.ordinal, queues := []
    replays := r :: cl.replays }

/-- Order a replay at a rung; `toldT` of the new pass says whether cause T ordered it (05 R124, R126, R127, R131, R136). -/
def State.replay (s : State) (c : Ch) (o : Occ) (rung : Nat) (moved : List (Nat × Nat)) (causeO causeT : Bool) : State :=
  let ref : SpanRef := { layer := o.layer, occ := o.occ, pass := o.pass + 1, rung := rung, moved := moved }
  let s := if 256 ≤ o.sigLo then
      s.onRun c (fun r => { r with sigs := restoreRange r.sigs o.saved o.sigLo o.sigHi })
    else s
  let s := o.reports.foldl (fun t p =>
    let saved := match o.savedLocal.find? (fun q => q.1 == p.cl) with | some q => q.2 | none => []
    t.onCluster c p.cl (fun cl => cl.replayFrom { p.span with ref := ref } saved)) s
  s.onWatch c (fun v =>
    let v := v.onOcc o.layer o.occ (fun o =>
      { o with pass := o.pass + 1, rung := rung, parts := none, reports := [], counts := {}, contribs := [], maxExp := none
               causeC := false, mismatched := [], moved := moved, toldT := causeT })
    if causeO && recScale ((s.ch c).layerRec o.layer) then
      let e := Tab.get (none, false) v.stats o.layer
      { v with stats := Tab.put (none, false) v.stats o.layer (e.1, true) }
    else v)

/-- Commit an occurrence: its COMMIT posts are to be made, its norms wait for the boundary, its exponents enter the statistics, and a
commit above the pass's start rung holds the rung (05 R117, R123, R128, R131). -/
def State.commitOcc (s : State) (c : Ch) (o : Occ) : State :=
  let x := s.ch c
  let sg := (x.watch.layer o.layer).sg
  let norm := fun grad =>
    let l := contribsOf o grad
    if l.isEmpty then none else some (telltaleNorm l grad sg)
  let s := s.onWatch c (fun v =>
    let e := Tab.get (none, false) v.stats o.layer
    { v with
      occs := v.occs.filter (fun p => !(p.layer == o.layer && p.occ == o.occ))
      committed := v.committed ++
        [{ layer := o.layer, occ := o.occ, ref := (refCar o).map (·.rawGauge), out := norm false, grad := norm true }]
      stats := if recScale (x.layerRec o.layer) then Tab.put (none, false) v.stats o.layer (maxOpt e.1 o.maxExp, e.2) else v.stats
      highest := if o.pass ≠ 0 ∧ o.startRung < o.rung
        then Tab.put 0 v.highest o.layer (max (Tab.get 0 v.highest o.layer) o.rung) else v.highest })
  o.reports.foldl (fun t p => let nid := t.newId c; nid.2.pendPost c p.cl p.car nid.1) s

/-- Log the crow's nest mismatches of a pass, before its verdict (05 R140: their COUNT is that of the verdict). -/
def State.logMismatches (s : State) (c : Ch) (o : Occ) (g : Nat) : State :=
  o.mismatched.foldl (fun t m =>
    t.logNum c (0x7000 + m.1 / 4) 0x0503 o.layer o.occ (g * 16 + g) o.pass 4 m.1 m.2) s

/-- VERDICT (05 R117, R120 to R126, R140). -/
def execVerdict (c : Ch) (layer occ : Nat) (s : State) : Host.Outcome State Fault Refusal :=
  let x := s.ch c
  .next (match x.watch.occ? layer occ with
    | none => s
    | some o =>
      if !o.ready x.watch || x.ctl.st != .running then s
      else
        let rc := x.layerRec layer
        let ov := o.counts.overflow
        let tt := telltales x o
        let causeO := ov != 0
        let causeT := tt.1 != 0
        let causes := (if causeO then 1 else 0) + (if causeT then 2 else 0) + (if o.causeC then 4 else 0) + tt.1
        let eng := match o.mismatched with | m :: _ => m.1 | [] => 0xffff
        let param := if causeO then ov % 2 ^ 32 else if causeT then tt.2.toNat
          else match o.mismatched with | m :: _ => m.2 | [] => 0
        let v := verdictOf o.suspect causeO causeT o.causeC o.toldT o.rung (recCeil rc)
        let g := gaugeNow o x.run.ticketStep
        let s := s.logMismatches c o g
        ((match v with
          | .commit => s.commitOcc c o
          | .replay rung relocated =>
            let t := s.logNum c 0x7fff 0x0501 layer occ (gaugeAt rc o rung x.run.ticketStep * 16 + g) o.pass causes eng param
            t.replay c o rung (if relocated then o.moved ++ o.mismatched else o.moved) causeO causeT
          | .hold code =>
            let t := s.logNum c 0x7fff 0x0502 layer occ (g * 16 + g) o.pass causes eng param
            let t := t.onWatch c (fun w =>
              { w with occs := w.occs.filter (fun p => !(p.layer == layer && p.occ == occ)) })
            t.stopFor c code 0x7fff (numericsBytes layer occ x.run.ticketStep x.rank (g * 16 + g) o.pass causes eng param)).touch
          c).settle c)

/-! ### The crow's nest (05 R135, R136) -/

/-- Does an output element mismatch its reference (05 R135)? -/
def crowMismatch (acc ref limit : W32) : Bool :=
  let a := decode32 acc
  let r := decode32 ref
  if a.isNan || r.isNan then a.isNan != r.isNan
  else if a.isInf || r.isInf then !(a.isInf && r.isInf && a.sign == r.sign)
  else (decode32 limit).lt (a.add r.neg).abs

/-- Record a mismatch against an engine: mismatches within 64 training steps count together (05 R136). -/
def Watch.against (w : Watch) (engine : Nat) (tstep : W32) : Watch :=
  let e := Tab.get (0, 0) w.suspect engine
  let n := if e.2 ≠ 0 ∧ (tstep - BitVec.ofNat 32 e.1).toNat < 64 then e.2 + 1 else 1
  { w with suspect := Tab.put (0, 0) w.suspect engine (tstep.toNat, n) }

/-- CROWSNEST_CHECK (05 R135, R136): the oldest check completes. `wrong` lists the accumulators that the sampled hardware got
wrong, by output cell. A mismatch of a span's pass is logged with the pass's verdict, which fixes its COUNT and GAUGES (05 Table 05-7); a
mismatch outside a span has no verdict and is logged at once. -/
def execCrowsnestCheck (c : Ch) (wrong : List (Nat × W32)) (s : State) : Host.Outcome State Fault Refusal :=
  let x := s.ch c
  .next (match x.watch.checks with
    | [] => s
    | q :: rest =>
      let acc := fun i => match wrong.find? (fun p => p.1 == i) with | some p => p.2 | none => Tab.get 0 q.acc i
      let bad := q.cells.any (fun i =>
        !q.free.contains i && crowMismatch (acc i) (Tab.get 0 q.ref i) (Tab.get 0 q.limit i))
      let s := s.onWatch c (fun w => { w with checks := rest, unchecked := (w.unchecked + q.free.length) % 2 ^ 32 })
      let s := if bad then
          let g := (Config.lostGauge q.layer 0 q.pass x.run.ticketStep).toNat % 7
          let s := if q.occ.isSome then s
            else s.logNum c (0x7000 + q.sampled / 4) 0x0503 q.layer 0 (g * 16 + g) q.pass 4 q.sampled q.checker
          s.onWatch c (fun w =>
            let w := (w.against q.sampled x.run.ticketStep).against q.checker x.run.ticketStep
            let sus := decide (2 ≤ (Tab.get (0, 0) w.suspect q.sampled).2) || decide (2 ≤ (Tab.get (0, 0) w.suspect q.checker).2)
            match q.occ with
            | some n => w.onOcc q.layer n (fun o =>
                { o with causeC := true, suspect := o.suspect || sus, mismatched := o.mismatched ++ [(q.sampled, q.checker)] })
            | none => w)
        else s
      (s.touch c).settle c)

end Sys2Proof.Machine
end

