-- ==== Sys2Proof/Machine/Legs.lean ====
section
/-! DEFINITION. Legs: when a leg has drained, what its boundary does, and the two watches on a channel that stands still (06 R160 to
R162, 05 R123, R128, R132, 13 R322). -/

namespace Sys2Proof.Machine

/-! ### The drain (06 R162) -/

/-- The place in a consist after the LEG and NOP cars that an idle region's cluster has before it (13 R322). -/
def skipIdle (x : Chan) (k : Nat) : Nat → Nat → Nat
  | 0, pos => pos
  | n + 1, pos =>
    if (x.consist k).2 ≤ pos then pos
    else
      let car := x.carAt k pos
      if Car.cls car = 6 ∧ ((Car.func car = 0 ∧ Car.get car 90 85 = x.run.leg) ∨ Car.func car = 4) then skipIdle x k n (pos + 1)
      else pos

/-- Is a region occupied in a leg: does any of its consists hold a car there other than LEG and NOP (13 R322)? -/
def Image.occupiedIn (i : Image) (leg r : Nat) : Bool := (i.occupied.getD leg 0).testBit r

/-- A cluster as the boundary finds it: one whose region is off and unoccupied in the leg stands past its LEG and NOP cars (log
entry 36). -/
def Chan.atRest (x : Chan) (k : Nat) : Cluster × ReadStop :=
  let idle := (x.sup.region (regionOf k)).st == .off &&
    (match x.run.image with | some i => !i.occupiedIn x.run.leg (regionOf k) | none => false)
  if idle then
    let cl := x.run.cluster k
    readCars x k 97 { cl with pos := skipIdle x k ((x.consist k).2 - cl.pos) cl.pos }
  else x.readAhead k

/-- A cluster's read point stands at its next LEG car or at the end of its consist, with every car it has read completed. -/
def Chan.legEnded (x : Chan) (k : Nat) : Bool :=
  let r := x.atRest k
  let cl := r.1
  !cl.deadCars && (List.range 6).all (fun q => (cl.queue q).isEmpty) && cl.moves.isEmpty && cl.refetch.isEmpty &&
    cl.commits.isEmpty && cl.span.isNone &&
    (match r.2 with
     | .idle => decide ((x.consist k).2 ≤ cl.pos)
     | .at car => atNextLeg x car
     | _ => false)

/-- The boundary after the current leg may begin (06 R162). -/
def Chan.legDone (x : Chan) : Bool :=
  x.ctl.st == .running && x.run.image.isSome && x.run.stops.isEmpty && x.noWork && x.watch.occs.isEmpty &&
    x.live.all (fun k => x.legEnded k)

/-! ### Boundary actions (06 Table 06-8) -/

/-- The stored gauge code of a layer's reference car: that of its last committed occurrence, else a free code of Table 02-1 (05 Table
05-7; log entry 28). -/
def Chan.refGauge (x : Chan) (layer : Nat) : Nat :=
  match Tab.get 0 x.watch.refs layer with
  | 0 => (Config.lostGauge layer 0 0 x.run.ticketStep).toNat % 7
  | n + 1 => n

/-- The code of a layer's reference car at a rung (05 R127, Table 05-7). -/
def Chan.refGaugeAt (x : Chan) (layer rung : Nat) : Nat :=
  let rc := x.layerRec layer
  (substGauge (recBase rc) rung (recQ4i rc) (x.refGauge layer)).1

/-- Log a numerics entry of a boundary: `before` and `after` are the rungs whose codes GAUGES gives. No occurrence or pass belongs to the
entry, so OCC and PASS are free values, fixed by the run (05 R140; log entry 28). -/
def State.logBoundary (s : State) (c : Ch) (code layer before after param : Nat) : State :=
  let x := s.ch c
  let w := (Config.boundaryOcc code layer x.run.ticketStep).toNat
  s.logNum c 0x7fff code layer (w % 65536) (x.refGaugeAt layer after * 16 + x.refGaugeAt layer before)
    (w / 65536 % 256) 0 0xffff param

/-- Insert a commit by layer and occurrence number. -/
def insertCommit (k : Committed) : List Committed → List Committed
  | [] => [k]
  | y :: l => if k.layer < y.layer ∨ (k.layer = y.layer ∧ k.occ ≤ y.occ) then k :: y :: l else y :: insertCommit k l

/-- The reference cars of the occurrences committed in a leg, the last occurrence of a layer deciding (05 R140; log entry 28). -/
def Watch.noteRefs (w : Watch) : Watch :=
  { w with refs := (w.committed.foldl (fun l k => insertCommit k l) []).foldl (fun t k =>
      match k.ref with | some g => Tab.put 0 t k.layer (g + 1) | none => t) w.refs }

/-- The start rung of a layer at the end of a training step (05 R128): a commit above the start rung holds its rung for ESC_HOLD
steps; a hold that runs out returns to BASE. -/
def State.startRung (s : State) (c : Ch) (layer rc : Nat) : State :=
  let w := (s.ch c).watch
  let l := w.layer layer
  let top := Tab.get 0 w.highest layer
  let set := fun (t : State) (r h : Nat) => t.onWatch c (fun w =>
    { w with layers := Tab.put LayerState.zero w.layers layer { l with rung := r, hold := h } })
  if top ≠ 0 ∧ bits rc 127 120 ≠ 0 then set s top (bits rc 127 120)
  else if l.hold = 0 then s
  else if l.hold = 1 then
    (set s (recBase rc) 0).logBoundary c 0x0505 layer l.rung (recBase rc)
      (Config.endParam layer (s.ch c).run.ticketStep).toNat
  else set s l.rung (l.hold - 1)

/-- The new exponent of a layer from the combined statistics (05 R132). -/
def Watch.newExponent (w : Watch) (layer rc : Nat) (e : Option Int) (flag : Bool) : Int :=
  let sg := (w.layer layer).sg
  let a := match e with | some e => signedOf 8 (bits rc 111 104) - e | none => sg
  let b := if flag then min a (sg - 1) else a
  max w.sgMin (min w.sgMax b)

/-- A layer's exponent at the first step boundary after the exchange (05 R132, Table 05-8). -/
def State.stepExponent (s : State) (c : Ch) (layer rc : Nat) (stats : Tab (Option Int × Bool)) : State :=
  if recScale rc then
    let w := (s.ch c).watch
    let e := Tab.get (none, false) stats layer
    let l := w.layer layer
    let sg := w.newExponent layer rc e.1 e.2
    if sg = l.sg then s
    else
      (s.onWatch c (fun w => { w with layers := Tab.put LayerState.zero w.layers layer { l with sg := sg } })).logBoundary c 0x0504
        layer l.rung l.rung (codeOf 32 sg)
  else s

/-- The end of a training step: TSTEP, start rungs, exponents, and the numbering of the step's cars (04 R110, 05 R114, R128, R132,
R133). With a rank count of 1 and no yard, every step ends an interval and the local statistics are used (log entry 36). -/
def State.stepEnd (s : State) (c : Ch) (i : Image) : State :=
  let s := s.onRun c (fun r =>
    { r with ticketStep := r.ticketStep + 1
             clusters := r.clusters.map (fun (e : Nat × Cluster) => (e.1, { e.2 with issued := [], ordinal := 0 })) })
  let s := i.layers.foldl (fun t e => t.startRung c e.1 e.2) s
  let s := s.onWatch c (fun w => { w with highest := [] })
  let s := if i.rankCount = 1 ∧ i.hasYard = false then
      s.onWatch c (fun w => { w with combined := some w.stats, stats := [] }) else s
  match (s.ch c).watch.combined with
  | none => s
  | some st =>
    (i.layers.foldl (fun t e => t.stepExponent c e.1 e.2 st) s).onWatch c (fun w => { w with combined := none })

/-- One more committed pass: the count saturates at 255 (05 R122). -/
def nextCount (n : Nat) : Nat := min 255 (n + 1)

/-- One average and count after a commit (05 R123). -/
def nextAverage (avg : W32) (count half : Nat) (n : W32) : W32 × Nat :=
  (if count = 0 then n else fma32 (Fp.fin false 1 (-(half : Int))).to32 (sub32 n avg) avg, nextCount count)

/-- Take one committed occurrence into its layer's averages. -/
def State.average (s : State) (c : Ch) (k : Committed) : State :=
  let rc := (s.ch c).layerRec k.layer
  s.onWatch c (fun w =>
    let l := w.layer k.layer
    let o := match k.out with | some v => nextAverage l.outAvg l.outCount (bits rc 279 272) v | none => (l.outAvg, l.outCount)
    let g := match k.grad with | some v => nextAverage l.gradAvg l.gradCount (bits rc 287 280) v | none => (l.gradAvg, l.gradCount)
    let l := { l with outAvg := o.1, outCount := o.2, gradAvg := g.1, gradCount := g.2 }
    { w with layers := Tab.put LayerState.zero w.layers k.layer l })

/-- The averages and counts after a leg (05 R123). -/
def State.averages (s : State) (c : Ch) : State :=
  let w := (s.ch c).watch
  ((w.committed.foldl (fun l k => insertCommit k l) []).foldl (fun t k => t.average c k) s).onWatch c (fun w =>
    { w with committed := [] })

/-- The run-affecting settings take effect (12 R302). -/
def Chan.settingsNow (x : Chan) : Chan :=
  { x with
    watch := { x.watch with zeroSkipNow := x.watch.zeroSkip, telltalesNow := x.watch.telltales, crowRateNow := x.watch.crowRate }
    mem := { x.mem with watchEnNow := x.mem.watchEn, watchRangesNow := x.mem.watchRanges }
    yard := { x.yard with divergenceHoldNow := x.yard.divergenceHold } }

/-- Does the owner's keeping of a chunk end at the boundary: its segment's DELIVER has completed, and its sum is complete (10 R263)? -/
def Yard.ends (y : Yard) (seg owner chunk : Nat) : Bool :=
  y.delivered.contains seg && y.chunks.any (fun q => q.seg == seg && q.owner == owner && q.chunk == chunk && q.summed)

/-- The copies that the yard keeps for comparison are dropped at the boundary after their segment's DELIVER; incomplete ones count in
UNCOMPARED, and what arrives of them later is acknowledged and discarded (10 R263). A statistics record whose sum is not complete is waited
for as before (10 R262, R266). -/
def Yard.boundary (y : Yard) : Yard :=
  let late := y.issued.filter (fun q => q.kind == 3 && y.ends q.seg q.owner q.chunk)
  let chunks := y.chunks.filter (fun q => !y.ends q.seg q.owner q.chunk)
  { y with
    arriving := y.arriving.filter (fun a => !late.any (fun q =>
      a.srcRank == q.peer && bits a.tag 31 28 == 3 && bits a.tag 27 17 == q.owner && bits a.msg 31 16 == q.seg && bits a.msg 15 6 == q.chunk))
    quads := y.quads.filter (fun q => !y.ends q.seg q.owner q.chunk), chunks := chunks
    issued := y.issued.filter (fun q => !(q.kind == 3 && y.ends q.seg q.owner q.chunk)), dropped := y.dropped ++ late
    slots := y.slots.filter (fun n => !late.any (fun q => q.slot == n) &&
      !y.quads.any (fun q => y.ends q.seg q.owner q.chunk && q.slot == some n))
    uncompared := y.uncompared + late.length, delivered := y.delivered.filter (fun n => chunks.any (fun q => q.seg == n))
    diverged := y.diverged.filter (fun e => !y.delivered.contains e.1) }

/-- The divergence that holds the channel at a boundary: of a segment whose DELIVER has completed (10 R263). -/
def Yard.divergenceDue (y : Yard) : Option (List Byte) :=
  if y.divergenceHoldNow then (y.diverged.find? (fun e => y.delivered.contains e.1)).map (·.2) else none

/-- Switch regions for a leg (13 R322; log entry 36). -/
def State.legRegions (s : State) (c : Ch) (i : Image) (leg : Nat) : State :=
  if (s.ch c).run.regionIdleOff then
    allRegions.foldl (fun t r =>
      if i.regionMask.testBit r = false then t
      else if i.occupiedIn leg r then t.switchOn c r
      else t.switchOff c r) s
  else s

/-- The first part of the boundary after a leg, up to the counts of signals and legs (06 Table 06-8). -/
def State.legDone (s : State) (c : Ch) (i : Image) (next : Nat) : State :=
  let l := (s.ch c).run.leg
  let s := s.onWatch c Watch.noteRefs
  -- the read points as they stand
  let s := s.onRun c (fun r => ((s.ch c).live).foldl (fun r k => r.setCluster k ((s.ch c).atRest k).1) r)
  let s := if i.stepEnd.testBit l then s.stepEnd c i else s
  s.onRun c (fun r =>
    { r with sigs := [], leg := next, legElapsed := r.legElapsed.set l (s.count - r.legStart), legStart := s.count
             clusters := r.clusters.map (fun (e : Nat × Cluster) =>
               (e.1, { e.2 with sigs := [], targets := [], loops := [], pos := if next = 0 then 0 else e.2.pos })) })

/-- An iteration completes: it is counted, and its tokens are added to the module's (13 R329). -/
def State.iterationDone (s : State) (c : Ch) : State :=
  let tok := (s.ch c).run.tokensPerIter
  (s.onRun c (fun r => { r with iteration := (r.iteration + 1) % 2 ^ 32 })).onM (fun m => { m with tokens := m.tokens + tok })

/-- How a boundary ends: in HOLD, at the end of the run, or with the next leg. -/
def State.legExit (s : State) (c : Ch) (i : Image) (last : Bool) (diverged : Option (List Byte)) : State :=
  match diverged with
  | some ps => s.enterHold c 0x110 0x0400 ps
  | none =>
    if last = true ∧ i.iterations ≠ 0 ∧ (s.ch c).run.iteration = i.iterations then
      ((s.onRun c (fun r => { r with holdRequested := false })).log c 0 0x0601 [(4, (s.ch c).run.iteration)]).setChState c .ready
    else if (s.ch c).run.holdRequested then s.enterHold c 0x101 0 (paramBytes [])
    else s

/-- The boundary after leg `l` (06 R162, Table 06-8). -/
def State.boundary (s : State) (c : Ch) (i : Image) : State :=
  let last := decide ((s.ch c).run.leg + 1 = i.legCount)
  let next := if last then 0 else (s.ch c).run.leg + 1
  let s := ((s.legDone c i next).averages c).onCh c Chan.settingsNow
  let s := s.legRegions c i next
  let s := if last then s.iterationDone c else s
  let div := (s.ch c).yard.divergenceDue
  ((s.onYard c Yard.boundary).touch c).legExit c i last div

/-- LEG_BOUNDARY (06 R162). -/
def execLegBoundary (c : Ch) (s : State) : Host.Outcome State Fault Refusal :=
  .next (match (s.ch c).run.image with
    | some i => if (s.ch c).legDone then s.boundary c i else s
    | none => s)

/-! ### Deadlock and stall (06 R160) -/

/-- The signal a read point waits on, 0xFFFF for none. -/
def Chan.waitedSignal (x : Chan) (k : Nat) : Nat :=
  let r := x.readAhead k
  match r.2 with
  | .at car =>
    let w := readWait r.1 car
    let y : Chan := { x with run := x.run.setCluster k r.1 }
    if !y.waitMet k w.1 then Car.waitSig car else if !y.waitMet k w.2 then Car.get car 90 79 else 0xffff
  | _ => 0xffff

/-- Hold the channel and log every read point (06 R160, 16 R373). -/
def State.holdStill (s : State) (c : Ch) (code : Nat) : State :=
  let x := s.ch c
  x.live.foldl (fun t k =>
    t.log c (0x0200 + k) 0x0602 [(2, k), (4, (x.readAhead k).1.pos), (2, x.waitedSignal k)]) (s.enterHold c code 0 (paramBytes []))

/-- The yard has nothing to send or to combine (06 R160). -/
def Chan.yardIdle (x : Chan) : Bool :=
  x.yard.outbox.isEmpty && x.yard.vals.isEmpty && x.yard.issued.isEmpty && x.yard.toCredit.isEmpty &&
    x.hub.msgsOut.all (fun m => m.yard.isNone)

/-- SIGNAL_DEADLOCK (06 R160): the channel has stood still, not at a leg boundary, for 1,024 counts. -/
def execSignalDeadlock (c : Ch) (s : State) : Host.Outcome State Fault Refusal :=
  .next (
    let x := s.ch c
    if x.ctl.st = .running && x.run.stops.isEmpty && x.quiet && x.yardIdle && !x.legDone && s.after x.run.activeAt 1024 then
      s.holdStill c 0x108
    else s)

/-- SIGNAL_STALL (06 R160): no car has completed for STALL_LIMIT counts. -/
def execSignalStall (c : Ch) (s : State) : Host.Outcome State Fault Refusal :=
  .next (
    let x := s.ch c
    if x.ctl.st = .running && x.run.stallLimit != 0 && s.after x.run.progressAt x.run.stallLimit then s.holdStill c 0x109
    else s)

end Sys2Proof.Machine
end

