-- ==== Sys2Proof/Machine/Mail.lean ====
section
/-! DEFINITION. Mail: receive queues, acknowledgements, forwarding, resends and the Ethernet mode of a port (09 R239 to R245). -/

namespace Sys2Proof.Machine

/-! ### Receive queues (09 Table 09-12) -/

/-- The record of a receive queue. -/
def Hub.queueRec (h : Hub) (q : Nat) : Nat := natOfBytes (Tab.getAll 0 h.recvQueues (32 * q) 32)
/-- BASE. -/
def rqBase (v : Nat) : Nat := bits v 255 208
/-- SLOT_BYTES. -/
def rqBytes (v : Nat) : Nat := bits v 207 176
/-- SLOTS. -/
def rqSlots (v : Nat) : Nat := bits v 175 160
/-- CPL_BASE. -/
def rqCpl (v : Nat) : Nat := bits v 159 112
/-- SIGNAL. -/
def rqSignal (v : Nat) : Nat := bits v 111 100
/-- SRC_LO. -/
def rqLo (v : Nat) : Nat := bits v 95 80
/-- SRC_HI. -/
def rqHi (v : Nat) : Nat := bits v 79 64
/-- OPEN. -/
def rqOpen (v : Nat) : Bool := v.testBit 63
/-- ETH_OK. -/
def rqEth (v : Nat) : Bool := v.testBit 62

/-- The slot of a message. -/
def rqSlot (v msg : Nat) : Nat := msg % rqSlots v

/-- Is the slot of a message FULL (09 R243)? -/
def Chan.slotFull (x : Chan) (v msg : Nat) : Bool := (x.mem.byte (rqCpl v + 32 * rqSlot v msg + 14)).getLsbD 0

/-- The receiver is RUNNING in the leg and iteration in which a message is due, and no boundary has begun (09 R242). -/
def Chan.isDue (x : Chan) (h : MailHead) : Bool :=
  x.ctl.st == .running && x.run.leg == h.dstLeg && x.run.iteration % 256 == h.dstIter && !x.legDone

/-- The status of a message whose first train has arrived (09 R242, Table 09-8): 0 when it is accepted. -/
def Chan.mailStatus (x : Chan) (h : MailHead) (eth : Bool) : Nat :=
  let v := x.hub.queueRec h.queue
  if !rqOpen v then 8
  else if h.srcRank < rqLo v ∨ rqHi v < h.srcRank then 8
  else if eth && !rqEth v then 8
  else if rqBytes v < h.length then 7
  else if 256 ≤ x.hub.msgsIn.length then 6
  else if x.slotFull v h.msg then 6
  else if rqSignal v ≠ 0 ∧ x.isDue h = false then 9
  else 0

/-- Send a MAIL_ACK to a rank (09 Table 09-10): a response-lane train by route table. -/
def State.ackMail (s : State) (c : Ch) (rank status queue msg next : Nat) : State :=
  let x := s.ch c
  match x.hub.routePort rank with
  | some p =>
    s.sendMailOn c p 1 0x84 rank (fun _ => AckHead.bytes
      { dstRank := rank, srcRank := x.rank, status := status, queue := queue, msg := msg, nextFrag := next }) 0 [] []
  | none => s

/-- Does a queue belong to the yard, because an image with a YARD section is loaded (10 R260)? -/
def Chan.yardQueue (x : Chan) (q : Nat) : Bool :=
  match x.run.image with
  | some i => i.hasYard && i.yq == q
  | none => false

/-- Is a message in progress the one of a head? -/
def MsgIn.isOf (m : MsgIn) (h : MailHead) : Bool := m.srcRank == h.srcRank && m.queue == h.queue && m.msg == h.msg

/-- The message is whole: the completion record is written and SIGNAL posted once (09 R243). -/
def State.mailWhole (s : State) (c : Ch) (p : Pt) (h : MailHead) : State :=
  let v := (s.ch c).hub.queueRec h.queue
  let rec32 := bytesOfNat 4 h.msg ++ bytesOfNat 4 h.length ++ bytesOfNat 4 h.tag ++ bytesOfNat 2 h.srcRank ++ bytesOfNat 1 1 ++ zeros 17
  let s := s.onHub c (fun g => { g with msgsIn := g.msgsIn.filter (fun m => !m.isOf h) })
  let s := s.outsiderWrite c (rqCpl v + 32 * rqSlot v h.msg) rec32 [] (0x0410 + p.val) 6
  if rqSignal v ≠ 0 then s.addSignal c 0 (rqSignal v) 1 else s

/-- Take a train of an accepted message: fragments from NEXT_FRAG on are written to the slot (09 R242). -/
def State.takeFrags (s : State) (c : Ch) (p : Pt) (h : MailHead) (next : Nat) (data : List Byte) (poisoned : List Nat) : State :=
  let total := ceilDiv h.length 256
  let last := h.fragFirst + ceilDiv data.length 256
  if next < h.fragFirst ∨ last ≤ next ∨ total < last then s.ackMail c h.srcRank 0 h.queue h.msg next
  else
    let v := (s.ch c).hub.queueRec h.queue
    let a := rqBase v + rqSlot v h.msg * rqBytes v + 256 * next
    let part := data.drop (256 * (next - h.fragFirst))
    let bad := (poisoned.filter (fun i => decide (next ≤ h.fragFirst + i))).map (fun i => a / 256 + (h.fragFirst + i - next))
    let s := s.outsiderWrite c a part bad (0x0410 + p.val) 6
    let s := if last = total then s.mailWhole c p h
      else s.onHub c (fun g => { g with msgsIn := g.msgsIn.map (fun m => if m.isOf h then { m with nextFrag := last } else m) })
    s.ackMail c h.srcRank 0 h.queue h.msg last

/-- A mail train for a receive queue (09 R242, R243): of a message in progress, or the first of one, which is checked. -/
def State.takeMail (s : State) (c : Ch) (p : Pt) (h : MailHead) (data : List Byte) (poisoned : List Nat) : State :=
  let x := s.ch c
  match x.hub.msgsIn.find? (fun m => m.isOf h) with
  | some m => ((s.takeFrags c p h m.nextFrag data poisoned).touch c).settle c
  | none =>
    let st := x.mailStatus h (x.hub.ports[p].mode != 0)
    if st ≠ 0 then s.ackMail c h.srcRank st h.queue h.msg 0
    else
      let m : MsgIn := { srcRank := h.srcRank, queue := h.queue, msg := h.msg, length := h.length, tag := h.tag, nextFrag := 0 }
      (((s.onHub c (fun g => { g with msgsIn := g.msgsIn ++ [m] })).takeFrags c p h 0 data poisoned).touch c).settle c

/-! ### The sender (09 R244) -/

/-- TAG of a yard message (10 Table 10-6). -/
def yardTag (kind owner : Nat) : Nat := kind * 2 ^ 28 + owner * 2 ^ 17
/-- MSG of a yard message. -/
def yardMsg (seg chunk slot : Nat) : Nat := seg * 2 ^ 16 + chunk * 2 ^ 6 + slot

/-- Has the yard room for a further message in progress: at most 256 (10 R260)? -/
def Hub.yardRoom (h : Hub) : Bool := decide ((h.msgsOut.filter (fun m => m.yard.isSome)).length < 256)

/-- Start a message of the yard to its queue on another rank (10 R260): DST_LEG and DST_ITER 0. -/
def State.yardPost (s : State) (c : Ch) (i : Image) (dst tag msg : Nat) (data : List Byte) : State :=
  let n := (s.ch c).run.nextId
  let h : MailHead :=
    { dstRank := dst, srcRank := (s.ch c).rank, queue := i.yq, hops := 8, dstLeg := 0, dstIter := 0, msg := msg
      length := data.length, fragFirst := 0, tag := tag }
  let m : MsgOut :=
    { id := n, src := 0, head := h, epoch := 0, acked := 0, sent := 0, progressAt := s.count, status := 0, statusAt := s.count
      triedAt := s.count, ways := [], yard := some data }
  ((s.onRun c (fun r => { r with nextId := n + 1 })).onHub c (fun g => { g with msgsOut := g.msgsOut ++ [m] })).mailPump c n

/-- Does a held credit permit a message? Credits of an owner's backup rank permit ROOT and COPY messages alike: the tree position does
not tell them apart (log entry 38). -/
def YardCredit.permits (q : YardCredit) (o : YardSend) : Bool :=
  q.peer == o.dst && q.seg == o.seg && q.owner == o.owner && q.chunk == o.chunk && (q.kind == o.kind || (q.kind == 4 && o.kind == 5))

/-- Send what the held credits permit, in order (10 R260, R261). -/
def State.yardPump (s : State) (c : Ch) : State :=
  match (s.ch c).run.image with
  | none => s
  | some i =>
    (s.ch c).yard.outbox.foldl (fun t o =>
      match (if (t.ch c).hub.yardRoom then (t.ch c).yard.held.find? (fun q => q.permits o) else none) with
      | none => t
      | some q =>
        (t.onYard c (fun y =>
          { y with held := y.held.erase q, outbox := y.outbox.erase o, creditWait := y.creditWait + (t.count - o.since)
                   progressAt := t.count })).yardPost c i o.dst (yardTag o.kind o.owner) (yardMsg o.seg o.chunk q.slot) o.data) s

/-- A status that Table 09-8 defines, for a free word. -/
def freeStatus (w : W32) : Nat := w.toNat % 10

/-- A message ends undelivered: logged, and the channel holds, but not for the yard's mail (10 R260). With no answer at all the entry's
STATUS is free among the codes that Table 09-8 defines (00 R9; log entry 37). -/
def State.undeliverable (s : State) (c : Ch) (m : MsgOut) (source : Nat) : State :=
  let n := s.freeNo
  let st := if m.status = 0 then freeStatus (Config.freeWord n) else m.status
  let s := if m.status = 0 then { s with freeNo := n + 1 } else s
  let ps : List Param := [(2, m.head.dstRank), (2, m.head.queue), (4, m.head.msg), (2, st)]
  let s := s.onHub c (fun h => { h with msgsOut := h.msgsOut.filter (fun g => g.id != m.id) })
  let s := s.log c source 0x0906 ps
  if m.yard.isSome then s.yardPump c else s.holdNow c 0x10f source (paramBytes ps)

/-- The SOURCE of an entry about mail to a rank: the port on the way there, or the first port. -/
def Hub.mailSource (h : Hub) (rank : Nat) : Nat := 0x0410 + (match h.routePort rank with | some p => p.val | none => 0)

/-- MAIL_ACK (09 R244). -/
def execMailAck (c : Ch) (p : Pt) (h : AckHead) (s : State) : Host.Outcome State Fault Refusal :=
  .next (if h.dstRank ≠ (s.ch c).rank then s
    else
      s.onTrain c p 1 0 [] (fun s =>
        match (s.ch c).hub.msgsOut.find? (fun m => m.head.dstRank == h.srcRank && m.head.queue == h.queue && m.head.msg == h.msg) with
        | none => s
        | some m =>
          if h.status = 0 then
            if m.frags ≤ h.nextFrag then
              let s := s.onHub c (fun g => Hub.closeFences { g with msgsOut := g.msgsOut.filter (fun n => n.id != m.id) })
              ((s.yardPump c).touch c).settle c
            else
              let gain := decide (m.acked < h.nextFrag)
              let s := s.onHub c (fun g => g.onMsg m.id (fun m =>
                { m with status := 0, acked := h.nextFrag, sent := max m.sent h.nextFrag
                         progressAt := if gain then s.count else m.progressAt, triedAt := if gain then s.count else m.triedAt }))
              s.mailPump c m.id
          else if h.status = 6 ∨ h.status = 9 then
            s.onHub c (fun g => g.onMsg m.id (fun m => { m with status := h.status, statusAt := s.count, acked := h.nextFrag }))
          else if h.status = 7 ∨ h.status = 8 then (s.undeliverable c { m with status := h.status } (0x0410 + p.val)).settle c
          else s))

/-- Send a message again from the last NEXT_FRAG received. -/
def State.resendMail (s : State) (c : Ch) (m : MsgOut) : State :=
  (s.onHub c (fun h =>
    { h.onMsg m.id (fun m => { m with sent := m.acked, triedAt := s.count, status := 0, ways := [] }) with
      mailResends := h.mailResends + 1 })).mailPump c m.id

/-- MAIL_TIMEOUT (09 R244): no acknowledgement progress for MAIL_TIMEOUT. -/
def execMailTimeout (c : Ch) (slot : Nat) (s : State) : Host.Outcome State Fault Refusal :=
  .next (match (s.ch c).hub.msgsOut[slot]? with
    | some m =>
      if (s.ch c).serves && m.status == 0 && s.after (max m.progressAt m.triedAt) (s.ch c).hub.mailTimeout then s.resendMail c m else s
    | none => s)

/-- MAIL_RETRY (09 R244): MAIL_RETRY after MAIL_BUSY or MAIL_NOT_DUE. -/
def execMailRetry (c : Ch) (slot : Nat) (s : State) : Host.Outcome State Fault Refusal :=
  .next (match (s.ch c).hub.msgsOut[slot]? with
    | some m =>
      if (s.ch c).serves && (m.status == 6 || m.status == 9) && s.after m.statusAt (s.ch c).hub.mailRetry then s.resendMail c m else s
    | none => s)

/-- The operations to a rank that have no path. -/
def Hub.pathless (h : Hub) (rank : Nat) : List PartnerOp := h.ops.filter (fun o => o.noPathAt.isSome && h.opRank o == rank)

/-- PARTNER_TIMEOUT (09 R239, R244): number `slot` among the operations or the messages; the yard's mail is excepted (10 R260). -/
def execPartnerTimeout (c : Ch) (mail : Bool) (slot : Nat) (s : State) : Host.Outcome State Fault Refusal :=
  let x := s.ch c
  let h := x.hub
  .next (if !x.serves then s
    else if mail then
      match h.msgsOut[slot]? with
      | some m => if m.yard.isNone && s.after m.progressAt h.partnerTimeout then (s.undeliverable c m (h.mailSource m.head.dstRank)).settle c else s
      | none => s
    else
      match h.ops[slot]? with
      | some o =>
        match o.noPathAt with
        | some t =>
          if s.after t h.partnerTimeout then
            let rank := h.opRank o
            let lost := h.pathless rank
            let ps : List Param := [(2, rank), (4, (lost.head?.getD o).seq)]
            let s := s.onHub c (fun g => Hub.closeFences
              { g with ops := g.ops.filter (fun q => !lost.any (fun l => l.port == q.port && l.seq == q.seq)) })
            (((s.log c (0x0410 + o.port) 0x0903 ps).holdNow c 0x10d (0x0410 + o.port) (paramBytes ps)).settle c)
          else s
        | none => s
      | none => s)

/-! ### Forwarding (09 R241) -/

/-- The head granule that a forwarded part begins with: a mail head with one hop less, or the response's own head. -/
def forwardHead (lane : Nat) (h : MailHead) (data : List Byte) (off : Nat) : List Byte :=
  if lane = 2 then
    MailHead.bytes { h with hops := h.hops - 1, fragFirst := h.fragFirst + off / 256 }
  else data.take 32

/-- FORWARD (09 R241): a mail-lane train (lane 2), or a response-lane train (lane 1, whose `data` begins with its head granule), for
another rank. In a poisoned train's way onto an Ethernet port stands a consumer; the address it logs is a free value (log entry 37). -/
def execForward (c : Ch) (p : Pt) (lane op : Nat) (h : MailHead) (data : List Byte) (poisoned : List Nat) (s : State) :
    Host.Outcome State Fault Refusal :=
  let payload := if lane = 2 then data else data.drop 32
  .next (if h.dstRank = (s.ch c).rank ∨ ¬(lane = 1 ∨ lane = 2) then s
    else
      s.onTrain c p lane 0 payload (fun s =>
        if lane = 2 ∧ h.hops = 0 then
          (s.onHub c (fun g => { g with mailHops := g.mailHops + 1 })).log c (0x0410 + p.val) 0x0908
            [(2, h.dstRank), (2, h.srcRank), (4, h.msg)]
        else
          match (s.ch c).hub.routePort h.dstRank with
          | none => s
          | some q =>
            if (s.ch c).hub.ports[q].mode ≠ 0 ∧ poisoned ≠ [] then
              let n := s.freeNo
              let t := { s with freeNo := n + 1 }
              t.consumePoison c ((Config.freeWord n).toNat * 256) (0x0410 + q.val)
            else s.sendMailOn c q lane op h.dstRank (forwardHead lane h data) 0 payload poisoned))

/-! ### Ethernet mode (09 R245, 12 R296) -/

/-- DISCARDED_FRAME (09 R245). -/
def execDiscardedFrame (c : Ch) (p : Pt) (s : State) : Host.Outcome State Fault Refusal :=
  .next (
    let q := (s.ch c).hub.ports[p]
    if (s.ch c).serves && q.mode != 0 && q.linkState == 2 then s.onPort c p (fun q => { q with ethDiscards := q.ethDiscards + 1 })
    else s)

/-- NEIGHBOUR_SOLICITATION (09 R245, 12 R296): answered for the own address of a port, or of the management Ethernet. -/
def execNeighbourSolicitation (port : Option (Ch × Pt)) (target : List Byte) (s : State) : Host.Outcome State Fault Refusal :=
  .next (match port with
    | some e =>
      let q := (s.ch e.1).hub.ports[e.2]
      if (s.ch e.1).serves && q.mode != 0 && q.linkState == 2 && q.ipv6 == target then s.send (.advert target) else s
    | none =>
      if s.smReady && (target == Config.linkLocal || (s.m.mgmtIpv6 != zeros 16 && target == s.m.mgmtIpv6)) then
        s.send (.advert target)
      else s)

end Sys2Proof.Machine
end

