-- ==== Sys2Proof/Machine/Yard.lean ====
section
/-! DEFINITION. The marshalling yard: ranks, owners and slices, the tree, credits, what it sends, and what it writes (10 R249 to R254,
R260 to R267). -/

namespace Sys2Proof.Machine

/-! ### Ranks and owners (10 R249) -/

/-- Modules of the run. -/
def Image.modules (i : Image) : Nat := max 1 (ceilDiv i.rankCount 4)

/-- The module that module `m` backs; none for a primary module. -/
def Image.backs (i : Image) (m : Nat) : Option Nat :=
  let v := i.backupMap.getD m 0xffff
  if v = 0xffff then none else some v

/-- The leaf rank of a rank. -/
def Image.leafRank (i : Image) (r : Nat) : Nat :=
  match i.backs (r / 4) with
  | some m => 4 * m + r % 4
  | none => r

/-- The leaf module of a module. -/
def Image.leafMod (i : Image) (m : Nat) : Nat := (i.backs m).getD m

/-- The primary modules. -/
def Image.primaryMods (i : Image) : List Nat := (List.range i.modules).filter (fun m => (i.backs m).isNone)

/-- The owners: the primary ranks, in order. -/
def Image.owners (i : Image) : List Nat := (List.range i.rankCount).filter (fun r => (i.backs (r / 4)).isNone)

/-- The owner index of a rank. -/
def Image.ownerIndex (i : Image) (rank : Nat) : Nat := i.owners.idxOf rank

/-- The module that backs module `m`. -/
def Image.backupOf (i : Image) (m : Nat) : Option Nat := (List.range i.modules).find? (fun b => i.backs b == some m)

/-- The backup rank of an owner. -/
def Image.backupRank (i : Image) (owner : Nat) : Option Nat := (i.backupOf (owner / 4)).map (fun b => 4 * b + owner % 4)

/-! ### Segments and chunks (10 R250, R258, R260) -/

/-- GRAD_ADDR. -/
def sgGrad (v : Nat) : Nat := bits v 511 464
/-- ACC_ADDR. -/
def sgAcc (v : Nat) : Nat := bits v 463 416
/-- SUM_ADDR. -/
def sgSum (v : Nat) : Nat := bits v 415 368
/-- OWN_ADDR. -/
def sgOwn (v : Nat) : Nat := bits v 367 320
/-- PCOPY_ADDR. -/
def sgCopy (v : Nat) : Nat := bits v 319 272
/-- OFFSET. -/
def sgOffset (v : Nat) : Nat := bits v 271 232
/-- ELEMS. -/
def sgElems (v : Nat) : Nat := bits v 231 200
/-- GG. -/
def sgGG (v : Nat) : Nat := bits v 199 196
/-- GC. -/
def sgGC (v : Nat) : Gauge := (Gauge.ofCode (bits v 195 192)).getD .fp32

/-- A segment record. -/
def Image.seg (i : Image) (n : Nat) : Nat := i.segs.getD n 0
/-- The slice length of a segment. -/
def Image.sliceLen (i : Image) (n : Nat) : Nat := sgElems (i.seg n) / i.owners.length
/-- Elements of a whole chunk. -/
def Image.chunkLen (i : Image) : Nat := i.chunkKib * 256
/-- The chunk number of the statistics record (10 R266). -/
def statsChunk : Nat := 0x3ff
/-- Chunks of a slice. -/
def Image.chunks (i : Image) (n : Nat) : List Nat := List.range (ceilDiv (i.sliceLen n) i.chunkLen)
/-- Elements of a chunk. -/
def Image.chunkElems (i : Image) (n ch : Nat) : Nat := min i.chunkLen (i.sliceLen n - ch * i.chunkLen)
/-- Does the slice of an owner carry the statistics record? -/
def Image.hasStats (i : Image) (n owner : Nat) : Bool := i.statsSeg == n && i.ownerIndex owner == 0
/-- The chunks that travel for a slice. -/
def Image.travels (i : Image) (n owner : Nat) : List Nat :=
  i.chunks n ++ (if i.hasStats n owner then [statsChunk] else [])

/-! ### Places of the nodes (10 R253, Table 10-1) -/

/-- The channel of the level-1 node of a pair of channels, 0 for channels 0 and 1, for a slice whose owner sits on channel `h`. -/
def nodeCh (h pair : Nat) : Nat := if pair = 0 then [0, 1, 1, 0].getD h 0 else [3, 2, 2, 3].getD h 0

/-- The channel of the level-1 node that channel `q`'s leaf goes to. -/
def leafCh (q h : Nat) : Nat := nodeCh h (q / 2)

/-- Height of the tree. -/
def Image.height (i : Image) : Nat := Nat.clog 2 i.rankCount

/-- Is position `j` of level `l` present: does it cover a primary rank (10 R251)? On a module, backup modules evaluate their leaf
module's positions. -/
def Image.present (i : Image) (l j : Nat) : Bool := i.owners.any (fun r => decide (j * 2 ^ l ≤ r ∧ r < (j + 1) * 2 ^ l))

/-- The channel number that a rank has within its module (10 Table 10-1, log entry 38). -/
def chanOf (rank : Nat) : Nat := rank % 4

/-! ### Values (10 R251, R266) -/

/-- FP32 words of a message. -/
def words32 (bs : List Byte) : List W32 := tab (bs.length / 4) (fun i => BitVec.ofNat 32 (field bs (4 * i) 4))
/-- The words of a LEAF message, widened. -/
def words16 (bs : List Byte) : List W32 := tab (bs.length / 2) (fun i => BitVec.ofNat 32 (field bs (2 * i) 2 * 65536))
/-- The bytes of FP32 words. -/
def bytes32 (ws : List W32) : List Byte := ws.flatMap (fun w => bytesOfNat 4 w.toNat)
/-- The bytes of a leaf: its BF16 codes. -/
def leafBytes (ws : List W32) : List Byte := ws.flatMap (fun w => bytesOfNat 2 (w.toNat / 65536))

/-- Combine one layer's statistics: the larger I16 and the OR of the flags. -/
def combineStat (a b : W32) : W32 :=
  let x := signedOf 16 (a.toNat % 65536)
  let y := signedOf 16 (b.toNat % 65536)
  BitVec.ofNat 32 (codeOf 16 (max x y)) + (((a ||| b) >>> 16) &&& 1) * 65536

/-- Add two values of a node, or combine two statistics records. -/
def addNode (ch : Nat) (a b : List W32) : List W32 := List.zipWith (if ch = statsChunk then combineStat else add32) a b

/-- The statistics record of a watch (10 R266). -/
def statsWords (w : Watch) : List W32 :=
  tab 4096 (fun l =>
    let e := Tab.get (none, false) w.stats l
    let v : Int := match e.1 with | some x => x | none => -32768
    BitVec.ofNat 32 (codeOf 16 v + if e.2 then 65536 else 0))

/-- The statistics that a record holds. -/
def statsOf (bs : List Byte) : Tab (Option Int × Bool) :=
  (words32 bs).zipIdx.foldl (fun t e =>
    let v := signedOf 16 (e.1.toNat % 65536)
    Tab.put (none, false) t e.2 (if v = -32768 then none else some v, e.1.getLsbD 16)) []

/-! ### Slots, credits and sending (10 R260, R261) -/

/-- The lowest free slot. -/
def Yard.freeSlot (y : Yard) : Option Nat := (List.range 64).find? (fun n => !y.slots.contains n)

/-- Free a slot. -/
def Yard.free (y : Yard) (slot : Option Nat) : Yard :=
  match slot with
  | some n => { y with slots := y.slots.filter (· != n) }
  | none => y

/-- Keep a node's value; one that waits for its sibling takes a slot. -/
def Yard.keep (y : Yard) (v : NodeVal) : Yard :=
  match v.slot, y.freeSlot with
  | none, some n => { y with slots := n :: y.slots, vals := y.vals ++ [{ v with slot := some n }] }
  | _, _ => { y with vals := y.vals ++ [v] }

/-- A value of a node. -/
def Yard.val? (y : Yard) (seg owner chunk level pos : Nat) : Option NodeVal :=
  y.vals.find? (fun v => v.seg == seg && v.owner == owner && v.chunk == chunk && v.level == level && v.pos == pos)

/-- Forget a value and free its slot. -/
def Yard.drop (y : Yard) (v : NodeVal) : Yard :=
  ({ y with vals := y.vals.filter (fun u =>
      !(u.seg == v.seg && u.owner == v.owner && u.chunk == v.chunk && u.level == v.level && u.pos == v.pos)) }).free v.slot

/-- Does the yard wait for a message or a credit (10 R264)? -/
def Yard.waits (y : Yard) : Bool := !y.issued.isEmpty || !y.outbox.isEmpty

/-- A data message waits for its credit, and goes when it has it. -/
def State.yardSend (s : State) (c : Ch) (dst kind seg owner chunk : Nat) (data : List Byte) : State :=
  (s.onYard c (fun y =>
    { y with outbox := y.outbox ++ [{ dst := dst, kind := kind, seg := seg, owner := owner, chunk := chunk, data := data,
                                      since := s.count }]
             progressAt := if y.waits then y.progressAt else s.count })).yardPump c

/-! ### Yard cars (10 R248, R256) -/

/-- A yard car has completed: its post is to be made. -/
def State.yardDone (s : State) (c : Ch) (q : YardCar) : State :=
  let t := (s.onYard c (fun y => { y with cars := y.cars.filter (fun u => u.id != q.id) })).progress c
  match q.post with
  | some sig => t.onRun c (fun r => { r with posts := r.posts ++ [{ id := q.id, cl := q.cl, sig := sig }] })
  | none => t

/-- DELIVER: once the root of every chunk of the slice is there, the sums are written (10 R256). -/
def State.tryDeliver (s : State) (c : Ch) (i : Image) : State :=
  let owner := i.leafRank (s.ch c).rank
  ((s.ch c).yard.cars.filter (fun q => q.func == 1)).foldl (fun t q =>
    let y := (t.ch c).yard
    let mine := y.roots.filter (fun v => v.seg == q.seg && v.owner == owner)
    if (i.chunks q.seg).all (fun ch => mine.any (fun v => v.chunk == ch)) then
      let t := mine.foldl (fun t v => t.depotStore c (sgSum (i.seg q.seg) + 4 * v.chunk * i.chunkLen) (bytes32 v.vals)) t
      (t.onYard c (fun y =>
        { y with roots := y.roots.filter (fun v => !(v.seg == q.seg && v.owner == owner)), delivered := y.delivered ++ [q.seg] })).yardDone
        c q
    else t) s

/-- Has a slice's chunk been written to PCOPY_ADDR? -/
def Yard.written (y : Yard) (seg owner chunk : Nat) : Bool := y.slices.contains (seg, (owner, chunk))

/-- The segment whose last contribution ends an exchange interval: STATS_SEG, or the last one (10 R266, R269). -/
def Image.intervalSeg (i : Image) : Nat := if i.statsSeg = 0xffffffff then i.segs.length - 1 else i.statsSeg

/-- With a rank count of 1 and no segment that carries statistics the local statistics serve (05 R131; log entry 36). -/
def Image.localStats (i : Image) : Bool := i.rankCount == 1 && i.statsSeg == 0xffffffff

/-- AWAIT: once every slice, and the statistics record of STATS_SEG, has been written (10 R256, R266, R269). -/
def State.tryAwait (s : State) (c : Ch) (i : Image) : State :=
  ((s.ch c).yard.cars.filter (fun q => q.func == 3)).foldl (fun t q =>
    let y := (t.ch c).yard
    let stats := i.statsSeg == q.seg
    if i.owners.all (fun w => (i.chunks q.seg).all (fun ch => y.written q.seg w ch)) && (!stats || !y.statsRec.isEmpty) then
      let t := if stats then
          (t.depotStore c i.statsAddr (fitBytes 16384 y.statsRec)).onWatch c (fun w => { w with combined := some (statsOf y.statsRec) })
        else if i.localStats then
          t.onWatch c (fun w => if q.seg = i.intervalSeg then { w with combined := w.interval, interval := none } else w)
        else t
      let counted := stats || (i.statsSeg == 0xffffffff && q.seg + 1 == i.segs.length)
      (t.onYard c (fun y =>
        { y with slices := y.slices.filter (fun e => e.1 != q.seg), statsRec := if stats then [] else y.statsRec
                 exchanges := if counted then (y.exchanges + 1) % 2 ^ 32 else y.exchanges })).yardDone c q
    else t) s

/-! ### Copies of the parameters (10 R254, R258) -/

/-- Where `n` elements from element `e` on lie in an extent of `total` elements of a gauge: code address and bytes, scale address and
bytes (04 R96). -/
def extentParts (g : Gauge) (base total e n : Nat) : List (Nat × Nat) :=
  (base + e * g.bitsPer / 8, n * g.bitsPer / 8) ::
    (if g.narrow then [(base + ceilDiv (total * g.bitsPer / 8) 32 * 32 + e / 32, n / 32)] else [])

/-- Write parts of a byte string to the places of an extent. -/
def State.storeParts (s : State) (c : Ch) (parts : List (Nat × Nat)) (bs : List Byte) : State :=
  (parts.foldl (fun (t : State × List Byte) p => (t.1.depotStore c p.1 (fitBytes p.2 t.2), t.2.drop p.2)) (s, bs)).1

/-- Write a chunk of an owner's slice at its place in PCOPY_ADDR. -/
def State.putCopy (s : State) (c : Ch) (i : Image) (seg owner chunk : Nat) (bs : List Byte) : State :=
  let s := if chunk = statsChunk then s.onYard c (fun y => { y with statsRec := bs })
    else
      let v := i.seg seg
      let e := i.ownerIndex owner * i.sliceLen seg + chunk * i.chunkLen
      (s.storeParts c (extentParts (sgGC v) (sgCopy v) (sgElems v) e (i.chunkElems seg chunk)) bs).onYard c (fun y =>
        { y with slices := y.slices ++ [(seg, (owner, chunk))] })
  s.tryAwait c i

/-- The ranks of this module to which a rank passes a slice on, for an owner on channel `h`: the transfers of Table 10-1 reversed. -/
def spreadTo (rank h : Nat) : List Nat :=
  let q := chanOf rank
  let base := rank / 4 * 4
  let n0 := nodeCh h 0
  let n1 := nodeCh h 1
  let sib := fun n => if n < 2 then 1 - n else 5 - n
  if q = h then [base + (if q = n0 then n1 else n0), base + sib q]
  else if q = n0 ∨ q = n1 then [base + sib q]
  else []

/-- The ranks of this module that exist. -/
def Image.exists? (i : Image) (r : Nat) : Bool := decide (r < i.rankCount)

/-- Pass a chunk of a slice on within the module. -/
def State.passOn (s : State) (c : Ch) (i : Image) (seg owner chunk : Nat) (bs : List Byte) : State :=
  (((spreadTo (s.ch c).rank (chanOf owner)).filter i.exists?)).foldl (fun t r => t.yardSend c r 6 seg owner chunk bs) s

/-- The owner sends a chunk of its slice to the heads of the other modules and within its own (10 R254). -/
def State.publishChunk (s : State) (c : Ch) (i : Image) (seg chunk : Nat) (bs : List Byte) : State :=
  let owner := (s.ch c).rank
  let heads := ((List.range i.modules).filter (fun m => m != owner / 4)).map (fun m => 4 * m + chanOf owner)
  let s := heads.foldl (fun t r => t.yardSend c r 5 seg owner chunk bs) s
  s.passOn c i seg owner chunk bs

/-! ### The tree (10 R251, R253, R262, R267) -/

/-- Change a chunk's state at its owner. -/
def Yard.onChunk (y : Yard) (seg owner chunk : Nat) (f : ChunkState → ChunkState) : Yard :=
  let mine := fun (q : ChunkState) => q.seg == seg && q.owner == owner && q.chunk == chunk
  if y.chunks.any mine then { y with chunks := y.chunks.map (fun q => if mine q then f q else q) }
  else { y with chunks := y.chunks ++ [f { seg := seg, owner := owner, chunk := chunk, due := none, running := none, added := [], summed := false }] }

/-- The root of a chunk, its sum complete: a sum goes to DELIVER and to the owner's backup rank; a statistics record is published once its slice has
been (10 R250, R254, R266). -/
def State.yardRoot (s : State) (c : Ch) (i : Image) (seg chunk : Nat) (ws : List W32) : State :=
  let owner := (s.ch c).rank
  let s := s.onYard c (fun y => y.onChunk seg owner chunk (fun q => { q with summed := true }))
  if chunk = statsChunk then
    let bs := bytes32 ws
    let s := s.onYard c (fun y => { y with statsRec := bs })
    if (s.ch c).yard.written seg owner 0 then (s.publishChunk c i seg chunk bs).tryAwait c i else s
  else
    let s := s.onYard c (fun y =>
      { y with roots := y.roots ++ [{ seg := seg, owner := owner, chunk := chunk, level := i.height, pos := 0, vals := ws, slot := none }] })
    let s := match i.backupRank owner with
      | some r => s.yardSend c r 4 seg owner chunk (bytes32 ws)
      | none => s
    s.tryDeliver c i

/-- A chunk's state at its owner. -/
def Yard.chunk? (y : Yard) (seg owner chunk : Nat) : Option ChunkState :=
  y.chunks.find? (fun q => q.seg == seg && q.owner == owner && q.chunk == chunk)

/-- The owner takes the level-2 value of a leaf module: into the tree, or in RELAXED mode into the running sum (10 R251, R267). -/
def State.useValue (s : State) (c : Ch) (i : Image) (seg chunk lm : Nat) (ws : List W32) (slot : Option Nat) : State :=
  let owner := (s.ch c).rank
  if (s.ch c).watch.detMode = 0 then
    s.onYard c (fun y => y.keep { seg := seg, owner := owner, chunk := chunk, level := 2, pos := lm, vals := ws, slot := slot })
  else
    let q := (s.ch c).yard.chunk? seg owner chunk
    let sum := match q.bind (·.running) with | some r => addNode chunk r ws | none => ws
    let n := (match q with | some q => q.added.length | none => 0) + 1
    let s := s.onYard c (fun y => (y.free slot).onChunk seg owner chunk (fun q => { q with running := some sum, added := lm :: q.added }))
    if n = i.primaryMods.length then s.yardRoot c i seg chunk sum else s

/-- Is a copy one of a chunk and a leaf module? -/
def QuadCopy.isOf (q : QuadCopy) (seg owner chunk lm : Nat) : Bool :=
  q.seg == seg && q.owner == owner && q.chunk == chunk && q.leafMod == lm

/-- Mark a copy used and take its slot from it. -/
def Yard.markUsed (y : Yard) (q : QuadCopy) : Yard :=
  { y with quads := y.quads.map (fun u => if u = q then { u with used := true, slot := none } else u) }

/-- Use a backup copy, `after` counts after the deadline (10 R262, Table 10-9). -/
def State.useBackup (s : State) (c : Ch) (i : Image) (q : QuadCopy) (after : Nat) : State :=
  let s := s.onYard c (fun y => { y.markUsed q with backupsUsed := y.backupsUsed + 1 })
  let s := s.log c 0x0400 0x0a01 [(2, q.seg), (2, q.owner), (2, q.chunk), (2, q.leafMod), (4, after)]
  s.useValue c i q.seg q.chunk q.leafMod (words32 q.data) q.slot

/-- A backup copy that is complete is used for a primary that is not, once both the deadline and the copy's own count have passed: a
primary that completes in that very count is still preferred (10 R262; log entry 38). -/
def State.deadlineUse (s : State) (c : Ch) (i : Image) (seg chunk lm due : Nat) : State :=
  let mine := (s.ch c).yard.quads.filter (fun q => q.isOf seg (s.ch c).rank chunk lm)
  if mine.any (·.used) then s
  else
    match mine.find? (fun q => q.fromMod != lm && decide (max due q.doneAt < s.count)) with
    | some q => s.useBackup c i q (max due q.doneAt - due)
    | none => s

/-- The first granule whose waybills differ (10 R263). -/
def firstDiffer (a b : List Byte) : Option Nat :=
  (List.range (ceilDiv (max a.length b.length) 256)).find? (fun g =>
    crc32c ((a.drop (256 * g)).take 256) != crc32c ((b.drop (256 * g)).take 256))

/-- Compare the two copies of a leaf module once both are complete, and free the slot of the one not used (10 R263). -/
def State.compareCopies (s : State) (c : Ch) (seg chunk lm : Nat) : State :=
  let mine := (s.ch c).yard.quads.filter (fun q => q.isOf seg (s.ch c).rank chunk lm)
  match mine.find? (fun q => q.fromMod == lm), mine.find? (fun q => q.fromMod != lm) with
  | some a, some b =>
    let s := s.onYard c (fun y =>
      let y := (y.free a.slot).free b.slot
      { y with quads := y.quads.map (fun q => if q.isOf seg (s.ch c).rank chunk lm then { q with slot := none } else q) })
    match firstDiffer a.data b.data with
    | none => s
    | some g =>
      let ps : List Param := [(2, seg), (2, a.owner), (2, chunk), (2, lm), (2, b.fromMod), (2, g)]
      (s.onYard c (fun y =>
        { y with divergences := y.divergences + 1
                 diverged := y.diverged ++ [(seg, paramBytes ps)] })).log c 0x0400 0x0a02 ps
  | _, _ => s

/-- A copy that has completed is kept, and a primary is used at once when no copy has been (10 R262). -/
def State.useCopy (s : State) (c : Ch) (i : Image) (q : QuadCopy) : State :=
  let used := (s.ch c).yard.quads.any (fun p => p.isOf q.seg q.owner q.chunk q.leafMod && p.used)
  let s := s.onYard c (fun y => { y with quads := y.quads ++ [q] })
  if !used && q.fromMod == q.leafMod then
    (s.onYard c (fun y => y.markUsed q)).useValue c i q.seg q.chunk q.leafMod (words32 q.data) q.slot
  else s

/-- A copy of a leaf module's level-2 value is complete at the owner (10 R262, R263): from module `m`, which is the leaf module or its
backup. -/
def State.copyDone (s : State) (c : Ch) (i : Image) (seg chunk m : Nat) (data : List Byte) (slot : Option Nat) : State :=
  let owner := (s.ch c).rank
  let lm := i.leafMod m
  if (i.backupOf lm).isNone then s.useValue c i seg chunk lm (words32 data) slot
  else
    let s := match ((s.ch c).yard.chunk? seg owner chunk).bind (·.due) with
      | some d => s.deadlineUse c i seg chunk lm d
      | none => s
    let q : QuadCopy :=
      { seg := seg, owner := owner, chunk := chunk, leafMod := lm, fromMod := m, data := data, used := false, doneAt := s.count
        slot := slot }
    (s.useCopy c i q).compareCopies c seg chunk lm

/-- The value of node (level, pos) of an owner's chunk has been formed in this yard: it stays for its sibling, goes to the next node's
yard, or is the root (10 R253). -/
def State.placeNode (s : State) (c : Ch) (i : Image) (seg owner chunk level pos : Nat) (ws : List W32) : State :=
  let rank := (s.ch c).rank
  let h := chanOf owner
  let keep := fun (t : State) => t.onYard c (fun y =>
    y.keep { seg := seg, owner := owner, chunk := chunk, level := level, pos := pos, vals := ws, slot := none })
  if level = i.height ∧ level ≤ 2 then s.yardRoot c i seg chunk ws
  else if level = 0 then
    let n := leafCh (chanOf rank) h
    if chanOf rank = n then
      s.onYard c (fun y => { y with vals := y.vals ++
        [{ seg := seg, owner := owner, chunk := chunk, level := 0, pos := pos, vals := ws, slot := none }] })
    else s.yardSend c (rank / 4 * 4 + n) 1 seg owner chunk (if chunk = statsChunk then bytes32 ws else leafBytes ws)
  else if level = 1 then
    if chanOf rank = h then keep s else s.yardSend c (rank / 4 * 4 + h) 2 seg owner chunk (bytes32 ws)
  else if level = 2 then
    if rank = owner then s.copyDone c i seg chunk (rank / 4) (bytes32 ws) none
    else s.yardSend c owner 3 seg owner chunk (bytes32 ws)
  else if level = i.height then s.yardRoot c i seg chunk ws
  else keep s

/-! ### Credits to issue (10 R261) -/

/-- The sources of a chunk that this rank credits, in leaf order, a backup module's copy after its primary's. -/
def Image.reduceFrom (i : Image) (rank owner : Nat) : List (Nat × Nat) :=
  let q := chanOf rank
  let h := chanOf owner
  let base := rank / 4 * 4
  let n0 := nodeCh h 0
  let n1 := nodeCh h 1
  let sib := fun n => if n < 2 then 1 - n else 5 - n
  if i.rankCount < 2 then []
  else
    let leaf := if q = n0 ∨ q = n1 then [(base + sib q, 1)] else []
    let pair := if q = h then [(base + (if q = n0 then n1 else n0), 2)] else []
    let inMod := if q = n0 then leaf ++ pair else pair ++ leaf
    let all := if rank = owner then
        i.primaryMods.flatMap (fun m =>
          (if m = owner / 4 then inMod else [(4 * m + h, 3)]) ++
            (match i.backupOf m with | some b => [(4 * b + h, 3)] | none => []))
      else inMod
    all.filter (fun e => i.exists? e.1)

/-- The senders of an owner's slice to this rank: ROOT, COPY and SPREAD. -/
def Image.gatherFrom (i : Image) (rank owner chunk : Nat) : List (Nat × Nat) :=
  let h := chanOf owner
  let base := rank / 4 * 4
  let root := if i.backupRank owner = some rank ∧ chunk ≠ statsChunk then [(owner, 4)] else []
  if rank = owner then root
  else if chanOf rank = h ∧ rank / 4 ≠ owner / 4 then root ++ [(owner, 5)]
  else
    root ++ (((List.range 4).filter (fun q => (spreadTo (base + q) h).contains rank)).map (fun q => (base + q, 6)))

/-- The credits for messages of some kinds that a segment asks of this rank, in consumption order. -/
def Image.creditsFor (i : Image) (rank seg : Nat) (kinds : List Nat) : List YardCredit :=
  i.owners.flatMap (fun w => (i.travels seg w).flatMap (fun ch =>
    ((i.reduceFrom rank w ++ i.gatherFrom rank w ch).filter (fun (p : Nat × Nat) => kinds.contains p.2)).map (fun (p : Nat × Nat) =>
      ({ peer := p.1, kind := p.2, seg := seg, owner := w, chunk := ch, slot := 0 } : YardCredit))))

/-- The order of consumption: SEG, then OWNER, then CHUNK (10 R261). -/
def Image.creditBefore (i : Image) (a b : YardCredit) : Bool :=
  decide (a.seg < b.seg ∨ (a.seg = b.seg ∧ (i.ownerIndex a.owner < i.ownerIndex b.owner ∨
    (i.ownerIndex a.owner = i.ownerIndex b.owner ∧ a.chunk < b.chunk))))

/-- Put a credit to issue in its place, after those of the same chunk. -/
def Image.placeCredit (i : Image) (l : List YardCredit) (q : YardCredit) : List YardCredit :=
  l.takeWhile (fun e => !i.creditBefore q e) ++ q :: l.dropWhile (fun e => !i.creditBefore q e)

/-- The credits for messages of some kinds of a segment join those to be issued: for LEAF, PAIR and QUAD when the leaves enter the tree,
for ROOT with the DELIVER car and for COPY and SPREAD with the AWAIT car that wait for them (log entry 38). -/
def State.askCredits (s : State) (c : Ch) (i : Image) (seg : Nat) (kinds : List Nat) : State :=
  let rank := (s.ch c).rank
  s.onYard c (fun y =>
    { y with toCredit := (i.creditsFor rank seg kinds).foldl i.placeCredit y.toCredit
             progressAt := if y.waits then y.progressAt else s.count })

end Sys2Proof.Machine
end

