-- ==== Sys2Proof/Machine/YardCars.lean ====
section
/-! DEFINITION. Yard cars: CONTRIBUTE, DELIVER, PUBLISH and AWAIT (10 R252, R255 to R257, R266). -/

namespace Sys2Proof.Machine

/-- AMODE. -/
def Car.amode (x : Car) : Nat := Car.get x 90 89
/-- SEG. -/
def Car.segNo (x : Car) : Nat := Car.get x 88 73

/-- The condition that makes a yard car invalid (10 R257, 06 R152, R172, 05 R115). -/
def yardInvalid (i : Image) (cl : Cluster) (car : Car) : Option Nat :=
  if !Car.commonOk car then some 0
  else if 3 < Car.func car ∨ (Car.func car ≠ 0 ∧ Car.amode car ≠ 0) then some 1
  else if Car.get car 72 0 ≠ 0 then some 2
  else if i.hasYard = false ∨ i.segs.length ≤ Car.segNo car then some 3
  else if Car.func car = 0 ∧ Car.amode car ≠ 0 ∧ sgAcc (i.seg (Car.segNo car)) = 0 then some 4
  else if cl.span.isSome then some 5
  else if i.flags.testBit 1 then some 6
  else none

/-- A yard car of a function at the read point: checked, then its wait; the yard holds 64 cars (10 R248, 06 R159). -/
def State.yardCar (s : State) (w : At) (func amode : Nat) (body : Image → Car → State → State) : State :=
  s.readPoint w.ch w.cl (fun car t =>
    if Car.cls car ≠ 5 then none
    else
      match (t.ch w.ch).run.image with
      | none => none
      | some i =>
        let cl := t.cluster w.ch w.cl
        match yardInvalid i cl car with
        | some row => some (t.carInvalid w.ch w.cl car cl.pos row)
        | none =>
          if Car.func car ≠ func ∨ Car.amode car ≠ amode ∨ 64 ≤ (t.ch w.ch).yard.cars.length then none
          else (t.commonWait w.ch w.cl car).map (body i car))

/-- The yard takes a car that completes later: the read point passes it. -/
def State.holdCar (s : State) (w : At) (car : Car) : State :=
  let nid := (s.pass w.ch w.cl).newId w.ch
  let q : YardCar :=
    { id := nid.1, cl := w.cl, func := Car.func car, seg := Car.segNo car, post := if Car.postEn car then some (Car.postSig car) else none }
  (nid.2.onYard w.ch (fun y => { y with cars := y.cars ++ [q] })).issued w.ch

/-! ### CONTRIBUTE (10 R252, R256) -/

/-- Bytes of GRAD_ADDR. -/
def gradBytes (v : Nat) : Nat := sgElems v * (if sgGG v = 0 then 4 else 2)

/-- g of an element: widened exactly, a NaN canonical (10 R256, 02 R48). -/
def gradAt (m : Memory) (v j : Nat) : W32 :=
  canon32 (if sgGG v = 0 then BitVec.ofNat 32 (m.nat (sgGrad v + 4 * j) 4) else BitVec.ofNat 32 (m.nat (sgGrad v + 2 * j) 2 * 65536))

/-- acc of an element. -/
def accAt (m : Memory) (v j : Nat) : W32 := BitVec.ofNat 32 (m.nat (sgAcc v + 4 * j) 4)

/-- The address of a poisoned granule among what a CONTRIBUTE reads; the yard is a consumer (16 Table 16-2). -/
def contributePoison (m : Memory) (v : Nat) (acc : Bool) : Option Nat :=
  match m.poisonIn (sgGrad v) (gradBytes v) with
  | some a => some a
  | none => if acc then m.poisonIn (sgAcc v) (4 * sgElems v) else none

/-- START or ADD: the accumulator takes the widened gradient, or its sum with it. -/
def State.accumulate (s : State) (w : At) (i : Image) (car : Car) (add : Bool) : State :=
  let c := w.ch
  let v := i.seg (Car.segNo car)
  let m := (s.ch c).mem
  match contributePoison m v add with
  | some a => s.consumePoison c a 0x0400
  | none =>
    let ws := tab (sgElems v) (fun j => if add then add32 (accAt m v j) (gradAt m v j) else gradAt m v j)
    (s.depotStore c (sgAcc v) (bytes32 ws)).passPost c w.cl car

/-- The leaf of a segment element: narrowed to BF16 by SR with the ticket of R252, with the counts, and widened again. -/
def leafOf (d : Draw) (leafRank off : Nat) (v : W32) (j : Nat) : W32 × Counts :=
  let u := d.u16 0x10000002 (leafRank * 2 ^ 40 + (off + j))
  let r := narrowOne .bf16 (.sr u) (decode32 v)
  (BitVec.ofNat 32 (r.1 * 65536), r.2)

/-- FINAL or ONLY: the leaves of every slice enter the tree, and with STATS_SEG the watch's statistics; the credits that the segment
asks of this rank join those to be issued (10 R256, R261, R266; log entry 38). -/
def State.enterLeaves (s : State) (w : At) (i : Image) (car : Car) (final : Bool) : State :=
  let c := w.ch
  let n := Car.segNo car
  let v := i.seg n
  let x := s.ch c
  let m := x.mem
  match contributePoison m v final with
  | some a => s.consumePoison c a 0x0400
  | none =>
    let d := x.draw x.run.leg
    let lr := i.leafRank x.rank
    let ls := tab (sgElems v) (fun j =>
      leafOf d lr (sgOffset v) (if final then add32 (accAt m v j) (gradAt m v j) else gradAt m v j) j)
    let counts := ls.foldl (fun a e => a.add e.2) ({} : Counts)
    let stats := statsWords x.watch
    let s := s.onWatch c (fun g =>
      { g with totals := g.totals.add counts
               stats := if i.statsSeg = n ∨ (i.localStats = true ∧ i.intervalSeg = n) then [] else g.stats
               interval := if i.localStats = true ∧ i.intervalSeg = n then some g.stats else g.interval })
    let s := s.askCredits c i n [1, 2, 3]
    let s := i.owners.foldl (fun t o => (i.travels n o).foldl (fun t ch =>
      let ws := if ch = statsChunk then stats
        else ((ls.drop (i.ownerIndex o * i.sliceLen n + ch * i.chunkLen)).take (i.chunkElems n ch)).map (·.1)
      t.placeNode c i n o ch 0 lr ws) t) s
    s.passPost c w.cl car

/-- CONTRIBUTE START (10 R256). -/
def execContributeStart (w : At) (s : State) : Host.Outcome State Fault Refusal :=
  let s := s.meet w
  .next (s.yardCar w 0 1 (fun i car t => t.accumulate w i car false))

/-- CONTRIBUTE ADD (10 R256). -/
def execContributeAdd (w : At) (s : State) : Host.Outcome State Fault Refusal :=
  let s := s.meet w
  .next (s.yardCar w 0 2 (fun i car t => t.accumulate w i car true))

/-- CONTRIBUTE FINAL (10 R256). -/
def execContributeFinal (w : At) (s : State) : Host.Outcome State Fault Refusal :=
  let s := s.meet w
  .next (s.yardCar w 0 3 (fun i car t => t.enterLeaves w i car true))

/-- CONTRIBUTE ONLY (10 R256). -/
def execContributeOnly (w : At) (s : State) : Host.Outcome State Fault Refusal :=
  let s := s.meet w
  .next (s.yardCar w 0 0 (fun i car t => t.enterLeaves w i car false))

/-! ### DELIVER, PUBLISH, AWAIT (10 R254, R256) -/

/-- DELIVER (10 R256): a backup rank credits the owner's ROOT messages. -/
def execDeliver (w : At) (s : State) : Host.Outcome State Fault Refusal :=
  let s := s.meet w
  .next (s.yardCar w 1 0 (fun i car t => ((t.holdCar w car).askCredits w.ch i (Car.segNo car) [4]).tryDeliver w.ch i))

/-- The bytes of a chunk of OWN_ADDR: codes, then scale bytes. -/
def ownChunk (m : Memory) (i : Image) (n ch : Nat) : List Byte :=
  let v := i.seg n
  (extentParts (sgGC v) (sgOwn v) (i.sliceLen n) (ch * i.chunkLen) (i.chunkElems n ch)).flatMap (fun p => m.read p.1 p.2)

/-- The first poisoned granule of OWN_ADDR. -/
def ownPoison (m : Memory) (i : Image) (n : Nat) : Option Nat :=
  let v := i.seg n
  (extentParts (sgGC v) (sgOwn v) (i.sliceLen n) 0 (i.sliceLen n)).findSome? (fun p => m.poisonIn p.1 p.2)

/-- PUBLISH (10 R254, R256): the owner reads its slice, writes it to its own PCOPY_ADDR and sends it; the statistics record goes with
owner 0's slice once it is there. A backup rank does nothing. -/
def execPublish (w : At) (s : State) : Host.Outcome State Fault Refusal :=
  let s := s.meet w
  let c := w.ch
  .next (s.yardCar w 2 0 (fun i car t =>
    let rank := (t.ch c).rank
    let n := Car.segNo car
    if i.leafRank rank ≠ rank then t.passPost c w.cl car
    else
      match ownPoison (t.ch c).mem i n with
      | some a => t.consumePoison c a 0x0400
      | none =>
        let m := (t.ch c).mem
        let t := (i.chunks n).foldl (fun t ch =>
          let bs := ownChunk m i n ch
          (t.putCopy c i n rank ch bs).publishChunk c i n ch bs) t
        let st := (t.ch c).yard.statsRec
        let t := if i.hasStats n rank && !st.isEmpty then t.publishChunk c i n statsChunk st else t
        t.passPost c w.cl car))

/-- AWAIT (10 R256): the slices that other ranks own are credited. -/
def execAwait (w : At) (s : State) : Host.Outcome State Fault Refusal :=
  let s := s.meet w
  .next (s.yardCar w 3 0 (fun i car t => ((t.holdCar w car).askCredits w.ch i (Car.segNo car) [5, 6]).tryAwait w.ch i))

end Sys2Proof.Machine
end

