-- ==== Sys2Proof/Machine/YardMail.lean ====
section
/-! DEFINITION. Yard mail: the data messages, credits, node evaluation, deadlines and the yard's timeout (10 R251, R253, R260 to
R267). -/

namespace Sys2Proof.Machine

/-! ### Data messages (10 R260, R261, 16 R364) -/

/-- The credit that a message comes against. -/
def YardCredit.isFor (q : YardCredit) (kind : Nat) (m : YardMsg) : Bool :=
  q.peer == m.srcRank && q.kind == kind && q.seg == m.seg && q.owner == m.owner && q.chunk == m.chunk && q.slot == m.slot

/-- The acknowledgement of a whole yard message. -/
def State.ackYard (s : State) (c : Ch) (m : YardMsg) (status : Nat) : State :=
  s.ackMail c m.srcRank status m.queue (yardMsg m.seg m.chunk m.slot) (if status = 0 then ceilDiv m.data.length 256 else 0)

/-- A yard message with no matching credit is refused and logged (10 R261, R265). -/
def State.uncredited (s : State) (c : Ch) (kind : Nat) (m : YardMsg) : State :=
  (s.log c 0x0400 0x0a04 [(2, m.srcRank), (4, yardTag kind m.owner), (4, yardMsg m.seg m.chunk m.slot)]).ackYard c m 8

/-- A poisoned yard message is not used (16 R364). -/
def State.poisonedYard (s : State) (c : Ch) (m : YardMsg) : State :=
  (s.log c 0x0400 0x100a [(2, m.srcRank), (2, m.seg), (2, m.chunk)]).ackYard c m 0

/-- The image whose yard serves, when the channel does. -/
def Chan.yardImage (x : Chan) : Option Image := if x.serves then x.run.image.filter (fun i => i.hasYard) else none

/-- A yard message arrives at a channel that serves: with no YARD section loaded it is refused (10 R265); `body` takes one for the yard's
queue. -/
def State.atYard (s : State) (c : Ch) (kind : Nat) (m : YardMsg) (body : Image → State → State) : State :=
  match (s.ch c).yardImage with
  | some i => if m.queue = i.yq then body i s else s
  | none => if (s.ch c).serves then s.uncredited c kind m else s

/-- A data message has arrived whole. One without a credit is refused; one for a chunk that the boundary has dropped is acknowledged and
discarded; a poisoned one counts as not arrived and keeps its credit; `body` takes any other with its slot. -/
def State.yardTake (s : State) (c : Ch) (kind : Nat) (m : YardMsg) (body : Image → Nat → State → State) : State :=
  s.atYard c kind m (fun i s =>
    let y := (s.ch c).yard
    match y.dropped.find? (fun q => q.isFor kind m) with
    | some _ => s.ackYard c m 0
    | none =>
      match y.issued.find? (fun q => q.isFor kind m) with
      | none => s.uncredited c kind m
      | some q =>
        if m.poisoned then s.poisonedYard c m
        else
          let t := s.onYard c (fun y => { y with issued := y.issued.erase q, progressAt := s.count })
          ((body i m.slot (t.ackYard c m 0)).touch c).settle c)

/-- The words of a partial. -/
def partialWords (ch : Nat) (bf16 : Bool) (bs : List Byte) : List W32 :=
  if ch ≠ statsChunk ∧ bf16 = true then words16 bs else words32 bs

/-- A BF16 leaf for a level-1 node. -/
def State.takeLeaf (s : State) (c : Ch) (m : YardMsg) : State :=
  s.yardTake c 1 m (fun i slot t => t.onYard c (fun y =>
    y.keep { seg := m.seg, owner := m.owner, chunk := m.chunk, level := 0, pos := i.leafRank m.srcRank
             vals := partialWords m.chunk true m.data, slot := some slot }))

/-- A level-1 value for a head. -/
def State.takePair (s : State) (c : Ch) (m : YardMsg) : State :=
  s.yardTake c 2 m (fun i slot t => t.onYard c (fun y =>
    y.keep { seg := m.seg, owner := m.owner, chunk := m.chunk, level := 1, pos := i.leafRank m.srcRank / 2
             vals := words32 m.data, slot := some slot }))

/-- A level-2 value for the owner: the first of a chunk starts its deadline clock; the copy is used, kept or compared. -/
def State.takeQuad (s : State) (c : Ch) (m : YardMsg) : State :=
  s.yardTake c 3 m (fun i slot t =>
    let d := t.count + (t.ch c).yard.deadline
    (t.onYard c (fun y => y.onChunk m.seg m.owner m.chunk (fun q => { q with due := some (q.due.getD d) }))).copyDone c i m.seg m.chunk
      (m.srcRank / 4) m.data (some slot))

/-- The sums of its owner's slice for a backup rank. -/
def State.takeRoot (s : State) (c : Ch) (m : YardMsg) : State :=
  s.yardTake c 4 m (fun i slot t =>
    (t.onYard c (fun y =>
      { y.free (some slot) with
        roots := y.roots ++ [{ seg := m.seg, owner := m.owner, chunk := m.chunk, level := i.height, pos := 0
                               vals := words32 m.data, slot := none }] })).tryDeliver c i)

/-- A chunk of a slice: it is written to PCOPY_ADDR and passed on within the module. -/
def State.takeSlice (s : State) (c : Ch) (kind : Nat) (m : YardMsg) : State :=
  s.yardTake c kind m (fun i slot t =>
    ((t.onYard c (fun y => y.free (some slot))).passOn c i m.seg m.owner m.chunk m.data).putCopy c i m.seg m.owner m.chunk m.data)

/-- LEAF (10 R260). -/
def execLeaf (c : Ch) (m : YardMsg) (s : State) : Host.Outcome State Fault Refusal := .next (s.takeLeaf c m)

/-- PAIR (10 R260). -/
def execPair (c : Ch) (m : YardMsg) (s : State) : Host.Outcome State Fault Refusal := .next (s.takePair c m)

/-- QUAD (10 R262). -/
def execQuad (c : Ch) (m : YardMsg) (s : State) : Host.Outcome State Fault Refusal := .next (s.takeQuad c m)

/-- ROOT (10 R260, R256). -/
def execRoot (c : Ch) (m : YardMsg) (s : State) : Host.Outcome State Fault Refusal := .next (s.takeRoot c m)

/-- COPY (10 R254). -/
def execYardCopy (c : Ch) (m : YardMsg) (s : State) : Host.Outcome State Fault Refusal := .next (s.takeSlice c 5 m)

/-- SPREAD (10 R254). -/
def execSpread (c : Ch) (m : YardMsg) (s : State) : Host.Outcome State Fault Refusal := .next (s.takeSlice c 6 m)

/-! ### Credits (10 R261) -/

/-- The kind of message that a rank sends to a peer for an owner's slice, by the tree position (10 R253, R254). -/
def Image.kindTo (i : Image) (rank peer owner : Nat) : Option Nat :=
  let q := chanOf rank
  let h := chanOf owner
  let base := rank / 4 * 4
  if rank = owner ∧ i.backupRank owner = some peer then some 4
  else if rank = owner ∧ peer / 4 ≠ rank / 4 ∧ chanOf peer = h then some 5
  else if peer = owner ∧ rank ≠ owner ∧ q = h then some 3
  else if (spreadTo rank h).any (fun r => r == peer) then some 6
  else if peer = base + leafCh q h ∧ q ≠ leafCh q h then some 1
  else if peer = base + h ∧ q ≠ h ∧ q = leafCh q h then some 2
  else none

/-- The right to send one data message; the kind follows from the tree position. -/
def State.takeCredit (s : State) (c : Ch) (m : YardMsg) : State :=
  s.atYard c 7 m (fun i s =>
    if m.poisoned then s.poisonedYard c m
    else
      let t := s.ackYard c m 0
      match i.kindTo (s.ch c).rank m.srcRank m.owner with
      | none => t
      | some kind =>
        let q : YardCredit := { peer := m.srcRank, kind := kind, seg := m.seg, owner := m.owner, chunk := m.chunk, slot := m.slot }
        (t.onYard c (fun y => { y with held := y.held ++ [q], progressAt := s.count })).yardPump c)

/-- CREDIT (10 R261). -/
def execCredit (c : Ch) (m : YardMsg) (s : State) : Host.Outcome State Fault Refusal := .next (s.takeCredit c m)

/-- May the next credit be issued: a head credits its children only when it holds the credit for its own output. -/
def Yard.mayCredit (y : Yard) (rank : Nat) (q : YardCredit) : Bool :=
  chanOf rank != chanOf q.owner || rank == q.owner || decide (3 ≤ q.kind) ||
    y.held.any (fun h => h.kind == 3 && h.peer == q.owner && h.seg == q.seg && h.owner == q.owner && h.chunk == q.chunk)

/-- Issue a credit: a CREDIT message of 32 zero bytes; the slot that its message will take is taken. Another message against the same
credit is no longer one that a boundary dropped. -/
def State.issueCredit (s : State) (c : Ch) (i : Image) (q : YardCredit) : State :=
  (s.onYard c (fun y =>
    { y with toCredit := y.toCredit.tail, slots := q.slot :: y.slots, issued := y.issued ++ [q], dropped := y.dropped.filter (· != q)
             progressAt := if y.waits then y.progressAt else s.count })).yardPost c i q.peer (yardTag 7 q.owner)
    (yardMsg q.seg q.chunk q.slot) (zeros 32)

/-- YARD_CREDIT (10 R261): the next credit in consumption order, while more than 12 slots remain free. -/
def execYardCredit (c : Ch) (s : State) : Host.Outcome State Fault Refusal :=
  .next (
    let x := s.ch c
    match x.yardImage, x.yard.toCredit, x.yard.freeSlot with
    | some i, q :: _, some n =>
      if 12 < 64 - x.yard.slots.length ∧ x.yard.mayCredit x.rank q = true ∧ x.hub.yardRoom = true then s.issueCredit c i { q with slot := n }
      else s
    | _, _, _ => s)

/-! ### Nodes, deadlines, timeout -/

/-- Does this rank's yard evaluate a node of an owner's slice, and in this mode (10 R253, R267)? -/
def Chan.evaluates (x : Chan) (i : Image) (owner level pos : Nat) : Bool :=
  let q := chanOf x.rank
  let h := chanOf owner
  let lm := i.leafMod (x.rank / 4)
  if level = 1 then decide (pos / 2 = lm ∧ q = nodeCh h (pos % 2))
  else if level = 2 then decide (pos = lm ∧ q = h)
  else x.rank == owner && decide (level ≤ i.height) && x.watch.detMode == 0

/-- NODE_EVALUATION (10 R251): both inputs are available, or one is and the other is absent. -/
def execNodeEvaluation (c : Ch) (seg owner chunk level pos : Nat) (s : State) : Host.Outcome State Fault Refusal :=
  .next (
    let x := s.ch c
    match x.yardImage with
    | none => s
    | some i =>
      if level = 0 ∨ i.height < level ∨ x.evaluates i owner level pos = false then s
      else
        let a := x.yard.val? seg owner chunk (level - 1) (2 * pos)
        let b := x.yard.val? seg owner chunk (level - 1) (2 * pos + 1)
        let aIn := level ≤ 2 || i.present (level - 1) (2 * pos)
        let bIn := level ≤ 2 || i.present (level - 1) (2 * pos + 1)
        let out := match a, b with
          | some u, some v => some (addNode chunk u.vals v.vals, [u, v])
          | some u, none => if aIn && !bIn then some (u.vals, [u]) else none
          | none, some v => if bIn && !aIn then some (v.vals, [v]) else none
          | none, none => none
        match out with
        | none => s
        | some e =>
          (((s.onYard c (fun y => e.2.foldl Yard.drop y)).placeNode c i seg owner chunk level pos e.1).touch c).settle c)

/-- DEADLINE (10 R262). -/
def execDeadline (c : Ch) (seg owner chunk m : Nat) (s : State) : Host.Outcome State Fault Refusal :=
  .next (
    let x := s.ch c
    match (if owner = x.rank then x.yardImage else none) with
    | none => s
    | some i =>
      match (x.yard.chunk? seg owner chunk).bind (·.due) with
      | some d => ((s.deadlineUse c i seg chunk m d).touch c).settle c
      | none => s)

/-- What the yard awaits, by segment, owner index, chunk and rank. -/
def Yard.awaited (y : Yard) (i : Image) : List (Nat × Nat × Nat × Nat) :=
  y.issued.map (fun q => (q.seg, i.ownerIndex q.owner, q.chunk, q.peer)) ++
    y.outbox.map (fun o => (o.seg, i.ownerIndex o.owner, o.chunk, o.dst))

/-- The order of consumption, then of ranks. -/
def awaitBefore (a b : Nat × Nat × Nat × Nat) : Bool :=
  decide (a.1 < b.1 ∨ (a.1 = b.1 ∧ (a.2.1 < b.2.1 ∨ (a.2.1 = b.2.1 ∧
    (a.2.2.1 < b.2.2.1 ∨ (a.2.2.1 = b.2.2.1 ∧ a.2.2.2 ≤ b.2.2.2))))))

/-- The first of some awaited messages. -/
def firstAwaited : List (Nat × Nat × Nat × Nat) → Option (Nat × Nat × Nat × Nat)
  | [] => none
  | a :: l =>
    match firstAwaited l with
    | some b => if awaitBefore a b then some a else some b
    | none => some a

/-- YARD_TIMEOUT (10 R264). -/
def execYardTimeout (c : Ch) (s : State) : Host.Outcome State Fault Refusal :=
  .next (
    let x := s.ch c
    match (if x.serves && x.yard.timeout != 0 && s.after x.yard.progressAt x.yard.timeout then x.run.image else none) with
    | none => s
    | some i =>
      match firstAwaited (x.yard.awaited i) with
      | none => s
      | some a =>
        let ps : List Param := [(2, a.1), (2, i.owners.getD a.2.1 0), (2, a.2.2.1), (2, a.2.2.2)]
        ((s.onYard c (fun y => { y with progressAt := s.count })).log c 0x0400 0x0a03 ps).holdNow c 0x111 0x0400 (paramBytes ps))

/-! ### Trains to the yard's queue (10 R260, 09 R242) -/

/-- KIND of a mail head's TAG. -/
def yardKind (h : MailHead) : Nat := bits h.tag 31 28

/-- The yard message that a mail head names (10 Table 10-6). -/
def yardMsgOf (h : MailHead) (data : List Byte) (poisoned : Bool) : YardMsg :=
  { srcRank := h.srcRank, queue := h.queue, seg := bits h.msg 31 16, owner := bits h.tag 27 17, chunk := bits h.msg 15 6
    slot := bits h.msg 5 0, data := data, poisoned := poisoned }

/-- A yard message of a kind; a reserved kind matches no credit. -/
def State.yardMessage (s : State) (c : Ch) (kind : Nat) (m : YardMsg) : State :=
  match kind with
  | 1 => s.takeLeaf c m
  | 2 => s.takePair c m
  | 3 => s.takeQuad c m
  | 4 => s.takeRoot c m
  | 5 => s.takeSlice c 5 m
  | 6 => s.takeSlice c 6 m
  | 7 => s.takeCredit c m
  | _ => s.uncredited c kind m

/-- The message in progress that a train belongs to; the first train starts one when a credit permits it and fewer than 256 are in
progress. With no such message, the status of the answer. -/
def Yard.arrival (y : Yard) (h : MailHead) : YardIn ⊕ Nat :=
  match y.arriving.find? (fun a => a.srcRank == h.srcRank && a.msg == h.msg && a.tag == h.tag) with
  | some a => .inl a
  | none =>
    if yardKind h != 7 && !y.issued.any (fun q => q.isFor (yardKind h) (yardMsgOf h [] false)) then .inr 8
    else if 256 ≤ y.arriving.length then .inr 6
    else .inl { srcRank := h.srcRank, tag := h.tag, msg := h.msg, length := h.length, nextFrag := 0, data := [], poisoned := false }

/-- The yard without a message in progress. -/
def Yard.forget (y : Yard) (a : YardIn) : Yard :=
  { y with arriving := y.arriving.filter (fun b => !(b.srcRank == a.srcRank && b.msg == a.msg && b.tag == a.tag)) }

/-- A mail train to the yard's queue: its fragments from NEXT_FRAG on join those of its message, which takes effect when it is whole. -/
def State.yardTrain (s : State) (c : Ch) (h : MailHead) (data : List Byte) (poisoned : List Nat) : State :=
  let kind := yardKind h
  let total := ceilDiv h.length 256
  let last := h.fragFirst + ceilDiv data.length 256
  let y := (s.ch c).yard
  match y.dropped.find? (fun q => q.isFor kind (yardMsgOf h [] false)) with
  | some _ => s.ackMail c h.srcRank 0 h.queue h.msg total
  | none =>
    match y.arrival h with
    | .inr st => if st = 8 then s.uncredited c kind (yardMsgOf h [] false) else s.ackMail c h.srcRank st h.queue h.msg 0
    | .inl a =>
      if a.nextFrag < h.fragFirst ∨ last ≤ a.nextFrag ∨ total < last then s.ackMail c h.srcRank 0 h.queue h.msg a.nextFrag
      else
        let a := { a with
          nextFrag := last, data := a.data ++ data.drop (256 * (a.nextFrag - h.fragFirst))
          poisoned := a.poisoned || poisoned.any (fun i => decide (a.nextFrag ≤ h.fragFirst + i)) }
        let s := s.onYard c (fun y => y.forget a)
        if last = total then s.yardMessage c kind (yardMsgOf h a.data a.poisoned)
        else (s.onYard c (fun y => { y with arriving := y.arriving ++ [a], progressAt := s.count })).ackMail c h.srcRank 0 h.queue h.msg last

/-- MAIL (09 R242, R243): a train for another rank is FORWARD's; the yard receives its own queue (10 R260). -/
def execMail (c : Ch) (p : Pt) (h : MailHead) (data : List Byte) (poisoned : List Nat) (s : State) : Host.Outcome State Fault Refusal :=
  .next (if h.dstRank ≠ (s.ch c).rank then s
    else s.onTrain c p 2 0 data (fun s =>
      if (s.ch c).yardQueue h.queue then s.yardTrain c h data poisoned else s.takeMail c p h data poisoned))

end Sys2Proof.Machine
end

