-- ==== Sys2Proof/Machine/Load.lean ====
section
/-! DEFINITION. Timetable images: the checks of a load in the order of Table 06-3, the contents a load writes, and what a load leaves
(06 R141 to R148, R154, R155, R164, 05 R117, 07 R173, R174, 08 R202, R203, R205, R209, R210, 10 R258, R259). -/

namespace Sys2Proof.Machine

/-! ### The staged image -/

/-- An image as staged: the channel's memory and the image's address. -/
structure Staging where
  mem : Memory
  base : Nat

/-- A little-endian field of the staged image. -/
def Staging.nat (g : Staging) (o n : Nat) : Nat := g.mem.nat (g.base + o) n
/-- Bytes of the staged image. -/
def Staging.bytes (g : Staging) (o n : Nat) : List Byte := g.mem.read (g.base + o) n
/-- FLAGS. -/
def Staging.flags (g : Staging) : Nat := g.nat 6 2
/-- SIGNED. -/
def Staging.signed (g : Staging) : Bool := g.flags.testBit 0
/-- FORWARD_ONLY. -/
def Staging.forwardOnly (g : Staging) : Bool := g.flags.testBit 1
/-- REGION_MASK. -/
def Staging.mask (g : Staging) : Nat := g.nat 8 4
/-- RANK_COUNT. -/
def Staging.ranks (g : Staging) : Nat := g.nat 16 4
/-- LEG_COUNT. -/
def Staging.legs (g : Staging) : Nat := g.nat 20 1
/-- IMAGE_LENGTH. -/
def Staging.length (g : Staging) : Nat := g.nat 40 8
/-- Bytes of the signature trailer (06 R146). -/
def Staging.trailer (g : Staging) : Nat := if g.signed then 16 + g.nat (g.length + 2) 2 else 0

/-- An entry of the section table: OFFSET, LENGTH, TYPE (06 R142). -/
structure Section where
  off : Nat
  len : Nat
  typ : Nat
  deriving DecidableEq, Repr

/-- The used entries of the section table. -/
def Staging.sections (g : Staging) : List Section :=
  (tab 8 (fun i => 64 + 16 * i)).filterMap (fun o =>
    if g.nat o 16 = 0 then none else some { off := g.nat o 8, len := g.nat (o + 8) 6, typ := g.nat (o + 14) 1 })

/-- The section of a type. -/
def Staging.sec? (g : Staging) (t : Nat) : Option Section := g.sections.find? (fun e => e.typ == t)

/-! ### Header, digest, signature, sections (06 Table 06-1, R142, R146) -/

/-- LOAD_FORMAT: a header field outside Table 06-1 (log entry 13 for a length below 256). -/
def Staging.formatOk (g : Staging) : Bool :=
  let lad := g.nat 12 2
  let legs := g.legs
  let se := g.nat 24 8
  g.nat 0 4 == 0x56545431 && decide (0x0100 ≤ g.nat 4 2 ∧ g.nat 4 2 ≤ 0x01ff) && decide (g.flags < 4) &&
    decide (g.mask < 2 ^ 24) && lad % 16 == 6 && (lad / 16 % 16 == 4 || lad / 16 % 16 == 5) && lad / 256 == 0x12 &&
    g.nat 14 2 == 0 && decide (1 ≤ legs ∧ legs ≤ 64) && g.nat 21 3 == 0 && se.testBit (legs - 1) && decide (se < 2 ^ legs) &&
    g.length % 256 == 0 && decide (256 ≤ g.length ∧ g.base + g.length ≤ boardEnd) && g.nat 56 8 == 0 &&
    (List.range 8).all (fun i => g.nat (64 + 16 * i + 15) 1 == 0)

/-- The digest of the image with bytes 192 to 255 taken as zero (06 Table 06-1). -/
def Staging.digest (g : Staging) : List Byte := shake256 (g.bytes 0 192 ++ zeros 64 ++ g.bytes 256 (g.length - 256))

/-- LOAD_SIGNATURE: the trailer verifies under the owner key (06 R146, 17 R391). -/
def Staging.signatureOk (g : Staging) (owner : List Byte) : Bool :=
  let o := g.length
  let n := g.nat (o + 2) 2
  g.nat o 2 == 1 && decide (1 ≤ n ∧ n ≤ 1280) && g.nat (o + 12) 4 == 0 && owner != zeros 1793 &&
    g.bytes (o + 4) 8 == keyId owner && Config.falconVerify owner (g.bytes 192 64) (g.bytes (o + 16) n)

/-- LOAD_SECTION (06 R142, Table 06-2). -/
def Staging.sectionsOk (g : Staging) : Bool :=
  let l := g.sections
  l.all (fun e => decide (1 ≤ e.typ ∧ e.typ ≤ 7) && e.off % 256 == 0 && decide (256 ≤ e.off ∧ e.off + e.len ≤ g.length)) &&
    decide (l.Pairwise (fun a b => a.typ ≠ b.typ ∧ overlaps a.off a.len b.off b.len = false)) &&
    (g.sec? 1).isSome && (g.sec? 6).isSome &&
    (decide (g.ranks ≤ 1) || g.forwardOnly || (g.sec? 3).isSome)

/-! ### Consists (06 R143, R154, R155, R164, 05 R117) -/

/-- The layer records of the WATCH section. -/
def Staging.layers (g : Staging) : List Nat :=
  match g.sec? 7 with
  | some e => tab (e.len / 64) (fun i => g.nat (e.off + 64 * i) 64)
  | none => []

/-- A consist's place in the channel: address of its first car and number of cars. -/
def Staging.consist (g : Staging) (k : Nat) : Nat × Nat :=
  match g.sec? 1 with
  | some e => (g.base + e.off + g.nat (e.off + 16 * k) 8, g.nat (e.off + 16 * k + 8) 4)
  | none => (0, 0)

/-- A car of a staged consist. -/
def Staging.car (g : Staging) (k i : Nat) : Car := BitVec.ofNat 128 (g.mem.nat ((g.consist k).1 + 16 * i) 16)

/-- What the scan of a consist remembers: the next leg, the open loops, and the layer and loop depth of an open span. -/
structure Scan where
  leg : Nat
  loops : Nat
  span : Option (Nat × Nat)
  deriving DecidableEq, Repr

/-- A control car uses only the bits of its FUNC (06 R154, Table 06-7). -/
def controlOk (car : Car) : Bool :=
  Car.get car 123 95 == 0 &&
    (match Car.func car with
     | 0 => Car.get car 84 0 == 0
     | 1 => Car.get car 66 0 == 0
     | 2 => Car.get car 90 0 == 0
     | 3 => Car.get car 54 0 == 0
     | 4 => Car.get car 90 0 == 0
     | _ => false)

/-- A MARK may open a span (06 R164). -/
def markOk (car : Car) (watched : Nat → Bool) : Bool :=
  let lo := Car.get car 78 67
  let hi := Car.get car 66 55
  watched (Car.get car 90 79) && decide (lo ≤ hi) && (decide (hi < 256) || decide (256 ≤ lo))

/-- Scan one car of a consist; `none` when the consist breaks its structure. -/
def scanCar (legs : Nat) (watched : Nat → Bool) (st : Scan) (car : Car) : Option Scan :=
  if Car.cls car = 6 then
    if !controlOk car then none
    else
      match Car.func car with
      | 0 => if Car.get car 90 85 = st.leg ∧ st.leg < legs ∧ st.loops = 0 ∧ st.span = none then
          some { st with leg := st.leg + 1 } else none
      | 1 => if st.leg ≠ 0 ∧ st.loops < 8 then some { st with loops := st.loops + 1 } else none
      | 2 =>
        let floor := match st.span with | some p => p.2 | none => 0
        if floor < st.loops then some { st with loops := st.loops - 1 } else none
      | 3 => if st.leg ≠ 0 ∧ st.span = none ∧ markOk car watched = true then
          some { st with span := some (Car.get car 90 79, st.loops) } else none
      | _ => if st.leg ≠ 0 then some st else none
  else if st.leg = 0 then none
  else if Car.cls car = 7 then
    match st.span with
    | some p => if Car.func car = 0 ∧ Car.get car 90 79 = p.1 ∧ st.loops = p.2 then some { st with span := none } else none
    | none => if Car.func car = 0 then none else some st
  else some st

/-- Scan `n` cars of a consist from car `i`. -/
def Staging.scan (g : Staging) (legs : Nat) (watched : Nat → Bool) (k : Nat) : Nat → Nat → Scan → Option Scan
  | 0, _, st => some st
  | n + 1, i, st =>
    match scanCar legs watched st (g.car k i) with
    | some t => g.scan legs watched k n (i + 1) t
    | none => none

/-- One consist of the directory (06 R143). -/
def Staging.consistOk (g : Staging) (e : Section) (watched : Nat → Bool) (k : Nat) : Bool :=
  let o := e.off + 16 * k
  let off := g.nat o 8
  let n := g.nat (o + 8) 4
  off % 16 == 0 && decide (n ≤ 2 ^ 28) && g.nat (o + 12) 4 == 0 &&
    (n == 0 ||
      (decide (off + 16 * n ≤ e.len) && g.mask.testBit (regionOf k) &&
        g.scan g.legs watched k n 0 { leg := 0, loops := 0, span := none } == some { leg := g.legs, loops := 0, span := none }))

/-- LOAD_CONSIST. -/
def Staging.consistsOk (g : Staging) : Bool :=
  match g.sec? 1 with
  | some e =>
    let ls := g.layers.map recLayer
    decide (6144 ≤ e.len) && (List.range 384).all (fun k => g.consistOk e (fun l => l != 0 && ls.contains l) k)
  | none => false

/-! ### The page map (08 R202, R203) -/

/-- The page entries of the MAP section. -/
def Staging.pages (g : Staging) : List Nat :=
  match g.sec? 6 with
  | some e => tab (g.nat e.off 4) (fun i => g.nat (e.off + 16 + 16 * i) 16)
  | none => []

/-- A page lies within one paged range. -/
def pageInside (e : Nat) : Bool :=
  let a := pageAddr e
  let z := zoneOf a
  (match z with | .region _ => false | .tender _ => false | .hole => false | _ => true) && zoneOf (a + pageSize e - 1) == z

/-- A page entry obeys R203; `far` is the far tier's addressable capacity, 0 while the far tier is absent. -/
def pageOk (far e : Nat) : Bool :=
  let z := zoneOf (pageAddr e)
  let window := match z with | .partner _ => true | _ => false
  let control := z == .control
  bits e 15 9 == 0 && bits e 1 0 == 0 && pageAddr e % pageSize e == 0 && pageInside e && (!pageRA e || pageR e) &&
    (!pageSE e || (!pageRA e && !pageC e)) && (!pageC e || !(window || control)) && (!control || (!pageWatch e && pageSE e)) &&
    (window || z == .host || pageTarget e == pageAddr e) && pageTarget e % pageSize e == 0 &&
    (z != .far || decide (pageAddr e + pageSize e ≤ farBase + far))

/-- The MAP section is well formed. -/
def Staging.mapOk (g : Staging) (far : Nat) : Bool :=
  match g.sec? 6 with
  | some e =>
    let n := g.nat e.off 4
    decide (1 ≤ n ∧ n ≤ 65536) && g.nat (e.off + 4) 12 == 0 && decide (16 + 16 * n ≤ e.len) &&
      g.pages.all (pageOk far) && decide (g.pages.Pairwise (fun a b => pageAddr a + pageSize a ≤ pageAddr b))
  | none => false

/-- Every page touched by a range of addresses meets a test. -/
def mapCovers (pages : List Nat) (a n : Nat) (ok : Nat → Bool) : Bool :=
  n == 0 || (List.range ((a + n - 1) / 2 ^ 21 - a / 2 ^ 21 + 1)).all (fun i =>
    let u := (a / 2 ^ 21 + i) * 2 ^ 21
    pages.any (fun e => decide (pageAddr e ≤ u ∧ u < pageAddr e + pageSize e) && ok e))

/-- LOAD_STAGING: the staged image and its trailer are mapped readable and not writable (06 R147). -/
def Staging.stagedOk (g : Staging) : Bool :=
  mapCovers g.pages g.base (g.length + g.trailer) (fun e => pageR e && !pageW e && pageTarget e == pageAddr e)

/-! ### CONST, WATCH and EXTENT (06 R144, R145, 08 R209, R210) -/

/-- Does a range lie wholly in region memory? -/
def inRegions (a n : Nat) : Bool := decide (a + n ≤ 24 * regionBytes)
/-- Does a range lie wholly in board memory? -/
def inBoard (a n : Nat) : Bool := decide (boardBase ≤ a ∧ a + n ≤ boardEnd)
/-- Does a range lie wholly in the tender windows? -/
def inTenders (a n : Nat) : Bool := decide (tenderBase ≤ a ∧ a + n ≤ tenderBase + 384 * tenderBytes)

/-- The data records of a stretch of the image: address, length and offset of the data; `none` when the stretch is not a whole number
of records. `fuel` bounds their number. -/
def Staging.records (g : Staging) : Nat → Nat → Nat → Option (List (Nat × Nat × Nat))
  | 0, _, _ => none
  | fuel + 1, o, n =>
    if n = 0 then some []
    else
      let dest := g.nat o 8
      let len := g.nat (o + 8) 4
      if n < 48 ∨ dest % 32 ≠ 0 ∨ len % 32 ≠ 0 ∨ len < 32 ∨ g.nat (o + 12) 4 ≠ 0 ∨ n < 16 + len then none
      else (g.records fuel (o + 16 + len) (n - 16 - len)).map ((dest, len, o + 16) :: ·)

/-- A data record may be written: it lies wholly in one kind of memory and off the staged image. -/
def Staging.recordOk (g : Staging) (r : Nat × Nat × Nat) : Bool :=
  (inRegions r.1 r.2.1 || inBoard r.1 r.2.1 || inTenders r.1 r.2.1) && !overlaps r.1 r.2.1 g.base g.length

/-- The records of the CONST section. -/
def Staging.consts (g : Staging) : Option (List (Nat × Nat × Nat)) :=
  match g.sec? 4 with
  | some e => g.records (e.len / 48 + 1) e.off e.len
  | none => some []

/-- A layer record obeys Table 05-2. -/
def layerOk (r : Nat) : Bool :=
  let half := fun v => decide (1 ≤ v ∧ v ≤ 16)
  recLayer r != 0 && bits r 255 128 == 0 && bits r 79 16 == 0 && bits r 5 0 == 0 && decide (recBase r ≤ 4) &&
    decide (recBase r ≤ recCeil r ∧ recCeil r ≤ 4) && half (bits r 287 280) && half (bits r 279 272)

/-- The WATCH section is well formed (06 R145). -/
def Staging.watchOk (g : Staging) : Bool :=
  match g.sec? 7 with
  | some e => e.len % 64 == 0 && g.layers.all layerOk && decide (g.layers.Pairwise (fun a b => recLayer a < recLayer b))
  | none => true

/-- The descriptors of the EXTENT section. -/
def Staging.descs (g : Staging) : List Nat :=
  match g.sec? 2 with
  | some e => tab (g.nat (e.off + 8) 4) (fun i => g.nat (e.off + 16 + 64 * i) 64)
  | none => []

/-- A descriptor that a load accepts (08 R209, R210). -/
def loadDescOk (d : Nat) : Bool :=
  let tender := fun a => decide (tenderBase ≤ a ∧ a < tenderBase + 384 * tenderBytes)
  !descBad d && !decide (1 ≤ dKib d ∧ dKib d < 16) && (dKib d != 0 || tender (dSrc d) || tender (dDst d))

/-- The EXTENT section is well formed. -/
def Staging.extentOk (g : Staging) : Bool :=
  match g.sec? 2 with
  | some e =>
    let t := g.nat e.off 8
    let n := g.nat (e.off + 8) 4
    t % 64 == 0 && inRegions t (64 * n) && decide (1 ≤ n ∧ n ≤ 2 ^ 20) && g.nat (e.off + 12) 4 == 0 &&
      decide (16 + 64 * n ≤ e.len) && g.descs.all loadDescOk
  | none => true

/-! ### WORLD (07 R173, R174) -/

/-- The header of the WORLD section obeys Table 07-1. -/
def Staging.worldHeadOk (g : Staging) (e : Section) : Bool :=
  let base := g.nat e.off 8
  let slots := g.nat (e.off + 8) 4
  let rd := g.nat (e.off + 12) 2
  let rings := g.nat (e.off + 14) 1
  let rb := g.nat (e.off + 16) 8
  let ro := g.nat (e.off + 24) 8
  decide (64 ≤ e.len) && base % 32 == 0 && inRegions base (32 * (slots + rings)) && decide (1 ≤ slots ∧ slots ≤ 16384) &&
    decide (rd ≤ 1024) && decide (rings ≤ 16) && g.nat (e.off + 15) 1 == 0 && rb % 32 == 0 && inRegions rb (32 * rd) &&
    inRegions rb 1 && ro % 16 == 0 && decide (64 + 32 * (slots + rings) ≤ ro ∧ ro ≤ e.len) && g.nat (e.off + 32) 32 == 0

/-- The data records of the WORLD section. -/
def Staging.worldRecords (g : Staging) : Option (List (Nat × Nat × Nat)) :=
  match g.sec? 5 with
  | some e =>
    let ro := g.nat (e.off + 24) 8
    g.records ((e.len - ro) / 48 + 1) (e.off + ro) (e.len - ro)
  | none => some []

/-- A slot record obeys Table 07-2 and its state extent lies in region memory. -/
def slotOk (v : Nat) : Bool :=
  bits v 111 104 == 0 && bits v 100 96 == 0 && bits v 15 0 == 0 && slAddr v % 32 == 0 && slLen v % 32 == 0 &&
    decide (32 ≤ slLen v ∧ slLen v ≤ 2 ^ 24) && inRegions (slAddr v) (slLen v)

/-- A reset descriptor obeys Table 07-6 and R184; `len` gives the state length it must name. -/
def rdescOk (m : Memory) (v : Nat) : Bool :=
  bits v 167 160 == 0 && bits v 111 0 == 0 && rdTemplate v % 32 == 0 && rdParamAddr v % 16 == 0 &&
    inOwn (rdTemplate v) (rdLen v) && inOwn (rdParamAddr v) (16 * rdParams v) &&
    (List.range (rdParams v)).all (fun j =>
      let p := m.nat (rdParamAddr v + 16 * j) 16
      bits p 23 0 == 0 && paramOk p (rdLen v))

/-- Do the ranges of a list share no byte? -/
def apart (l : List (Nat × Nat)) : Bool := decide (l.Pairwise (fun a b => overlaps a.1 a.2 b.1 b.2 = false))

/-- The memory that step 3 of the load leaves obeys R174; `s` is the machine with the new map in force. -/
def State.worldOk (s : State) (c : Ch) (i : Image) : Bool :=
  if !i.hasWorld then true
  else
    let m := (s.ch c).mem
    let slots := tab i.slots (fun n => m.nat (i.slotAt n) 32)
    let rings := tab i.rings (fun n => m.nat (i.ringAt n) 32)
    let states := slots.map (fun v => (slAddr v, slLen v))
    let rds := tab i.rdescs (fun n => m.nat (i.rdescAt n) 32)
    slots.all slotOk && apart states &&
      states.all (fun e => !overlaps e.1 e.2 i.slotBase (32 * (i.slots + i.rings)) &&
        rings.all (fun r => !overlaps e.1 e.2 (rgBase r) (rgBytes r))) &&
      (i.rdescs == 0 || slots.all (fun v => decide (slRdesc v < i.rdescs) && rdLen (rds.getD (slRdesc v) 0) == slLen v)) &&
      rings.all (fun r => s.ringOk c r) && rds.all (rdescOk m)

/-- A poisoned granule among the slots, rings, reset descriptors and parameter lists that the signal box reads (16 Table 16-2). -/
def Memory.worldPoison (m : Memory) (i : Image) : Option Nat :=
  if !i.hasWorld then none
  else
    let lists := tab i.rdescs (fun n => let v := m.nat (i.rdescAt n) 32; (rdParamAddr v, 16 * rdParams v))
    ((i.slotBase, 32 * (i.slots + i.rings)) :: (i.rdescBase, 32 * i.rdescs) :: lists).findSome? (fun r => m.poisonIn r.1 r.2)

/-! ### YARD (10 R258, R259) -/

/-- The segment records. -/
def Staging.segs (g : Staging) : List Nat :=
  match g.sec? 3 with
  | some e => tab (g.nat e.off 4) (fun i => g.nat (e.off + 1088 + 64 * i) 64)
  | none => []

/-- Does a range lie in the memory of required regions? -/
def inRequired (mask a n : Nat) : Bool :=
  inRegions a n && (List.range 24).all (fun r => mask.testBit r || !overlaps a n (r * regionBytes) regionBytes)

/-- Does a range lie in mapped memory of the channel that may be written? -/
def Image.mapWrites (i : Image) (a n : Nat) : Bool :=
  inRequired i.regionMask a n || inTenders a n ||
    ((inBoard a n || decide (farBase ≤ a ∧ a + n ≤ hostBase)) && mapCovers i.pages a n pageW)

/-- A segment record obeys Table 10-5 and R259; `every` is the exchange interval N. -/
def Image.segOk (i : Image) (every v : Nat) : Bool :=
  let p := i.owners.length
  let e := sgElems v
  let sl := e / p
  let w := if sgGG v = 0 then 4 else 2
  let copy := fun (a n : Nat) => (extentParts (sgGC v) a n 0 n).all (fun r => i.mapWrites r.1 r.2)
  bits v 191 0 == 0 && decide (sgGG v ≤ 1) && decide (bits v 195 192 ≤ 6) && e % (1024 * p) == 0 &&
    decide (sgOffset v + e ≤ 2 ^ 40) && decide (sl ≤ 1023 * i.chunkLen) &&
    [sgGrad v, sgAcc v, sgSum v, sgOwn v, sgCopy v].all (fun a => a % 32 == 0) &&
    i.mapWrites (sgGrad v) (e * w) && (sgAcc v == 0 || (every != 1 && i.mapWrites (sgAcc v) (4 * e))) &&
    i.mapWrites (sgSum v) (4 * sl) && copy (sgOwn v) sl && copy (sgCopy v) e

/-- The backup map names only primary modules, each at most once, and module 0 is primary (10 R249, R259). -/
def Image.backupsOk (i : Image) : Bool :=
  let mods := List.range i.modules
  (i.backs 0).isNone &&
    mods.all (fun m => match i.backs m with
      | some b => decide (b < i.modules) && (i.backs b).isNone && !mods.any (fun n => n != m && i.backs n == some b)
      | none => true) &&
    (i.backupMap.drop i.modules).all (· == 0)

/-- The YARD section obeys R258 and R259. -/
def Staging.yardOk (g : Staging) (i : Image) : Bool :=
  (decide (i.rankCount ≤ 2) || i.rankCount % 4 == 0) &&
  (match g.sec? 3 with
   | some e =>
     let n := g.nat e.off 4
     let store := 64 * i.chunkKib * 1024
     decide (1 ≤ n ∧ n ≤ 65536) && decide (1088 + 64 * n ≤ e.len) && [1, 2, 4, 8, 16].contains (g.nat (e.off + 4) 1) &&
       decide (i.yq < 64) && [4, 8, 16, 32, 64, 128, 256, 512, 1024].contains i.chunkKib && i.ystore % 256 == 0 &&
       (inRegions i.ystore store || inBoard i.ystore store) && i.mapWrites i.ystore store &&
       (i.statsSeg == 0xffffffff || decide (i.statsSeg < n)) && i.mapWrites i.statsAddr 16384 &&
       i.statsAddr % 32 == 0 && g.nat (e.off + 20) 4 == 0 && g.nat (e.off + 32) 32 == 0 && i.backupsOk &&
       i.segs.all (i.segOk (g.nat (e.off + 4) 1))
   | none => true)

/-! ### The image record and the depot (08 R205) -/

/-- Which regions hold a car other than LEG and NOP in each leg (13 R322). -/
def Staging.busy (g : Staging) (k n i leg : Nat) (acc : List Nat) : List Nat :=
  match n with
  | 0 => acc
  | n + 1 =>
    let car := g.car k i
    let isLeg := Car.cls car == 6 && Car.func car == 0
    let l := if isLeg then Car.get car 90 85 else leg
    let idle := isLeg || (Car.cls car == 6 && Car.func car == 4)
    g.busy k n (i + 1) l (if idle then acc else acc.set l (acc.getD l 0 ||| 2 ^ regionOf k))

/-- The image that a load puts in force. -/
def Staging.image (g : Staging) : Image :=
  let w := (g.sec? 5).map (fun e => e.off)
  let y := (g.sec? 3).map (fun e => e.off)
  let wf := fun o n => match w with | some b => g.nat (b + o) n | none => 0
  let yf := fun o n => match y with | some b => g.nat (b + o) n | none => 0
  let cons := (List.range 384).filterMap (fun k => if (g.consist k).2 = 0 then none else some (k, g.consist k))
  { base := g.base, length := g.length, flags := g.flags, version := g.nat 4 2, regionMask := g.mask, ladder := g.nat 12 2
    rankCount := g.ranks, legCount := g.legs, stepEnd := g.nat 24 8, seed := BitVec.ofNat 64 (g.nat 32 8)
    iterations := g.nat 48 4, ttId := g.nat 52 4, digest := g.bytes 192 64, consists := cons, pages := g.pages
    tableAddr := match g.sec? 2 with | some e => g.nat e.off 8 | none => 0
    descCount := g.descs.length, layers := g.layers.map (fun r => (recLayer r, r))
    slotBase := wf 0 8, slots := wf 8 4, rdescs := wf 12 2, rings := wf 14 1, rdescBase := wf 16 8, hasWorld := w.isSome
    hasYard := y.isSome, chunkKib := yf 6 2, yq := yf 5 1, ystore := yf 8 8
    statsSeg := if y.isSome then yf 16 4 else 0xffffffff, statsAddr := yf 24 8
    backupMap := if y.isSome then tab 512 (fun m => yf (64 + 2 * m) 2) else List.replicate 512 0xffff
    segs := g.segs
    occupied := cons.foldl (fun acc e => g.busy e.1 e.2.2 0 0 acc) (List.replicate 64 0) }

/-- The ranges of a descriptor in channel memory: its sources and destinations, and the length record of a COMPRESS. -/
def descRanges (d : Nat) : List (Nat × Nat) :=
  if dMode d = 0 then (copySegs d (List.range (dBlocks d))).flatMap (fun e => [(e.1, e.2.2), (e.2.1, e.2.2)])
  else (dSrc d, dSrcLen d) :: (dDst d, if dMode d = 1 then dStreamMax d else if dMode d = 3 then dLen d / dElem d else dLen d) ::
    (if dMode d = 1 ∧ dLenOut d ≠ 0 then [(dLenOut d, 32)] else [])

/-- The data of an image that the depot may not overlap (08 R205, log entry 14). -/
def Staging.dataRanges (g : Staging) (i : Image) (m : Memory) : List (Nat × Nat) :=
  ((g.consts.getD []) ++ (g.worldRecords.getD [])).map (fun r => (r.1, r.2.1)) ++
  (if i.descCount = 0 then [] else (i.tableAddr, 64 * i.descCount) :: g.descs.flatMap descRanges) ++
  (if i.hasWorld then
    (i.slotBase, 32 * (i.slots + i.rings)) :: (i.rdescBase, 32 * i.rdescs) ::
      (tab i.slots (fun n => let v := m.nat (i.slotAt n) 32; (slAddr v, slLen v)) ++
       tab i.rings (fun n => let v := m.nat (i.ringAt n) 32; (rgBase v, rgBytes v)) ++
       (tab i.rdescs (fun n => m.nat (i.rdescAt n) 32)).flatMap (fun v =>
         [(rdTemplate v, rdLen v), (rdParamAddr v, 16 * rdParams v)])) else []) ++
  (if i.hasYard then [(i.ystore, 64 * i.chunkKib * 1024)] else []) ++ m.ranges

/-- The depot fits the required regions and overlaps no data of the image. -/
def Staging.depotOk (g : Staging) (i : Image) (m : Memory) : Bool :=
  let size := m.depotSize * 2 ^ 28
  let held := ((List.range 24).filter (fun r => i.regionMask.testBit r)).length * regionBytes
  decide (size ≤ held) &&
    (size == 0 || (depotAreas i.regionMask 24 size).all (fun d =>
      (g.dataRanges i m).all (fun r => !overlaps d.1 (d.2 - d.1) r.1 r.2)))

/-! ### The load (06 R148) -/

/-- The contents of step 3: CONST, slots, rings, WORLD records and the descriptor table. -/
def Staging.writes (g : Staging) (i : Image) (m : Memory) : Memory :=
  let put := fun (m : Memory) (r : Nat × Nat × Nat) => m.write r.1 (g.bytes r.2.2 r.2.1)
  let m := (g.consts.getD []).foldl put m
  let m := match g.sec? 5 with
    | some e => m.write i.slotBase (g.bytes (e.off + 64) (32 * (i.slots + i.rings)))
    | none => m
  let m := (g.worldRecords.getD []).foldl put m
  match g.sec? 2 with
  | some e => m.write i.tableAddr (g.bytes (e.off + 16) (64 * i.descCount))
  | none => m

/-- The first refusal before the contents are written; 0 when there is none (06 Table 06-3). -/
def State.loadCheck (s : State) (c : Ch) (g : Staging) : Nat :=
  let x := s.ch c
  let i := g.image
  if !g.formatOk then 1
  else if g.digest ≠ g.bytes 192 64 then 2
  else if (x.ctl.signedOnly && !g.signed) || (g.signed && !g.signatureOk s.m.ownerKey) then 3
  else if !g.sectionsOk then 4
  else if g.mask = 0 ∨ allRegions.any (fun r => g.mask.testBit r && (x.sup.region r).st == .lost) = true then 5
  else if g.ranks ≠ x.yard.rankCount ∨ g.ranks ≤ x.rank then 6
  else if !g.consistsOk then 7
  else if !g.mapOk (if x.mem.farStatus = 2 then x.mem.farCapacity else 0) then 8
  else if !g.stagedOk then 9
  else if !(match g.consts with | some l => l.all g.recordOk | none => false) || !g.watchOk || !g.extentOk || !g.yardOk i then 8
  else if !(match g.sec? 5 with | some e => g.worldHeadOk e | none => true) ||
      !(match g.worldRecords with | some l => l.all g.recordOk | none => false) then 8
  else 0

/-- The ranges of the staged image that the signal box has read when a check ends the load with a result (16 Table 16-2). -/
def Staging.readOf (g : Staging) (result : Nat) : Nat := if result = 1 then 256 else g.length + g.trailer

/-- The layer states an image starts with (05 R139). -/
def Image.layerStates (i : Image) : Tab LayerState :=
  i.layers.foldl (fun t e => Tab.put LayerState.zero t e.1
    { LayerState.zero with sg := signedOf 8 (bits e.2 119 112), rung := recBase e.2 }) []

/-- The load has failed: no image is in force; the channel is READY (06 R148). -/
def State.loadFailed (s : State) (c : Ch) (result : Nat) : State :=
  (s.onRun c (fun r => { r.discard result with resumable := false })).setChState c .ready

/-- The load has succeeded: the image is in force, its layers start, the required regions are switched on and the others off
(05 R139, 06 R148, 13 R322). -/
def State.loadDone (s : State) (c : Ch) (g : Staging) (i : Image) : State :=
  let s := s.onCh c (fun x =>
    { x with
      run := { x.run with image := some i, loadResult := 0, loading := none, resumable := false }
      watch := { x.watch with layers := i.layerStates }
      yard := { x.yard with exchangeN := match g.sec? 3 with | some e => g.nat (e.off + 4) 1 | none => 1 } })
  ((s.setChState c .ready).switchTo c i.regionMask).reefDecide c

/-- The signal box copies the image into the boards and the slots (05 R139, 06 R148). -/
def State.placed (s : State) (c : Ch) (g : Staging) (i : Image) : State := s.onMem c (g.writes i)

/-- A staged image is judged and, when it passes, put in force (06 R147, R148). -/
def State.finishLoad (s : State) (c : Ch) (a : Nat) : State :=
  let x := s.ch c
  let g : Staging := { mem := x.mem, base := a }
  if a % 4096 ≠ 0 ∨ inBoard a 256 = false then s.loadFailed c 9
  else
    match x.mem.poisonIn a 256 with
    | some p => s.consumePoison c p 0
    | none =>
      let result := s.loadCheck c g
      match x.mem.poisonIn a (g.readOf result) with
      | some p => s.consumePoison c p 0
      | none =>
        let i := g.image
        if result ≠ 0 then s.loadFailed c result
        else if !g.depotOk i (g.writes i x.mem) then s.loadFailed c 8
        else
          let t := s.placed c g i
          let u := t.onRun c (fun r => { r with image := some i })
          match (t.ch c).mem.worldPoison i with
          | some p => t.consumePoison c p 0
          | none => if u.worldOk c i then t.loadDone c g i else t.loadFailed c 8

/-- A write of an address to TT_LOAD starts a load: the image is discarded, the yard's work ends, the counters of a load return to 0
(05 R139, 06 R148, 10 R265). A load in progress ends without a result. -/
def State.startLoad (s : State) (c : Ch) (a : Nat) : State :=
  ((s.depotEmpty c).loadReported c 0xffff).onCh c (fun x =>
    { x with
      run := { x.run.discard 0xffff with ttLoad := a, loading := some a, resumable := false }
      watch := x.watch.idle
      hub := x.hub.yardEnded
      yard := { x.yard.idle with exchangeN := 1 } }.clearLoadCounters)

/-- LOAD_END (06 R148): the load ends with its result, READY with or without the image. -/
def execLoadEnd (c : Ch) (s : State) : Host.Outcome State Fault Refusal :=
  let x := s.ch c
  .next (match x.run.loading with
    | some a =>
      if x.ctl.st = .ready ∨ x.ctl.st = .hold then
        let t := s.finishLoad c a
        t.loadReported c (t.ch c).run.loadResult
      else s
    | none => s)

end Sys2Proof.Machine
end

