-- ==== Sys2Proof/Machine/Thermal.lean ====
section
/-! DEFINITION. Coolant, region sensors, the forecast, SAFE and switching a channel off (15 R347 to R357). -/

namespace Sys2Proof.Machine

/-! ### Stops that reach a whole channel or the module -/

/-- A channel enters FAULT with a cause (12 R308, 16 R373). -/
def State.enterFault (s : State) (c : Ch) (code : Nat) (param : List Byte) : State :=
  ((s.setChState c .fault).onCh c (fun x =>
    { x with ctl := { x.ctl with boot := Boot.idle }, run := { x.run with faultStatus := code }
             sup := { x.sup.stopAll with change := none } })).logAs c 0 0 code param

/-- The far-tier bytes of a memory: the expander keeps them when the channel's rails go off, the depot's contents gone (18 Table 18-5). -/
def Memory.farOnly (m : Memory) : Memory :=
  let d := m.discardDepot
  { d with bytes := d.bytes.filter (fun e => decide (farBase ≤ e.1)), marks := d.marks.filter (fun e => decide (farBase ≤ e.1 * 256))
           farOps := [], farStatus := 0, farLink := 0, gddr7 := 0 }

/-- A port whose channel is off: no link, nothing kept of its partner. -/
def Port.silent (p : Port) : Port :=
  { p with linkState := 0, partner := 0, rxLseq := 0, txLseq := 0, unacked := [], waiting := [], nakSent := false, failRun := 0
           credit := [0, 0, 0], freed := [0, 0, 0], hello := none, hellos := [], trainFails := 0, seq := 0 }

/-- A channel's rails go off: the channel is OFF and its memory contents are lost; a lost region stays lost and its stays open
(13 R327, 18 R405, Table 18-5). -/
def State.channelOff (s : State) (c : Ch) : State :=
  let s := s.onM (fun m => { m with tripping := m.tripping.filter (fun e => e.1 / 24 != c.val) })
  ((s.setChState c .off).answerWake c 0x11).onCh c (fun x =>
    { x with
      ctl := { x.ctl with boot := Boot.idle, safeFrom := none }
      run := { x.run.discard 0xfffe with resumable := false }
      watch := x.watch.idle
      mem := x.mem.farOnly
      hub := { x.hub.cleared with ports := x.hub.cleared.ports.map Port.silent }
      yard := x.yard.idle
      host := { x.host.cleared with link := 0 }
      sup := { (x.sup.mapRegions (fun _ r => { r.offNow with stays := false, mv := 0, tmodel := none })) with
               change := none, reports := [], easing := 0, locked := false, refresh := false, sustained := 0 } })

/-- Every car of a channel stops without posting (03 R76, 15 R354). -/
def State.haltCars (s : State) (c : Ch) : State :=
  if (s.ch c).ctl.st = .running then
    (allRegions.foldl (fun t r => t.stopTiles c r) s).onRun c (fun q => allRegions.foldl (fun q r => (q.darken r).deaden r) q)
  else s

/-- A channel as the module's entry to SAFE leaves it: regions stopped, the pending change cancelled, GDDR7 in self refresh; a RUNNING
or HOLD channel enters HOLD with SAFE_STOP (12 R306, 15 R355, Table 15-4). -/
def State.safeChannel (s : State) (c : Ch) (trip : Bool) : State :=
  if (s.ch c).ctl.st = .off then s
  else
    let s := (s.haltCars c).onSup c (fun u => { u.stopAll with change := none, reports := [], refresh := true })
    let s := (s.onCtl c (fun k => { k with safeFrom := if trip then some s.count else none })).answerWake c 0x11
    if (s.ch c).holdable then (s.onRun c (fun r => { r with posts := [] })).enterHold c 0x114 0 (paramBytes []) else s

/-- ALERT_N, low while asserted: from t0 until the station master is ready, while a coolant reading is outside its range, and in SAFE
(15 R348, 19 Table 19-4). -/
def Module.alertN (m : Module) : Bool := m.sm != .rom && m.coolState % 16 == 0 && m.st != .safe

/-- CXL_PERST_N of a channel, low while it holds the expander in reset (19 R409). -/
def State.perstN (s : State) (c : Ch) : Bool :=
  (match (s.ch c).ctl.st with | .off => false | .boot => false | .fault => false | _ => true) && (s.ch c).mem.farEnable

/-- Is every coolant reading inside Table 15-1, as the bits of COOLANT_STATE say? -/
def Module.coolantIn (m : Module) : Bool := m.coolState == 0

/-- The module enters SAFE (15 R354, R355, 12 R306). -/
def State.enterSafe (s : State) (cause : Nat) : State :=
  if s.m.st = .safe then s
  else
    let s := (s.onM (fun m => { m with st := .safe, safeCause := cause, safeAt := s.count })).logM 0x8000 0x0f09 [(2, cause)]
    s.eachCh (fun c t => t.safeChannel c (cause == 1 && t.m.coolantIn))

/-! ### Region sensors and the forecast (15 R351 to R353) -/

/-- A temperature in 1/64 °C as FP32. -/
def temp32 (raw : Int) : W32 := (Fp.fin (decide (raw < 0)) raw.natAbs (-6)).to32

/-- What a coolant sensor's reading counts as: with 6 °C more while the sensor is lost or the station master restarts (15 R350). -/
def Module.coolantTemp (m : Module) (x : Coolant) : W32 :=
  if x.lost || m.sm != .ready then add32 x.value (natTo32 6) else x.value

/-- The state a pair enters by the difference of its readings (15 Table 15-3): 0 agree, 1 disagree, 2 suspect. -/
def pairState (d : Nat) : Nat := if d ≤ 256 then 0 else if d ≤ 768 then 1 else 2

/-- A region's sensor pair after new readings: its state, and since when a suspect pair has agreed (0 for never, else the count + 1). -/
def pairNext (old since : Nat) (a b : Int) (now : Nat) : Nat × Nat :=
  let d := (a - b).natAbs
  if old = 2 then (2, if d ≤ 256 then (if since = 0 then now + 1 else since) else 0)
  else (pairState d, if pairState d = 2 then 0 else since)

/-- The control value of a pair (15 Table 15-3). -/
def pairValue (st : Nat) (a b : Int) (model : W32) : W32 :=
  if st = 2 then add32 model (natTo32 6) else temp32 (max a b)

/-- Tref (15 R352). -/
def State.tref (s : State) (c : Ch) (r : Rg) : W32 :=
  let tin := s.m.coolantTemp s.m.inlet
  add32 tin (mul32 (Config.kPos c r) (sub32 (s.m.coolantTemp s.m.outlet) tin))

/-- Tss(t) (15 R352). -/
def State.tss (s : State) (c : Ch) (r : Rg) (power : W32) (step : Nat) : W32 :=
  add32 (s.tref c r) (mul32 (Config.theta c r) (scalePower power step (s.ch c).sup.step))

/-- 1 − e^(−h/τ), h in ms. -/
def State.relax (c : Ch) (r : Rg) (h : W32) : W32 := sub32 one32 (exp32 (neg32 (div32 h (Config.tau c r))))

/-- F(t) (15 R352). -/
def State.forecast (s : State) (c : Ch) (r : Rg) (tm power : W32) (step : Nat) : W32 :=
  add32 tm (mul32 (sub32 (s.tss c r power step) tm) (State.relax c r (natTo32 5)))

/-- The thermal step of a region (15 R353), and whether THERMAL_REEF is logged. -/
def thermalStep (f : Nat → W32) (cur : Nat) : Nat × Bool :=
  if lt32 (natTo32 95) (f cur) then (((List.range 8).find? (fun t => le32 (f t) (natTo32 95))).getD 7, true)
  else if 0 < cur ∧ le32 (f (cur - 1)) (natTo32 92) = true then (cur - 1, false)
  else (cur, false)

/-- The 16-bit code of a reading. -/
def i16 (v : Int) : Nat := codeOf 16 v

/-- Log a pair's entry into disagree or suspect (15 Tables 15-3, 15-6). -/
def State.logPair (s : State) (c : Ch) (r : Rg) (p old new : Nat) (a b : Int) (model : W32) : State :=
  if new = old then s
  else if new = 1 then s.log c (0x0100 + r.val) 0x0f01 [(2, r.val), (2, p), (2, i16 a), (2, i16 b)]
  else if new = 2 then s.log c (0x0100 + r.val) 0x0f02 [(2, r.val), (2, p), (2, i16 a), (2, i16 b), (4, model.toNat)]
  else s

/-- A region's readings are taken and its forecast computed (15 R351 to R353). -/
def State.forecastRegion (s : State) (c : Ch) (r : Rg) (rd : RegionReading) : State :=
  let x := (s.ch c).sup.regions[r]
  let t := fun i => rd.temps.getD i 0
  let model := match x.tmodel with
    | some m => m
    | none => temp32 (max (max (t 0) (t 1)) (max (t 2) (t 3)))
  let p0 := pairNext (x.pairSt.getD 0 0) (x.pairSince.getD 0 0) (t 0) (t 1) s.count
  let p1 := pairNext (x.pairSt.getD 1 0) (x.pairSince.getD 1 0) (t 2) (t 3) s.count
  let s := s.logPair c r 0 (x.pairSt.getD 0 0) p0.1 (t 0) (t 1) model
  let s := s.logPair c r 1 (x.pairSt.getD 1 0) p1.1 (t 2) (t 3) model
  let v0 := pairValue p0.1 (t 0) (t 1) model
  let v1 := pairValue p1.1 (t 2) (t 3) model
  let tm := max32 v0 v1
  let cur := (s.ch c).sup.step
  let f := s.forecast c r tm rd.power
  let st := thermalStep f cur
  let tmodel := add32 model (mul32 (sub32 (s.tss c r rd.power cur) model) (State.relax c r (div32 one32 (natTo32 4))))
  let s := s.onRegion c r (fun y =>
    { y with temps := rd.temps, pairSt := [p0.1, p1.1], pairSince := [p0.2, p1.2], tmodel := some tmodel, control := [v0, v1]
             fc := f cur, tstep := st.1 })
  let s := s.onM (fun m => { m with tripping := m.tripping.filter (fun e =>
    !(e.1 == c.val * 24 + r.val && decide (t e.2 < 7040))) })
  if st.2 then s.log c (0x0100 + r.val) 0x0f04 [(2, r.val), (4, (f cur).toNat), (2, st.1)] else s

/-- THERMAL_FORECAST (15 R352): the readings of the 24 regions, in order. -/
def execThermalForecast (c : Ch) (readings : List RegionReading) (s : State) : Host.Outcome State Fault Refusal :=
  .next (if (s.ch c).ctl.st = .off then s
    else
      (readings.zipIdx.foldl (fun t e => if e.2 < 24 then t.forecastRegion c (rgOf e.2) e.1 else t) s).reefDecide c)

/-- SENSOR_CLEARED (15 R351): a suspect pair has agreed for 60 s. -/
def execSensorCleared (c : Ch) (r : Rg) (pair : Fin 2) (s : State) : Host.Outcome State Fault Refusal :=
  .next (
    let x := (s.ch c).sup.regions[r]
    let since := x.pairSince.getD pair.val 0
    if x.pairSt.getD pair.val 0 = 2 ∧ since ≠ 0 ∧ s.after (since - 1) 7125000000 = true then
      (s.onRegion c r (fun y => { y with pairSt := y.pairSt.set pair.val 0, pairSince := y.pairSince.set pair.val 0 })).log c
        (0x0100 + r.val) 0x0f03 [(2, r.val), (2, pair.val)]
    else s)

/-! ### Trip (15 R354 to R356) -/

/-- THERMAL_TRIP (15 R354): TRIP_N, every region stopped, and SAFE; during a station master restart SAFE is recorded when the station
master is ready (15 Table 15-4). -/
def execThermalTrip (c : Ch) (r : Rg) (sensor : Fin 4) (reading : Int) (s : State) : Host.Outcome State Fault Refusal :=
  .next (if (s.ch c).ctl.st = .off then s
    else
      let s := (s.onM (fun m =>
        { m with trips := (m.trips + 1) % 2 ^ 32, tripping := ((c.val * 24 + r.val, sensor.val) :: m.tripping).dedup,
                 pins := { m.pins with tripN := false } })).log c (0x0100 + r.val) 0x0f05
        [(2, r.val), (2, sensor.val), (2, i16 reading)]
      let s := s.eachCh (fun d t => if (t.ch d).ctl.st = .off then t else (t.haltCars d).onSup d (fun u => u.stopAll))
      if s.m.sm = .restarting then s else s.enterSafe 1)

/-- THERMAL_POWER_OFF (15 R356): a sensor at 105 °C or more 1 s after entry to SAFE. -/
def execThermalPowerOff (c : Ch) (r : Rg) (sensor : Fin 4) (reading : Int) (s : State) : Host.Outcome State Fault Refusal :=
  .next (if s.m.st = .safe ∧ s.after s.m.safeAt 118750000 = true ∧ 6720 ≤ reading ∧ (s.ch c).ctl.st ≠ .off then
      (s.logM 0x8000 0x0f0b [(2, r.val), (2, sensor.val), (2, i16 reading)]).eachCh (fun d t =>
        if (t.ch d).ctl.st = .off then t else t.channelOff d)
    else s)

/-! ### Coolant (15 R348 to R350) -/

/-- Take one sensor's poll: 3 bytes, of which byte 2 says whether the value is valid (15 R349); five failures in a row lose the sensor
(15 R350). -/
def Coolant.poll (x : Coolant) (flow : Bool) (answer : Option Nat) (now : Nat) : Coolant :=
  match answer with
  | some b =>
    if b / 65536 % 256 = 1 then
      let v := b % 65536
      if flow then { missed := 0, lost := false, raw := v, polledAt := now, value := div32 (natTo32 v) (natTo32 1000) }
      else { missed := 0, lost := false, raw := signedOf 16 v, polledAt := now, value := temp32 (signedOf 16 v) }
    else { x with missed := x.missed + 1, lost := x.lost || decide (5 ≤ x.missed + 1) }
  | none => { x with missed := x.missed + 1, lost := x.lost || decide (5 ≤ x.missed + 1) }

/-- The COOLANT_STATE bits (15 Table 15-5). -/
def Module.coolBits (m : Module) : Nat :=
  let v := m.coolantTemp m.inlet
  let f := m.flow.value
  (if lt32 v (natTo32 20) then 1 else 0) + (if lt32 (natTo32 45) v then 2 else 0) +
  (if m.flow.lost || lt32 f (natTo32 4) then 4 else 0) + (if !m.flow.lost && lt32 (natTo32 6) f then 8 else 0) +
  (if m.inlet.lost then 16 else 0) + (if m.outlet.lost then 32 else 0) + (if m.flow.lost then 64 else 0)

/-- Start, keep or end the clock of a condition. -/
def clockOf (cond : Bool) (old : Option Nat) (start : Nat) : Option Nat :=
  if cond then (match old with | some t => some t | none => some start) else none

/-- Shift a paused clock. -/
def shiftClock (t : Option Nat) (n : Nat) : Option Nat := t.map (· + n)

/-- Log the sensors that this poll has lost (15 R350). -/
def State.logLost (s : State) (old : Module) : State :=
  let f := fun (t : State) (e : Nat × Bool × Bool) => if !e.2.1 && e.2.2 then t.logM 0x8010 0x0f08 [(2, e.1)] else t
  [(0, old.inlet.lost, s.m.inlet.lost), (1, old.outlet.lost, s.m.outlet.lost), (2, old.flow.lost, s.m.flow.lost)].foldl f s

/-- Log the excursions that this poll begins (15 Table 15-2). -/
def State.logRange (s : State) (old : Module) : State :=
  let fresh := fun i => s.m.coolState.testBit i && !old.coolState.testBit i
  let inlet := (s.m.coolantTemp s.m.inlet).toNat
  let s := if fresh 0 then s.logM 0x8010 0x0f06 [(2, 0), (4, inlet)] else s
  let s := if fresh 1 then s.logM 0x8010 0x0f06 [(2, 0), (4, inlet)] else s
  if fresh 3 then s.logM 0x8010 0x0f06 [(2, 1), (4, s.m.flow.value.toNat)] else s

/-- The provisional ID that COOLANT_SENSOR_IDS holds for a sensor: 0 inlet, 1 outlet, 2 flow (15 R349). -/
def Module.sensorId (m : Module) (i : Nat) : Nat := field m.sensorIds (8 * i) 6

/-- The station master, as I3C controller, gives a sensor that it has none for a dynamic address (15 R349); which one is a free value (log
entry 68). -/
def State.assignSensor (s : State) (i : Nat) : State :=
  if s.m.sensorAddrs.any (fun e => e.1 == i) then s
  else
    let a := (Config.freeWord s.freeNo).toNat % 128
    (({ s with freeNo := s.freeNo + 1 } : State).onM (fun m => { m with sensorAddrs := (i, a) :: m.sensorAddrs })).send
      (.i3cAssign (s.m.sensorId i) a)

/-- The sensors that are on the bus get their addresses, and each is read (15 R349). -/
def State.readSensors (s : State) (answers : List (Nat × Nat)) : State :=
  (List.range 3).foldl (fun (t : State) i =>
    let t := if answers.any (fun e => e.1 == t.m.sensorId i) then t.assignSensor i else t
    match t.m.sensorAddrs.find? (fun e => e.1 == i) with
    | some e => t.send (.i3cRead e.2)
    | none => t) s

/-- COOLANT_POLL (15 R348 to R350, 18 Table 18-1): the 3-byte answers of the sensors on the bus, three at most, each with its
provisional ID. -/
def execCoolantPoll (first second third : Option (Nat × Nat)) (s : State) : Host.Outcome State Fault Refusal :=
  .next (if !s.smReady then s
    else
      let old := s.m
      let now := s.count
      let answers := [first, second, third].filterMap id
      let answer := fun i => (answers.find? (fun e => e.1 == old.sensorId i)).map (·.2)
      let s := s.readSensors answers
      let gap := match old.pausedFrom with | some t => now - t | none => 0
      let s := s.onM (fun m =>
        { m with
          inlet := m.inlet.poll false (answer 0) now, outlet := m.outlet.poll false (answer 1) now
          flow := Coolant.poll { m.flow with polledAt := m.flow.polledAt + gap } true (answer 2) now
          flowLowSince := shiftClock m.flowLowSince gap, inletHighSince := shiftClock m.inletHighSince gap, pausedFrom := none })
      let s := s.onM (fun m =>
        let bits := m.coolBits
        let hot := lt32 (natTo32 55) (m.coolantTemp m.inlet)
        let good := bits == 0
        { m with
          coolState := bits
          flowLowSince := clockOf (bits.testBit 2) m.flowLowSince (if m.flow.lost then m.flow.polledAt else now)
          inletHighSince := clockOf hot m.inletHighSince now
          goodSince := clockOf good m.goodSince now })
      let s := (s.logLost old).logRange old
      let s := if s.m.coolantIn then s else s.eachCh (fun c t => t.onCtl c (fun k => { k with safeFrom := none }))
      let all := s.m.inlet.missed == 0 && s.m.outlet.missed == 0 && s.m.flow.missed == 0
      if s.m.st = .boot ∧ all = true ∧ s.m.coolState % 16 = 0 ∧ s.m.secState = 0 then
        (s.onM (fun m => { m with st := .normal })).equalShares
      else s)

/-- COOLANT_LOSS (15 R348, R350). -/
def execCoolantLoss (s : State) : Host.Outcome State Fault Refusal :=
  .next (match s.m.flowLowSince with
    | some t =>
      if s.smReady && s.m.st != .safe && s.after t 59375000 then
        (s.logM 0x8010 0x0f07 [(4, s.m.flow.value.toNat)]).enterSafe (if s.m.flow.lost then 4 else 2)
      else s
    | none => s)

/-- INLET_HIGH (15 R348). -/
def execInletHigh (s : State) : Host.Outcome State Fault Refusal :=
  .next (match s.m.inletHighSince with
    | some t => if s.smReady && s.m.st != .safe && s.after t 59375000 then s.enterSafe 3 else s
    | none => s)

/-! ### Leaving SAFE (15 R357) -/

/-- Every sensor of a pair that is not suspect reads 85 °C or less, in every powered channel. -/
def State.sensorsCool (s : State) : Bool :=
  s.liveCh.all (fun c => allRegions.all (fun r =>
    let x := (s.ch c).sup.region r
    (List.range 4).all (fun i => x.pairSt.getD (i / 2) 0 == 2 || decide (x.temps.getD i 0 ≤ 5440))))

/-- The conditions of CLEAR_SAFE. -/
def State.mayClearSafe (s : State) : Bool :=
  s.m.st == .safe && s.m.tripping.isEmpty && s.sensorsCool &&
    (match s.m.goodSince with | some t => s.after t 1187500000 | none => false)

/-- The module leaves SAFE: TRIP_N is released, SAFE_CLEAR logged, and the required regions of loaded images are switched on. -/
def State.leaveSafe (s : State) : State :=
  let s := (s.onM (fun m => { m with st := .normal, safeCause := 0, pins := { m.pins with tripN := true } })).logM 0x8000 0x0f0a
    [(8, s.count - s.m.safeAt)]
  let s := s.eachCh (fun c t =>
    let x := t.ch c
    let t := match x.ctl.safeFrom with | some n => t.addDown c n | none => t
    let t := (t.onCtl c (fun k => { k with safeFrom := none })).onSup c (fun u => { u with refresh := x.ctl.st == .standby })
    match x.run.image with
    | some i => if x.ctl.st = .ready ∨ x.ctl.st = .hold then
        allRegions.foldl (fun t r => if i.regionMask.testBit r then t.switchOn c r else t) t else t
    | none => t)
  s.equalShares

end Sys2Proof.Machine
end

