-- ==== Sys2Proof/Machine/Launch.lean ====
section
/-! DEFINITION. What commands do to a channel or to the module: launch, resume, hold, standby, wake, release, reset, power off and on,
leaving SAFE, and where each is legal (06 R149, 12 R305, R306, Table 12-11, 17 R385, 18 R403, R405). -/

namespace Sys2Proof.Machine

/-! ### Lifetime records (16 R374, R375) -/

/-- LIFETIME_SERVICE of a channel written to flash: whole seconds of service and whole milliseconds of downtime since the last mark. -/
def State.markLife (s : State) (c : Ch) : State :=
  let x := s.ch c
  let sec := (x.serviceNow s.count - x.ctl.lifeMark.1) / 118750000
  let ms := (x.ctl.downtime - x.ctl.lifeMark.2) / 118750
  (s.onM (fun m => { m with lifetime := modAt m.lifetime c.val (fun (e : Nat × Nat) => (e.1 + sec, e.2 + ms)) })).onCtl c (fun k =>
    { k with lifeMark := (k.lifeMark.1 + sec * 118750000, k.lifeMark.2 + ms * 118750) })

/-! ### Launch (06 R149, R151) -/

/-- The place of LEG `leg` in a consist. -/
def Chan.legPos (x : Chan) (k leg : Nat) : Nat :=
  ((List.range (x.consist k).2).find? (fun i =>
    let car := x.carAt k i
    Car.cls car == 6 && Car.func car == 0 && Car.get car 90 85 == leg)).getD 0

/-- START_LEG lies beyond the legs of the loaded image (06 R149). -/
def Chan.startBeyond (x : Chan) : Bool :=
  match x.run.image with
  | some i => decide (i.legCount ≤ x.run.startLeg)
  | none => false

/-- May LAUNCH START be accepted? -/
def State.mayStart (s : State) (c : Ch) : Bool :=
  let x := s.ch c
  x.ctl.st == .ready && x.run.loadResult == 0 && x.run.image.isSome && !x.startBeyond && s.m.st != .safe

/-- The run begins at START_LEG: counts, targets, loop counters and vector registers are 0, the yard's work of the run before ends
(06 R149, 10 R265). -/
def State.startRun (s : State) (c : Ch) : State :=
  let x := s.ch c
  let clusters := x.live.foldl (fun t k =>
    Tab.put Cluster.fresh t k { (Tab.get Cluster.fresh t k) with pos := x.legPos k x.run.startLeg }) (restAll x.run.clusters)
  let t := s.onCh c (fun y =>
    { y with
      run := { y.run with
        clusters := clusters, sigs := [], leg := y.run.startLeg, posts := [], stops := [], holdRequested := false
        firstIssued := false, vregsFree := none, resumable := false, legStart := s.count, progressAt := s.count, activeAt := s.count }
      watch := y.watch.idle
      mem := { y.mem with farOps := [] }
      hub := y.hub.yardEnded
      yard := { y.yard.idle with progressAt := s.count } })
  (t.setChState c .running).reefDecide c

/-- May LAUNCH RESUME be accepted (12 R308)? -/
def State.mayResume (s : State) (c : Ch) : Bool :=
  let x := s.ch c
  x.ctl.st == .hold && x.run.holdStatus == 0x101 && x.run.resumable && x.run.image.isSome && s.m.st != .safe

/-- The run continues with the leg that follows the boundary at which it was held. -/
def State.resumeRun (s : State) (c : Ch) : State :=
  let t := s.onRun c (fun r =>
    { r with firstIssued := false, resumable := false, holdRequested := false, legStart := s.count, progressAt := s.count
             activeAt := s.count })
  (t.setChState c .running).reefDecide c

/-! ### CHANNEL_CMD (12 Table 12-11) -/

/-- Is a CHANNEL_CMD code accepted in the present state (12 R305, R306, 17 R385)? -/
def State.mayCommand (s : State) (c : Ch) (cmd : Nat) : Bool :=
  let st := (s.ch c).ctl.st
  match cmd with
  | 1 => st == .ready
  | 2 => st == .standby && s.m.st != .safe && s.m.secState == 0
  | 3 => st == .hold
  | 4 => st != .off && st != .boot
  | 5 => st == .standby || st == .ready || st == .hold || st == .fault
  | 6 => st == .off && s.m.st != .safe && s.m.secState == 0 && s.smReady
  | _ => false

/-- STANDBY: the depot is written back, every region switched off into retention, GDDR7 in self refresh (18 R403). -/
def State.toStandby (s : State) (c : Ch) : State :=
  let t := s.depotWriteBack c
  let t := t.onSup c (fun u => { u.stopAll with refresh := true })
  (t.setChState c .standby).reefDecide c

/-- WAKE: GDDR7 leaves self refresh and the required regions are switched on; the channel is READY once the last is on (18 R403). -/
def State.wake (s : State) (c : Ch) : State :=
  let t := s.onSup c (fun u => { u with refresh := false })
  let t := match (t.ch c).run.image with
    | some i => allRegions.foldl (fun (t : State) r => if i.regionMask.testBit r then t.switchOn c r else t) t
    | none => t
  t.wakeDone c

/-- Does the loaded image require a lost region (01 R25)? -/
def Chan.needsLost (x : Chan) : Bool :=
  match x.run.image with
  | some i => allRegions.any (fun r => i.regionMask.testBit r && (x.sup.region r).st == .lost)
  | none => false

/-- RELEASE: the channel is READY, the yard's work ends, and an image that requires a lost region is discarded (12 R305). -/
def State.release (s : State) (c : Ch) : State :=
  let lost := (s.ch c).needsLost
  let t := (if lost then s.depotEmpty c else s).onCh c (fun x =>
    { x with
      run := if lost then x.run.drop else { x.run with resumable := false, stops := [], posts := [] }
      watch := x.watch.idle
      hub := x.hub.yardEnded
      yard := x.yard.idle })
  (t.setChState c .ready).reefDecide c

/-- A region as a boot finds it: the record in flash of its cells and of its loss (13 R328). -/
def Region.flashed (r : Region) : Region := { Region.reset with st := if r.st = .lost then .lost else .off, cells := r.cells }

/-- A channel's boot begins: settings at their defaults, counters cleared, TENANT_SLOT, the configuration block and, after POWER_ON, the
event log kept; the expander keeps the far tier (18 Tables 18-2, 18-4a, R402; log entry 15). -/
def Chan.booting (x : Chan) (now : Nat) (powerOn : Bool) : Chan :=
  { Chan.reset with
    ctl := { Ctl.reset with
      st := .boot, serviceFrom := now, tenantSlot := x.ctl.tenantSlot, tenantNew := x.ctl.tenantNew, config := x.ctl.config
      log := if powerOn then x.ctl.log else [], logNext := if powerOn then x.ctl.logNext else 0
      boot := { Boot.idle with phase := .rails, since := now, powerOn := powerOn } }
    run := { Run.reset with
      holdStatus := if powerOn then x.run.holdStatus else 0, faultStatus := if powerOn then x.run.faultStatus else 0 }
    mem := { Memory.reset with bytes := x.mem.farOnly.bytes, marks := x.mem.farOnly.marks }
    sup := { Supply.reset with
      regions := x.sup.regions.map Region.flashed, power := x.sup.power, share := x.sup.share
      energy := if powerOn then x.sup.energy else 0 } }

/-- Boot start B of a channel (18 Table 18-2). -/
def State.startBoot (s : State) (c : Ch) (powerOn : Bool) : State :=
  (s.markLife c).onCh c (fun x => x.booting s.count powerOn)

/-- POWER_OFF (18 R405). -/
def State.powerOff (s : State) (c : Ch) : State := (s.markLife c).channelOff c

/-- What a CHANNEL_CMD code does. -/
def State.command (s : State) (c : Ch) (cmd : Nat) : State :=
  match cmd with
  | 1 => s.toStandby c
  | 2 => s.wake c
  | 3 => s.release c
  | 4 => s.containment c 5
  | 5 => s.powerOff c
  | 6 => s.startBoot c true
  | _ => s

end Sys2Proof.Machine
end

