-- ==== Sys2Proof/Machine/Security.lean ====
section
/-! DEFINITION. Signed blocks and who signs them, floors, firmware staging, the owner key, tenancy, attestation reports, and the set-up
of management sessions (17 R376 to R393). -/

namespace Sys2Proof.Machine

/-! ### Signed blocks (17 R378, Table 17-2, 06 R146) -/

/-- TYPE of a block. -/
def sbType (b : List Byte) : Nat := field b 4 1
/-- SIGS. -/
def sbSigs (b : List Byte) : Nat := field b 5 1
/-- VERSION. -/
def sbVersion (b : List Byte) : Nat := field b 8 4
/-- LENGTH. -/
def sbLength (b : List Byte) : Nat := field b 16 8
/-- The body. -/
def sbBody (b : List Byte) : List Byte := (b.drop 64).take (sbLength b)
/-- The digest that every trailer signs: header and body. -/
def sbDigest (b : List Byte) : List Byte := shake256 (b.take (64 + sbLength b))

/-- The header obeys Table 17-2. -/
def sbHeadOk (b : List Byte) : Bool :=
  decide (64 ≤ b.length) && field b 0 4 == 0x56545342 && decide (1 ≤ sbType b ∧ sbType b ≤ 6) &&
    decide (1 ≤ sbSigs b ∧ sbSigs b ≤ 2) && field b 6 2 == 0 && field b 12 4 == 0 && decide (sbLength b ≤ 2 ^ 24) &&
    field b 24 40 == 0

/-- SIG_LEN of a trailer at an offset. -/
def trLen (b : List Byte) (o : Nat) : Nat := field b (o + 2) 2

/-- Where trailer `n` (0 or 1) of a block begins: the second at the next 16-byte boundary after the first. -/
def trAt (b : List Byte) (n : Nat) : Nat :=
  let o := 64 + sbLength b
  if n = 0 then o else ceilDiv (o + 16 + trLen b o) 16 * 16

/-- The length of a whole block, once enough of it is there to tell. -/
def sbWhole (b : List Byte) : Option Nat :=
  let o := trAt b (sbSigs b - 1)
  if b.length < 64 ∨ b.length < trAt b 0 + 4 ∨ b.length < o + 4 then none else some (o + 16 + trLen b o)

/-- A trailer verifies under a key. -/
def trailerOk (b : List Byte) (o : Nat) (key digest : List Byte) : Bool :=
  let n := trLen b o
  field b o 2 == 1 && decide (1 ≤ n ∧ n ≤ 1280) && (b.drop (o + 4)).take 8 == keyId key && field b (o + 12) 4 == 0 &&
    Config.falconVerify key digest ((b.drop (o + 16)).take n)

/-- A whole block of a type, signed by the given keys in order. -/
def sbSigned (b : List Byte) (typ : Nat) (keys : List (List Byte)) : Bool :=
  sbHeadOk b && sbType b == typ && sbSigs b == keys.length && sbWhole b == some b.length &&
    keys.zipIdx.all (fun e => trailerOk b (trAt b e.2) e.1 (sbDigest b))

/-- Is an owner key stored? -/
def Module.hasOwner (m : Module) : Bool := m.ownerKey != zeros 1793

/-- A firmware or configuration block carries the trailers that the security state asks for (17 R379): both in NORMAL; else the
vendor's, and the owner's where a second trailer and an owner key are there. -/
def Module.bundleSigned (m : Module) (b : List Byte) (typ : Nat) (normal : Bool) : Bool :=
  if normal then sbSigned b typ [Config.vendorKey, m.ownerKey]
  else if sbSigs b = 1 then sbSigned b typ [Config.vendorKey]
  else if m.hasOwner then sbSigned b typ [Config.vendorKey, m.ownerKey]
  else sbHeadOk b && sbType b == typ && sbWhole b == some b.length && trailerOk b (trAt b 0) Config.vendorKey (sbDigest b)

/-- A stored floor certificate is valid under the owner key. -/
def Module.floorValid (m : Module) : Bool := m.hasOwner && sbSigned m.floorCert 3 [m.ownerKey]

/-- The firmware floor that holds: the mask ROM's, and the stored one. -/
def Module.firmwareFloor (m : Module) : Nat := max Config.romFloor m.fwFloor

/-! ### Blocks written in pieces (12 R294; log entry 39) -/

/-- What a piece makes of a block: not a valid piece, more to come, or the whole. -/
inductive Part where
  | bad
  | more (b : List Byte)
  | whole (b : List Byte)
  deriving DecidableEq, Repr

/-- The longest signed block. -/
def sbMax : Nat := 64 + 2 ^ 24 + 2 * (16 + 1280) + 16

/-- The block with a piece: a piece at offset 0 starts again, any other must join or overlap what is there. -/
def joinPiece (old : List Byte) (o : Nat) (v : List Byte) : Option (List Byte) :=
  if o = 0 then some v else if o ≤ old.length ∧ old ≠ [] then some (patch old o v) else none

/-- A piece of a signed block of a type. -/
def blockPart (typ : Nat) (old : List Byte) (o : Nat) (v : List Byte) : Part :=
  match joinPiece old o v with
  | none => .bad
  | some b =>
    if b.length < 64 then .more b
    else if !sbHeadOk b || sbType b != typ then .bad
    else
      match sbWhole b with
      | none => .more b
      | some n => if b.length < n then .more b else if b.length = n then .whole b else .bad

/-! ### The station master restarts (01 R27, 12 R304) -/

/-- A session's slot and number of a requester; a mailbox has none. -/
def Via.session? : Via → Option Nat
  | .eth n => some n
  | .i3c n => some n
  | _ => none

/-- The number by which TXN_APPLIED names a requester; a mailbox's is a free value (log entry 40). -/
def Via.number (v : Via) (free : Nat) : Nat :=
  match Via.session? v with
  | some n => n
  | none => (Config.freeWord free).toNat

/-- The channels and the module section that staged writes touch: which channels are involved, and whether the module is
(12 R299). -/
def chanOfIndex (i : Nat) : Option Ch :=
  if 0x4000 ≤ i ∧ i < 0x5000 then some (chOf ((i - 0x4000) / 0x400))
  else if 0x5000 ≤ i ∧ i < 0x5400 then some (chOf ((i - 0x5000) / 0x100))
  else if 0x5800 ≤ i ∧ i < 0x5c00 then some (chOf ((i - 0x5800) / 0x100))
  else if 0x6000 ≤ i ∧ i < 0x7000 then some (chOf ((i - 0x6000) / 0x400))
  else if 0x7000 ≤ i ∧ i < 0x8000 then some (chOf ((i - 0x7000) / 0x400))
  else if 0x8400 ≤ i ∧ i < 0x8800 then some (chOf ((i - 0x8400) / 0x100))
  else if 0x9100 ≤ i ∧ i < 0x9500 then some (chOf ((i - 0x9100) / 0x100))
  else none

/-- Do staged writes touch the module section? -/
def touchesModule (l : List StagedWrite) : Bool := l.any (fun w => (chanOfIndex w.index).isNone)

/-- The channels involved in a transaction (12 R299). -/
def involved (l : List StagedWrite) : List Ch :=
  if touchesModule l then allCh else allCh.filter (fun c => l.any (fun w => chanOfIndex w.index == some c))

/-- Log a transaction event in the logs of the channels involved, and in the module log when the transaction wrote module entries or
nothing (12 Table 12-14; log entry 40). -/
def State.logTxn (s : State) (l : List StagedWrite) (code : Nat) (ps : List Param) : State :=
  let s := (involved l).foldl (fun t c => t.log c 0 code ps) s
  if touchesModule l || l.isEmpty then s.logM 0x8000 code ps else s

/-- A requester's transaction. -/
def Module.txn? (m : Module) (v : Via) : Option Txn := m.txns.find? (fun t => t.via == v)

/-- Put a requester's transaction. -/
def Module.setTxn (m : Module) (t : Txn) : Module := { m with txns := m.txns.filter (fun u => u.via != t.via) ++ [t] }

/-- The open transaction of a requester is rolled back (12 R298, R303, R304): causes of Table 12-14, and the status it shows. -/
def State.rollBack (s : State) (v : Via) (cause code : Nat) : State :=
  match s.m.txn? v with
  | some t =>
    if t.tstate = 1 then
      (s.onM (fun m => m.setTxn { t with tstate := 5, code := code })).logTxn t.staged 0x0c04 [(2, t.stagedNo), (2, cause)]
    else s
  | none => s

/-- The requester of a session. -/
def Session.via (x : Session) : Via := if x.i3c then .i3c x.number else .eth x.number

/-- A session closes: its open transaction is rolled back and its nonce and report go (12 R297, 17 R388). -/
def State.closeSession (s : State) (x : Session) (cause txnCause : Nat) : State :=
  let s := s.rollBack x.via txnCause 0
  (s.onM (fun m =>
    { m with
      sessions := m.sessions.filter (fun y => y.number != x.number), txns := m.txns.filter (fun t => t.via != x.via)
      attests := m.attests.filter (fun a => a.via != x.via) })).logM 0x8000 0x1103 [(4, x.number), (2, cause)]

/-- Close the sessions that meet a test. -/
def State.closeSessions (s : State) (p : Session → Bool) (cause txnCause : Nat) : State :=
  (s.m.sessions.filter p).foldl (fun t x => t.closeSession x cause txnCause) s

/-- The station master restarts: network sessions, their open transactions and set-ups end; channels and mailboxes go on (01 R27,
12 R304). -/
def State.restartSm (s : State) : State :=
  let s := s.closeSessions (fun _ => true) 2 3
  s.onM (fun m => { m with sm := .restarting, setups := [], pausedFrom := some s.count })

/-! ### Floors, firmware and the owner key (17 R380, R381, R383, R385, R386) -/

/-- An UNOWNED module with an owner key and a valid floor certificate becomes NORMAL through a station master restart (17 R385). -/
def State.owned (s : State) : State :=
  if s.m.secState = 2 ∧ s.m.floorValid = true then
    (s.onM (fun m => { m with secState := 0, service := false })).restartSm.logM 0x8000 0x1107
      [(8, natOfBytes (keyId s.m.ownerKey))]
  else s

/-- A floor certificate is acceptable (17 R380). -/
def Module.floorOk (m : Module) (b : List Byte) : Bool :=
  let body := sbBody b
  m.hasOwner && sbSigned b 3 [m.ownerKey] && sbLength b == 16 && field body 8 8 == 0 && decide (m.floorSeq < sbVersion b) &&
    decide (m.firmwareFloor ≤ field body 0 4) && decide (max Config.romFloor m.cfgFloor ≤ field body 4 4)

/-- An accepted floor certificate. -/
def State.raiseFloor (s : State) (b : List Byte) : State :=
  let f := field (sbBody b) 0 4
  let g := field (sbBody b) 4 4
  ((s.onM (fun m => { m with floorCert := b, partFloor := [], fwFloor := f, cfgFloor := g, floorSeq := sbVersion b })).logM 0x8000
    0x1105 [(4, f), (4, g), (4, sbVersion b)]).owned

/-- A piece of FLOOR_CERT: the status it is answered with, and the machine after it. -/
def State.putFloor (s : State) (o : Nat) (v : List Byte) : Nat × State :=
  match blockPart 3 s.m.partFloor o v with
  | .bad => (4, s)
  | .more b => (0, s.onM (fun m => { m with partFloor := b }))
  | .whole b => if s.m.floorOk b then (0, s.raiseFloor b) else (4, s)

/-- The running firmware block. -/
def Module.running (m : Module) : List Byte := (m.banks.getD m.activeBank { block := [] }).block

/-- A firmware block is put into the inactive bank, which becomes the active one (17 R381). -/
def Module.install (m : Module) (b : List Byte) : Module :=
  let n := 1 - m.activeBank
  { m with
    banks := (tab 2 (fun i => if i = n then { block := b } else m.banks.getD i { block := [] })), activeBank := n
    fwPending := [], fwState := 0 }

/-- May a firmware block be staged? -/
def Module.firmwareOk (m : Module) (b : List Byte) : Bool :=
  m.bundleSigned b 1 (m.secState == 0) && decide (m.firmwareFloor ≤ sbVersion b)

/-- A whole firmware block has been staged (17 R381, R383): in RECOVERY a valid one is installed at once and the station master
restarts. -/
def State.stageFirmware (s : State) (b : List Byte) : Nat × State :=
  if s.m.firmwareOk b then
    let t := (s.onM (fun m => { m with fwPending := b, fwState := 1 })).logM 0x8000 0x1104 [(4, sbVersion b), (2, 0)]
    (0, if s.m.secState = 1 then (t.onM (fun m => m.install b)).restartSm else t)
  else (4, (s.onM (fun m => { m with fwPending := [], fwState := 2 })).logM 0x8000 0x1104 [(4, sbVersion b), (2, 1)])

/-- A piece of FW_PENDING. -/
def State.putFirmware (s : State) (o : Nat) (v : List Byte) : Nat × State :=
  match blockPart 1 (if s.m.fwState = 0 then s.m.fwPending else []) o v with
  | .bad => (4, s)
  | .more b => (0, s.onM (fun m => { m with fwPending := b, fwState := 0 }))
  | .whole b => s.stageFirmware b

/-- A new owner key in force: sessions opened with the old owner's key close (17 R386). -/
def State.transferOwner (s : State) (b : List Byte) : State :=
  let old := s.m.ownerKey
  let key := sbBody b
  let s := (s.onM (fun m => { m with ownerKey := key, partKey := [] })).logM 0x8000 0x1107 [(8, natOfBytes (keyId key))]
  s.closeSessions (fun x => Tab.getAll 0 s.m.keyTable (2048 * x.slot) 1793 == old) 3 2

/-- A piece of OWNER_KEY: a raw key in UNOWNED, an owner-transfer block in NORMAL; anything else in NORMAL is a state error (17 R385,
R386). -/
def State.putOwner (s : State) (o : Nat) (v : List Byte) : Nat × State :=
  if s.m.secState = 2 then
    if 1793 < o + v.length then (4, s)
    else
      match joinPiece s.m.partKey o v with
      | none => (4, s)
      | some b =>
        if b.length = 1793 then (0, (s.onM (fun m => { m with ownerKey := b, partKey := [] })).owned)
        else (0, s.onM (fun m => { m with partKey := b }))
  else
    match blockPart 4 s.m.partKey o v with
    | .bad =>
      let transfer := fun (b : List Byte) => decide (64 ≤ b.length) && field b 0 4 == 0x56545342 && sbType b == 4
      (if (joinPiece s.m.partKey o v).all transfer then 4 else 0x11, s)
    | .more b => (0, s.onM (fun m => { m with partKey := b }))
    | .whole b =>
      if sbSigned b 4 [s.m.ownerKey] && sbLength b == 1793 then (0, s.transferOwner b) else (4, s)

/-! ### Tenancy (17 R389, R390) -/

/-- The two sister-link partners of a channel. -/
def sisters (c : Ch) : List Ch := [chOf (c.val + 1), chOf (c.val + 3)]

/-- Is a change of TENANT_SLOT legal: the channel neither RUNNING nor in BOOT, and no RUNNING sister whose window it would open or
close (17 R390)? `slots` gives the slots before and after. -/
def State.tenantLegal (s : State) (before after : Ch → Nat) (c : Ch) : Bool :=
  let st := (s.ch c).ctl.st
  before c == after c ||
    (st != .running && st != .boot &&
      (sisters c).all (fun d => (s.ch d).ctl.st != .running || ((before c == before d) == (after c == after d))))

/-- The slots now. -/
def State.slots (s : State) (c : Ch) : Nat := (s.ch c).ctl.tenantSlot

/-- A tenant change: logged, and carried out through a containment reset unless the channel is OFF (17 R390). -/
def State.newTenant (s : State) (c : Ch) (old new : Nat) : State :=
  let t := (s.onCtl c (fun k => { k with tenantSlot := new, tenantNew := true })).log c 0 0x1108 [(2, c.val), (2, old), (2, new)]
  if (s.ch c).ctl.st = .off then t else t.containment c 5

/-- A write of TENANT_SLOT. -/
def State.setTenant (s : State) (c : Ch) (new : Nat) : State :=
  let old := (s.ch c).ctl.tenantSlot
  if old = new then s else s.newTenant c old new

/-- Key and role of a KEY_TABLE slot. -/
def keySlot (t : Tab Byte) (j : Nat) : List Byte := Tab.getAll 0 t (2048 * j) 1794

/-- ROLE of a KEY_TABLE slot. -/
def keyRole (t : Tab Byte) (j : Nat) : Nat := (Tab.get 0 t (2048 * j + 1793)).toNat

/-- The public key of a KEY_TABLE slot. -/
def keyOf (t : Tab Byte) (j : Nat) : List Byte := Tab.getAll 0 t (2048 * j) 1793

/-- The slots that differ between two key tables. -/
def slotsChanged (a b : Tab Byte) : List Nat := (List.range 16).filter (fun j => keySlot a j != keySlot b j)

/-- What a committed KEY_TABLE write brings about: tenants of changed slots change, and sessions of those slots close (17 R388,
R390). -/
def State.keysChanged (s : State) (old : Tab Byte) : State :=
  let js := slotsChanged old s.m.keyTable
  let s := s.eachCh (fun c t =>
    let n := (t.ch c).ctl.tenantSlot
    if js.contains n then t.newTenant c n n else t)
  s.closeSessions (fun x => js.contains x.slot) 1 2

/-! ### Attestation (17 R393, Table 17-4) -/

/-- Free bytes: a figure that the manual does not state. -/
def freeBytes (n len : Nat) : List Byte := tab len (fun i => (Config.freeWord (n + i)).setWidth 8)

/-- The digest of a configuration block; of none, a free value (log entry 41). -/
def configDigest (b : List Byte) (free : Nat) : List Byte := if b.isEmpty then freeBytes free 64 else sbDigest b

/-- The code of a channel state (12 Table 12-5, P.01). -/
def ChState.code : ChState → Nat
  | .off => 0
  | .boot => 1
  | .standby => 2
  | .ready => 3
  | .running => 4
  | .hold => 5
  | .fault => 6

/-- The channel block of a report, 320 bytes. -/
def State.attestChannel (s : State) (c : Ch) (free : Nat) : List Byte :=
  let x := s.ch c
  let slot := x.ctl.tenantSlot
  (match x.run.image with | some i => i.digest | none => zeros 64) ++
  (if slot < 16 then shake256 (keyOf s.m.keyTable slot) else zeros 64) ++
  configDigest x.ctl.config free ++ shake256 (Config.channelKey c) ++
  bytesOfNat 4 (match x.run.image with | some i => i.ttId | none => 0) ++
  bytesOfNat 4 (match x.run.image with | some i => i.version | none => 0) ++
  bytesOfNat 2 x.run.loadResult ++ bytesOfNat 2 x.rank ++
  bytesOfNat 1 (ChState.code x.ctl.st) ++ bytesOfNat 1 x.watch.detMode ++ bytesOfNat 1 (if x.ctl.signedOnly then 1 else 0) ++
  bytesOfNat 1 x.run.holdStatus ++ zeros 48

/-- The first 1,792 bytes of a report. -/
def State.attestBody (s : State) (scope : Option Ch) (nonce : List Byte) (free : Nat) : List Byte :=
  let m := s.m
  bytesOfNat 4 0x56544131 ++ bytesOfNat 2 0x0100 ++ bytesOfNat 1 (match scope with | some c => c.val + 1 | none => 0) ++ [0] ++
  fitBytes 32 nonce ++ bytesOfNat 8 s.count ++ bytesOfNat 4 m.boots ++
  bytesOfNat 4 ((if m.secState = 1 then 1 else 0) + (if m.secState = 2 then 2 else 0) + (if m.st = .safe then 4 else 0)) ++
  shake256 Config.identityKey ++ (if m.hasOwner then shake256 m.ownerKey else zeros 64) ++ shake256 Config.vendorKey ++
  sbDigest m.running ++ configDigest m.config free ++ bytesOfNat 4 (sbVersion m.running) ++ bytesOfNat 4 Config.romFloor ++
  bytesOfNat 4 m.fwFloor ++ bytesOfNat 4 m.cfgFloor ++ bytesOfNat 4 m.floorSeq ++ zeros 116 ++
  allCh.flatMap (fun c => if scope = none ∨ scope = some c then s.attestChannel c (free + 64 * (c.val + 1)) else zeros 320)

/-- A report with its trailer, filled with zeros to the entry's size. -/
def State.attestReport (s : State) (scope : Option Ch) (nonce : List Byte) : List Byte :=
  let body := s.attestBody scope nonce s.freeNo
  let sig := (Config.falconSign scope (shake256 body)).take 1280
  let key := match scope with | some c => Config.channelKey c | none => Config.identityKey
  fitBytes 3088 (body ++ bytesOfNat 2 1 ++ bytesOfNat 2 sig.length ++ keyId key ++ zeros 4 ++ sig)

/-- The nonce and report of a requester. -/
def Module.attest? (m : Module) (v : Via) (scope : Option Ch) : Option Attest :=
  m.attests.find? (fun a => a.via == v && a.scope == scope)

/-- A piece of ATTEST_NONCE; the piece that ends the nonce makes the keeper generate the report (17 R393; log entry 41). -/
def State.putNonce (s : State) (v : Via) (scope : Option Ch) (o : Nat) (bs : List Byte) : State :=
  let old := match s.m.attest? v scope with | some a => a | none => { via := v, scope := scope, nonce := zeros 32, report := [] }
  let nonce := patch old.nonce o bs
  let report := if o + bs.length = 32 then s.attestReport scope nonce else old.report
  let t : State := { s with freeNo := s.freeNo + 320 }
  t.onM (fun m =>
    { m with attests := m.attests.filter (fun a => !(a.via == v && a.scope == scope)) ++
        [{ via := v, scope := scope, nonce := nonce, report := report }] })

/-! ### Session set-up (17 R387, R388) -/

/-- Send a set-up message in pieces of up to 240 bytes (17 R387, 12 Table 12-9). -/
def State.sendSetup (s : State) (i3c : Bool) (setup step : Nat) (payload : List Byte) : State :=
  let n := max 1 (ceilDiv payload.length 240)
  (List.range n).foldl (fun t j =>
    let p := (payload.drop (240 * j)).take 240
    t.sendDatagram i3c (zeros 4 ++ bytesOfNat 8 setup ++ zeros 4 ++
      [BitVec.ofNat 8 step, BitVec.ofNat 8 j, BitVec.ofNat 8 n, 0] ++ bytesOfNat 2 p.length ++ zeros 10 ++ p)) s

/-- A set-up is refused (17 R388): counted, and for ST_AUTH logged. -/
def State.refuseSetup (s : State) (i3c : Bool) (setup step status : Nat) : State :=
  let s := s.onM (fun m => { m with setupsRefused := m.setupsRefused + 1 })
  let s := if status = 0xc then s.logM 0x8000 0x1101 [(2, if i3c then 3 else 2), (2, step), (2, status)] else s
  s.sendSetup i3c setup 4 (bytesOfNat 2 status)

/-- The KEY_TABLE slot that a KEY_ID names. -/
def slotNamed (t : Tab Byte) (id : List Byte) : Option Nat :=
  (List.range 16).find? (fun j => keyRole t j != 0 && keyId (keyOf t j) == id)

/-- Do management sessions open: in NORMAL, with the station master running (12 R304, 17 R383, R385)? -/
def State.managed (s : State) : Bool := s.smReady && s.m.secState == 0

/-- OPEN (17 R387, Table 17-3). -/
def execOpenSession (i3c : Bool) (setup : Nat) (payload : List Byte) (s : State) : Host.Outcome State Fault Refusal :=
  .next (if !s.managed then s
    else
      let s := s.onM (fun m => { m with setups := m.setups.filter (fun x => !(x.number == setup && x.i3c == i3c)) })
      if 8 ≤ s.m.sessions.length ∨ 4 ≤ s.m.setups.length then s.refuseSetup i3c setup 1 7
      else
        match (if payload.length = 1608 then slotNamed s.m.keyTable (payload.take 8) else none) with
        | none => s.refuseSetup i3c setup 1 0xc
        | some j =>
          let n := s.m.sessionNo + 1
          let kem := Config.mlKem n (payload.drop 40)
          let head := bytesOfNat 4 n ++ fitBytes 32 (Config.deviceNonce n) ++ fitBytes 1568 kem.1 ++ fitBytes 1793 Config.identityKey
          let sig := (Config.falconSign none (shake256 (payload ++ head))).take 1280
          let challenge := head ++ bytesOfNat 2 sig.length ++ sig
          (s.onM (fun m =>
            { m with
              sessionNo := n
              setups := m.setups ++ [{ number := setup, i3c := i3c, session := n, slot := j, openPay := payload
                                       challenge := challenge, secret := kem.2, since := s.count }] })).sendSetup i3c setup 2 challenge)

/-- The customisation strings of R388, in bytes. -/
def customReq : List Byte := [0x56, 0x4d, 0x34, 0x30, 0x20, 0x52, 0x45, 0x51]
/-- "VM40 RSP". -/
def customRsp : List Byte := [0x56, 0x4d, 0x34, 0x30, 0x20, 0x52, 0x53, 0x50]

/-- RESPONSE (17 R388): the session opens with the role of its slot. -/
def execResponse (i3c : Bool) (setup : Nat) (payload : List Byte) (s : State) : Host.Outcome State Fault Refusal :=
  .next (match (if s.managed then s.m.setups.find? (fun x => x.number == setup && x.i3c == i3c) else none) with
    | none => s
    | some x =>
      let s := s.onM (fun m => { m with setups := m.setups.filter (fun y => !(y.number == setup && y.i3c == i3c)) })
      let d2 := shake256 (x.openPay ++ x.challenge)
      let role := keyRole s.m.keyTable x.slot
      let n := field payload 0 2
      if payload.length ≠ 2 + n ∨ role = 0 ∨ Config.falconVerify (keyOf s.m.keyTable x.slot) d2 (payload.drop 2) = false then
        s.refuseSetup i3c setup 3 0xc
      else if 8 ≤ s.m.sessions.length then s.refuseSetup i3c setup 3 7
      else
        ((s.onM (fun m =>
          { m with sessions := m.sessions ++
              [{ number := x.session, i3c := i3c, slot := x.slot, role := role, kreq := kmac256 x.secret d2 customReq
                 krsp := kmac256 x.secret d2 customRsp, seq := 0, lastRsp := [], lastAt := s.count }] })).logM 0x8000 0x1102
          [(4, x.session), (2, x.slot), (2, role)]).sendSetup i3c setup 4 (bytesOfNat 2 0))

/-- SETUP_TIMEOUT (17 R387): a set-up not finished within 2 s is dropped. -/
def execSetupTimeout (number : Nat) (s : State) : Host.Outcome State Fault Refusal :=
  .next (s.onM (fun m =>
    { m with setups := m.setups.filter (fun x => !(x.number == number && s.after x.since 237500000)) }))

/-- SESSION_CLOSED (12 R297): no accepted datagram for 60 s. -/
def execSessionClosed (number : Nat) (s : State) : Host.Outcome State Fault Refusal :=
  .next (match s.m.sessions.find? (fun x => x.number == number) with
    | some x => if s.after x.lastAt 7125000000 then s.closeSession x 0 2 else s
    | none => s)

/-- DYNAMIC_ADDRESS_ASSIGNMENT (19 R412): the I3C target takes the address, by ENTDAA or SETDASA. -/
def execDynamicAddressAssignment (addr : Nat) (_setdasa : Bool) (s : State) : Host.Outcome State Fault Refusal :=
  .next (if s.live then s.onM (fun m => { m with i3cAddr := some addr }) else s)

end Sys2Proof.Machine
end

