-- ==== Sys2Proof/Machine/Entries.lean ====
section
/-! DEFINITION. The object dictionary: every entry with its size, access, what it reads as, which values it takes and what a write does
(12 R288 to R292, Tables 05-6, 06-4, 07-8, 08-10, 09-11, 10-8, 11-4, 12-4, 12-5, 13-7, 14-3, 15-5, 16-9, 17-6, 18-4). -/

namespace Sys2Proof.Machine

/-- The access codes of Table 12-3. -/
inductive Access where
  | const | ro | rw | wo | rwt | rwh
  deriving DecidableEq, Repr

/-- One entry of a section. `off` is the index within the section; `size` the bytes of its value, or for a DOMAIN the bytes it spans;
`own` the channel that an entry of the module section belongs to (12 Table 12-6); `get` gives `n` bytes from byte `o`; `ok` judges a
value at a byte offset (12 R290); `legal` gives the status by which the present state refuses a write beyond Tables 12-3 and 12-11;
`set` carries the write out and gives its status. -/
structure Entry where
  off : Nat
  sub : Nat
  size : Nat
  domain : Bool := false
  acc : Access := .ro
  tenant : Bool := false
  own : Option Ch := none
  cmd : Bool := false
  always : Bool := false
  free : Bool := false
  get : State → Via → Nat → Nat → List Byte := fun _ _ _ n => zeros n
  ok : State → Nat → List Byte → Bool := fun _ _ _ => true
  legal : State → List Byte → Nat := fun _ _ => 0
  set : State → Via → Nat → List Byte → Nat × State := fun s _ _ _ => (0, s)

/-! ### Kinds of entries -/

/-- Bytes `o` to `o + n - 1` of a byte string, zeros beyond its end. -/
def cut (bs : List Byte) (o n : Nat) : List Byte := fitBytes n (bs.drop o)

/-- A read-only number. -/
def roN (off sub size : Nat) (f : State → Nat) : Entry :=
  { off := off, sub := sub, size := size, get := fun s _ o n => cut (bytesOfNat size (f s)) o n }

/-- A read-only counter whose physical events the commands do not all show: what it counts beyond them is a free value (log entry 42). -/
def roFree (off sub size : Nat) (f : State → Nat) : Entry :=
  { off := off, sub := sub, size := size, free := true
    get := fun s _ o n => cut (bytesOfNat size (f s + (Config.freeWord s.freeNo).toNat)) o n }

/-- A read-only byte string: a RECORD, or a DOMAIN read in pieces. -/
def roB (off sub size : Nat) (domain : Bool) (f : State → List Byte) : Entry :=
  { off := off, sub := sub, size := size, domain := domain, get := fun s _ o n => cut (f s) o n }

/-- A read-only DOMAIN read from a place. -/
def roD (off sub size : Nat) (f : State → Nat → Nat → List Byte) : Entry :=
  { off := off, sub := sub, size := size, domain := true, get := fun s _ o n => f s o n }

/-- A stored number with the values it takes. -/
def rwN (acc : Access) (off sub size : Nat) (f : State → Nat) (ok : Nat → Bool) (g : Nat → State → State) : Entry :=
  { roN off sub size f with
    acc := acc
    ok := fun _ _ v => ok (natOfBytes v)
    set := fun s _ _ v => (0, g (natOfBytes v) s) }

/-- A stored BOOL. -/
def rwB (acc : Access) (off sub : Nat) (f : State → Bool) (g : Bool → State → State) : Entry :=
  rwN acc off sub 1 (fun s => if f s then 1 else 0) (fun v => decide (v ≤ 1)) (fun v => g (v == 1))

/-- A stored byte string of fixed size, written in pieces; `ok` judges the whole after the piece. -/
def rwS (acc : Access) (off sub size : Nat) (f : State → List Byte) (ok : List Byte → Bool) (g : List Byte → State → State) : Entry :=
  { roB off sub size true f with
    acc := acc
    ok := fun s o v => ok (patch (fitBytes size (f s)) o v)
    set := fun s _ o v => (0, g (patch (fitBytes size (f s)) o v) s) }

/-- A stored table, written in pieces; `ok` judges a byte at its offset. -/
def rwT (acc : Access) (off sub size : Nat) (f : State → Tab Byte) (ok : Nat → Byte → Bool) (g : Tab Byte → State → State) : Entry :=
  { roD off sub size (fun s o n => Tab.getAll 0 (f s) o n) with
    acc := acc
    ok := fun _ o v => v.zipIdx.all (fun e => ok (o + e.2) e.1)
    set := fun s _ o v => (0, g (Tab.putAll 0 (f s) o v) s) }

/-- A stored table of records of `w` bytes, written in pieces; `ok` judges every record that a piece touches, as it is after it. -/
def rwR (acc : Access) (off sub size w : Nat) (f : State → Tab Byte) (ok : List Byte → Bool) (g : Tab Byte → State → State) : Entry :=
  { rwT acc off sub size f (fun _ _ => true) g with
    ok := fun s o v =>
      let t := Tab.putAll 0 (f s) o v
      (List.range (if v.isEmpty then 0 else (o + v.length - 1) / w - o / w + 1)).all (fun i => ok (Tab.getAll 0 t (w * (o / w + i)) w)) }

/-- A command: accepted where `legal` gives 0 (12 R292). -/
def wo (acc : Access) (off sub size : Nat) (ok : Nat → Bool) (legal : State → Nat → Nat) (g : State → Nat → State) : Entry :=
  { off := off, sub := sub, size := size, acc := acc, cmd := true
    ok := fun _ _ v => ok (natOfBytes v)
    legal := fun s v => legal s (natOfBytes v)
    set := fun s _ _ v => (0, g s (natOfBytes v)) }

/-- The entry belongs to a tenant alone. -/
def Entry.tenantOnly (e : Entry) : Entry := { e with tenant := true }

/-- An entry for each of the four channels, subindices .01 to .04. -/
def perCh (f : Ch → Entry) : List Entry := allCh.map (fun c => { f c with sub := c.val + 1, own := some c })

/-- ST_STATE unless a condition holds. -/
def stateIf (b : Bool) : Nat := if b then 0 else 0x11

/-- Any value. -/
def anyVal (_ : Nat) : Bool := true

/-! ### Logs and domains -/

/-- The 32 bytes of a log entry (16 Table 16-5). -/
def LogEntry.bytes (e : LogEntry) : List Byte :=
  bytesOfNat 8 e.count ++ bytesOfNat 2 e.source ++ bytesOfNat 2 e.code ++ fitBytes 20 e.param

/-- Records of `w` bytes, from byte `o`, `n` bytes. -/
def recBytes (w o n : Nat) (f : Nat → List Byte) : List Byte :=
  if n = 0 then []
  else cut ((List.range ((o + n - 1) / w - o / w + 1)).flatMap (fun i => fitBytes w (f (o / w + i)))) (o % w) n

/-- A log's ring (16 R372): entry `n` stands at place `n` modulo the ring's size. -/
def logRing (cap : Nat) (log : List LogEntry) (next o n : Nat) : List Byte :=
  recBytes 32 o n (fun p =>
    let back := (next + cap - 1 - p) % cap
    if back < log.length then (match log[log.length - 1 - back]? with | some e => LogEntry.bytes e | none => []) else [])

/-- A value in FP32 as a 16-bit count of 1/64 °C, rounded to nearest even and saturated (log entry 42). -/
def toI16 (w : W32) : Int :=
  match decode32 w with
  | .fin neg man exp =>
    let e := exp + 6
    let q := if 0 ≤ e then (man <<< e.toNat) else
      let d := 2 ^ (-e).toNat
      let r := man / d
      let rest := 2 * (man % d)
      if d < rest ∨ (rest = d ∧ r % 2 = 1) then r + 1 else r
    let v : Int := if neg then -(q : Int) else (q : Int)
    max (-32768) (min 32767 v)
  | _ => 0

/-- A region's record in REGION_TEMPS (15 Table 15-5). -/
def Region.temps16 (x : Region) : List Byte :=
  let t := fun i => x.temps.getD i 0
  let st := fun i => x.pairSt.getD i 0
  (tab 4 t).flatMap (fun v => bytesOfNat 2 (i16 v)) ++
  (tab 2 (fun i => x.control.getD i 0)).flatMap (fun v => bytesOfNat 2 (i16 (toI16 v))) ++
  bytesOfNat 2 (i16 (toI16 x.fc)) ++ bytesOfNat 1 (st 0 + 4 * st 1) ++ bytesOfNat 1 x.tstep

/-- A region's record in REGION_HEALTH (13 Table 13-7). -/
def Region.health (x : Region) : List Byte :=
  let st := match x.st with | .on => 0 | .lost => 2 | _ => 1
  bytesOfNat 8 (x.cells + x.fastest * 2 ^ 16 + st * 2 ^ 19 + x.mv * 2 ^ 32)

/-- A layer's record in LAYER_STATE (05 Table 05-6). -/
def LayerState.bytes (l : LayerState) : List Byte :=
  bytesOfNat 4 l.outAvg.toNat ++ bytesOfNat 4 l.gradAvg.toNat ++ bytesOfNat 1 l.outCount ++ bytesOfNat 1 l.gradCount ++
    bytesOfNat 1 (codeOf 8 l.sg) ++ bytesOfNat 1 l.rung ++ bytesOfNat 1 l.hold ++ zeros 3

/-- A layer's state from its record. -/
def layerOf (b : List Byte) : LayerState :=
  { outAvg := BitVec.ofNat 32 (field b 0 4), gradAvg := BitVec.ofNat 32 (field b 4 4), outCount := field b 8 1
    gradCount := field b 9 1, sg := signedOf 8 (field b 10 1), rung := field b 11 1, hold := field b 12 1 }

/-- An average is +0 or a positive finite F32. -/
def averageOk (w : W32) : Bool := decide (w.toNat < 0x7f800000)

/-- One record of a LAYER_STATE piece is acceptable (05 R139). -/
def Chan.layerRecOk (x : Chan) (layer : Nat) (b : List Byte) : Bool :=
  let l := layerOf b
  let rc := x.layerRec layer
  if layer = 0 ∨ rc = 0 then b.all (· == 0)
  else
    decide (x.watch.sgMin ≤ l.sg ∧ l.sg ≤ x.watch.sgMax) && decide (recBase rc ≤ l.rung ∧ l.rung ≤ recCeil rc) &&
      decide (l.hold ≤ bits rc 127 120) && averageOk l.outAvg && averageOk l.gradAvg && field b 13 3 == 0

/-- The records of a LAYER_STATE piece: layer and 16 bytes. -/
def layerPieces (o : Nat) (v : List Byte) : List (Nat × List Byte) :=
  tab (v.length / 16) (fun j => (o / 16 + j, (v.drop (16 * j)).take 16))

/-- A ring setting is valid: a power of two from 64 to 32,768, or nothing at all; zero elsewhere (11 Table 11-4; log entry 42). -/
def ringSetOk (b : List Byte) : Bool :=
  let n := field b 16 2
  field b 18 14 == 0 && ((List.range 10).any (fun i => n == 64 * 2 ^ i) || (n == 0 && field b 0 8 == 0))

/-- A receive queue record lies in Table 09-12's ranges, its reserved bits zero; a record of zeros is none. That a non-zero reserved field is
refused, as 12 R290 says, and not ignored, as 00 R8 says of an entry, is this model's choice (log entry 64). -/
def queueRecOk (b : List Byte) : Bool :=
  let v := natOfBytes b
  v == 0 || (bits v 61 0 == 0 && bits v 99 96 == 0 && rqBase v % 256 == 0 && (match zoneOf (rqBase v) with
      | .region _ => true
      | .board => true
      | _ => false) &&
    rqBytes v % 256 == 0 && decide (256 ≤ rqBytes v ∧ rqBytes v ≤ 2 ^ 26) && decide (1 ≤ rqSlots v) && rqCpl v % 32 == 0 &&
    (rqSignal v == 0 || decide (0x100 ≤ rqSignal v)))

/-- A route record's reserved bits (09 Table 09-11), byte by byte: first port, its valid bit, second port, its valid bit. -/
def routeByteOk (o : Nat) (b : Byte) : Bool :=
  if o % 4 = 0 then decide (b.toNat % 8 ≤ 4 ∧ b.toNat / 16 % 8 ≤ 4) else b == 0

/-- Bytes of KEY_TABLE: ROLE 0 to 3, zeros after it (17 Table 17-6). -/
def keyByteOk (o : Nat) (b : Byte) : Bool :=
  let i := o % 2048
  if i < 1793 then true else if i = 1793 then decide (b.toNat ≤ 3) else b == 0

/-! ### Numbers the entries report -/

/-- MODULE_STATE. -/
def ModState.code : ModState → Nat
  | .boot => 1
  | .normal => 2
  | .safe => 3

/-- The earliest pending change of the four channels, 0 for none (14 Table 14-3). -/
def State.pendingChange (s : State) : Nat :=
  (allCh.filterMap (fun c => (s.ch c).sup.change.map (·.due))).foldl (fun a d => if a = 0 ∨ d < a then d else a) 0

/-- A row of FREQ_TABLE: n, the step, and the ACLK frequency in kHz (14 Table 14-3). -/
def freqRow (step : Nat) : List Byte := bytesOfNat 1 (reefN step) ++ bytesOfNat 1 step ++ bytesOfNat 4 (95000 * reefN step) ++ zeros 2

/-- TIME_ALIGN (14 Table 14-3). -/
def State.timeAlignBytes (s : State) : List Byte :=
  bytesOfNat 8 (codeOf 64 s.offsetNow) ++ bytesOfNat 4 (codeOf 32 s.m.alignRate) ++ bytesOfNat 2 s.m.alignRef ++
    bytesOfNat 1 (if s.m.alignState = 0 then 0 else min 63 s.m.alignHops) ++ bytesOfNat 1 s.m.alignState ++ zeros 16

/-- STATUS of a requester's latest transaction (12 Table 12-10). -/
def Txn.bytes (t : Txn) : List Byte :=
  bytesOfNat 2 t.tstate ++ bytesOfNat 2 t.code ++ bytesOfNat 2 t.entry ++ bytesOfNat 2 t.index ++ bytesOfNat 1 t.sub ++ zeros 1 ++
    bytesOfNat 2 t.stagedNo ++ zeros 2 ++ bytesOfNat 8 t.count ++ zeros 10

/-- LAST_RESET, and the lowest depot address. -/
def Chan.depotBase (x : Chan) : Nat := (x.depot.map (·.1)).foldl (fun a d => if a = 0 then d else min a d) 0

/-! ### Settings with an effect -/

/-- A run-affecting setting is in effect at once, unless the channel is RUNNING (12 R302). -/
def State.setRun (s : State) (c : Ch) (f g : Chan → Chan) : State :=
  let t := s.onCh c f
  if (s.ch c).ctl.st = .running then t else t.onCh c g

/-- DEPOT_SIZE written: the depot's dirty lines are written back (08 R205, R207). -/
def State.setDepot (s : State) (c : Ch) (n : Nat) : State := (s.depotEmpty c).onMem c (fun m => { m with depotSize := n })

/-- FAR_ENABLE written (08 R200): 1 releases the expander's reset and trains the port unless it is up; with no expander present the port
fails. 0 takes the far tier away. -/
def State.setFar (s : State) (c : Ch) (on : Bool) : State :=
  let absent := s.m.pins.cxlPrsntN.getD c.val false
  s.onMem c (fun m =>
    if on then
      { m with farEnable := true, farStatus := if absent then 4 else if m.farStatus = 2 then 2 else 1 }
    else { m with farEnable := false, farStatus := 0, farLink := 0, farCapacity := 0 })

/-- POWER_ALLOWANCE written: equal shares until the next computation (13 R319). -/
def State.setAllowance (s : State) (w : Nat) : State :=
  if s.m.allowance = w then s else (s.onM (fun m => { m with allowance := w })).equalShares

/-- A piece of LAYER_STATE (05 R139): the layers take the states, and the interval's statistics are cleared. -/
def State.setLayers (s : State) (c : Ch) (o : Nat) (v : List Byte) : State :=
  s.onWatch c (fun w =>
    { w with
      layers := (layerPieces o v).foldl (fun t e => Tab.put LayerState.zero t e.1 (layerOf e.2)) w.layers
      stats := [], interval := none, combined := none })

/-! ### The sections -/

/-- Run control, host link and start-up entries of channel c (Tables 06-4, 11-4, 12-5, 13-7, 18-4). -/
def pEntries (c : Ch) : List Entry :=
  let ch := fun (f : Chan → Nat) (s : State) => f (s.ch c)
  let run := fun (f : Nat → Run → Run) (v : Nat) (s : State) => s.onRun c (f v)
  let host := fun (f : Nat → HostLink → HostLink) (v : Nat) (s : State) => s.onHost c (f v)
  [{ roN 0 0x01 1 (ch (fun x => ChState.code x.ctl.st)) with always := true },
   { wo .rwh 0 0x02 8 anyVal (fun s _ => stateIf ((s.ch c).ctl.st == .ready || (s.ch c).ctl.st == .hold)) (fun s v => s.startLoad c v) with
     get := fun s _ o n => cut (bytesOfNat 8 (s.ch c).run.ttLoad) o n },
   wo .wo 0 0x03 1 (fun v => v == 1 || v == 2)
     (fun s v => if v = 1 then (if (s.ch c).startBeyond then 4 else stateIf (s.mayStart c)) else stateIf (s.mayResume c))
     (fun s v => if v = 1 then s.startRun c else s.resumeRun c),
   roN 0 0x04 1 (ch (fun x => x.run.leg)),
   rwN .rwh 0 0x05 4 (ch (fun x => x.run.ticketStep.toNat)) anyVal (run (fun v r => { r with ticketStep := BitVec.ofNat 32 v })),
   roN 0 0x06 2 (ch (fun x => x.run.loadResult)),
   roB 0 0x07 64 true (fun s => match (s.ch c).run.image with | some i => i.digest | none => []),
   wo .wo 0 0x08 1 (fun v => decide (v ≤ 1)) (fun s _ => stateIf ((s.ch c).ctl.st == .running))
     (fun s v => if v = 1 then s.onRun c (fun r => { r with holdRequested := true }) else s),
   rwN .rwh 0 0x09 4 (ch (fun x => x.run.iteration)) anyVal (run (fun v r => { r with iteration := v })),
   { rwN .rwh 0 0x0a 1 (ch (fun x => x.run.startLeg)) anyVal (run (fun v r => { r with startLeg := v })) with
     ok := fun s _ v => decide (natOfBytes v < match (s.ch c).run.image with | some i => i.legCount | none => 64) },
   rwN .rw 0 0x0b 4 (ch (fun x => x.run.stallLimit)) anyVal (run (fun v r => { r with stallLimit := v })),
   roN 0 0x0c 4 (ch (fun x => match x.run.image with | some i => i.ttId | none => 0)),
   { roN 0 0x0d 2 (ch (fun x => x.run.holdStatus)) with always := true },
   { roN 0 0x0e 2 (ch (fun x => x.run.faultStatus)) with always := true },
   wo .wo 0 0x0f 1 (fun v => decide (1 ≤ v ∧ v ≤ 6)) (fun s v => stateIf (s.mayCommand c v)) (fun s v => s.command c v),
   rwB .rwh 0 0x10 (fun s => (s.ch c).run.regionIdleOff) (fun b s => s.onRun c (fun r => { r with regionIdleOff := b })),
   rwN .rwh 0 0x11 8 (ch (fun x => x.run.tokensPerIter)) anyVal (run (fun v r => { r with tokensPerIter := v })),
   roN 0 0x12 4 (ch (fun x => x.ctl.bootTime)),
   roN 0x20 0x01 1 (ch (fun x => x.host.link)),
   rwS .rwh 0x20 0x02 32 (fun s => (s.ch c).host.cplRing) ringSetOk (fun b s => s.onHost c (fun h => { h with cplRing := b })),
   rwS .rwh 0x20 0x03 32 (fun s => (s.ch c).host.evt.ring) ringSetOk
     (fun b s => s.onHost c (fun h => { h with evt := { h.evt with ring := b } })),
   rwN .rw 0x20 0x04 8 (ch (fun x => x.host.evt.mask.toNat)) anyVal
     (host (fun v h => { h with evt := { h.evt with mask := BitVec.ofNat 64 v } })),
   rwN .rwh 0x20 0x05 8 (ch (fun x => x.host.evt.msiAddr)) anyVal (host (fun v h => { h with evt := { h.evt with msiAddr := v } })),
   rwN .rwh 0x20 0x06 4 (ch (fun x => x.host.evt.msiData)) anyVal (host (fun v h => { h with evt := { h.evt with msiData := v } })),
   rwN .rw 0x20 0x07 4 (ch (fun x => x.host.timeout)) anyVal (host (fun v h => { h with timeout := v })),
   roN 0x20 0x08 8 (ch (fun x => x.host.flitReplays)),
   roN 0x20 0x09 8 (ch (fun x => x.host.evt.dropped)),
   roN 0x20 0x0a 8 (ch (fun x => x.host.overrun))]

/-- Numerics and watch entries of channel c (Tables 05-6, 12-5, 06 R168). -/
def bEntries (c : Ch) : List Entry :=
  let ch := fun (f : Chan → Nat) (s : State) => f (s.ch c)
  let w := fun (f : Watch → Watch) (x : Chan) => { x with watch := f x.watch }
  let sg := fun (v : Nat) => decide (-64 ≤ signedOf 32 v ∧ signedOf 32 v ≤ 64)
  let cnt := fun (s : State) (k : Nat) => (s.ch c).run.cluster k
  [rwN .rwh 0x01 0 1 (ch (fun x => x.watch.detMode)) (fun v => decide (v ≤ 1))
     (fun v s => s.onWatch c (fun y => { y with detMode := v })),
   rwB .rwt 0x02 0 (fun s => (s.ch c).watch.zeroSkip)
     (fun b s => s.setRun c (w (fun y => { y with zeroSkip := b })) (w (fun y => { y with zeroSkipNow := b }))),
   rwB .rwt 0x10 0 (fun s => (s.ch c).watch.telltales)
     (fun b s => s.setRun c (w (fun y => { y with telltales := b })) (w (fun y => { y with telltalesNow := b }))),
   rwN .rwt 0x11 0 1 (ch (fun x => x.watch.crowRate)) (fun v => v == 0 || decide (6 ≤ v ∧ v ≤ 16))
     (fun v s => s.setRun c (w (fun y => { y with crowRate := v })) (w (fun y => { y with crowRateNow := v }))),
   rwN .rwh 0x20 1 4 (fun s => codeOf 32 (s.ch c).watch.sgMin) sg (fun v s => s.onWatch c (fun y => { y with sgMin := signedOf 32 v })),
   { rwN .rwh 0x20 2 4 (fun s => codeOf 32 (s.ch c).watch.sgMax) sg
       (fun v s => s.onWatch c (fun y => { y with sgMax := signedOf 32 v })) with
     ok := fun s _ v => sg (natOfBytes v) && decide ((s.ch c).watch.sgMin ≤ signedOf 32 (natOfBytes v)) },
   { roD 0x30 0 65536 (fun s o n => recBytes 16 o n (fun l =>
       match (s.ch c).run.image with | some _ => LayerState.bytes ((s.ch c).watch.layer l) | none => [])) with
     acc := .rwh
     ok := fun s o v => o % 16 == 0 && v.length % 16 == 0 &&
       ((s.ch c).run.image.isNone || (layerPieces o v).all (fun e => (s.ch c).layerRecOk e.1 e.2))
     legal := fun s _ => stateIf (s.ch c).run.image.isSome
     set := fun s _ o v => (0, s.setLayers c o v) },
   roD 0x31 0 12288 (fun s o n => recBytes 8 o n (fun e =>
     let v := Tab.get (0, 0) (s.ch c).watch.suspect e; bytesOfNat 4 v.1 ++ bytesOfNat 2 v.2)),
   roN 0x32 0 4 (ch (fun x => x.watch.skips)),
   roN 0x33 0 4 (ch (fun x => x.watch.unchecked)),
   roB 0x34 0 40 true (fun s => let t := (s.ch c).watch.totals
     bytesOfNat 8 t.sat ++ bytesOfNat 8 t.nan ++ bytesOfNat 8 t.inf ++ bytesOfNat 8 t.stray ++ bytesOfNat 8 t.nanBlocks),
   (roD 0x40 0 9216 (fun s o n => recBytes 24 o n (fun k =>
       let l := cnt s k; bytesOfNat 8 l.zsPred ++ bytesOfNat 8 l.zsMis ++ bytesOfNat 8 l.zsLost))).tenantOnly,
   (roD 0x41 0 23040 (fun s o n => recBytes 60 o n (fun k =>
       (tab 15 (fun j => bytesOfNat 4 (min (2 ^ 32 - 1) (Tab.get 0 (cnt s k).cycles j / 65536)))).flatten))).tenantOnly,
   (roD 0x42 0 3072 (fun s o n => recBytes 8 o n (fun k => bytesOfNat 8 (cnt s k).oor))).tenantOnly]

/-- Memory and world entries of channel c (Tables 08-10, 07-8). -/
def mEntries (c : Ch) : List Entry :=
  let mem := fun (f : Memory → Nat) (s : State) => f (s.ch c).mem
  let m := fun (f : Memory → Memory) (x : Chan) => { x with mem := f x.mem }
  [{ rwN .rwh 0 0 1 (mem (fun x => x.depotSize)) (fun v => decide (v ≤ 8)) (fun v s => s.setDepot c v) with
     legal := fun s _ => stateIf (s.ch c).run.image.isNone },
   roN 0x01 0 8 (fun s => (s.ch c).depotBase),
   rwB .rwt 0x10 0 (fun s => (s.ch c).mem.watchEn)
     (fun b s => s.setRun c (m (fun y => { y with watchEn := b })) (m (fun y => { y with watchEnNow := b }))),
   rwT .rwt 0x10 1 256 (fun s => (s.ch c).mem.watchRanges) (fun o b => o % 8 != 0 || b == 0)
     (fun t s => s.setRun c (m (fun y => { y with watchRanges := t })) (m (fun y => { y with watchRangesNow := t }))),
   rwB .rwh 0x20 1 (fun s => (s.ch c).mem.farEnable) (fun b s => s.setFar c b),
   roN 0x20 2 1 (mem (fun x => x.farStatus)),
   roN 0x20 3 1 (mem (fun x => x.farLink)),
   roN 0x20 4 8 (mem (fun x => x.farCapacity)),
   roN 0x30 0 1 (mem (fun x => x.gddr7)),
   (roN 0x100 1 8 (mem (fun x => x.pfUsed))).tenantOnly,
   (roN 0x100 2 8 (mem (fun x => x.pfLate))).tenantOnly,
   (roN 0x100 3 8 (mem (fun x => x.pfUnused))).tenantOnly,
   (roN 0x100 4 4 (mem (fun x => x.pfLead / x.pfUsed))).tenantOnly,
   (roN 0x100 5 8 (mem (fun x => x.raDropped))).tenantOnly,
   (roN 0x100 6 8 (mem (fun x => x.depotHits))).tenantOnly,
   (roN 0x100 7 8 (mem (fun x => x.depotMisses))).tenantOnly,
   { roD 0x110 0 512 (fun s o n => recBytes 8 o n (fun l => bytesOfNat 8 ((s.ch c).run.legElapsed.getD l 0))) with always := false },
   roN 0x120 1 8 (mem (fun x => x.eccCorrected)),
   roN 0x120 2 8 (mem (fun x => x.crcRetries)),
   roN 0x120 3 8 (mem (fun x => x.poisoned)),
   roN 0x300 0 4 (fun s => match (s.ch c).run.image with | some i => i.slots | none => 0),
   roN 0x301 1 8 (mem (fun x => x.worldResets)),
   roN 0x301 2 8 (mem (fun x => x.epTerminal)),
   roN 0x301 3 8 (mem (fun x => x.epTruncated)),
   roN 0x301 4 8 (mem (fun x => x.lateEnds)),
   roN 0x301 5 8 (mem (fun x => x.doneNan))]

/-- The entries of port p of channel c, at J = 0x10·p within the section (Table 09-11). -/
def jEntries (c : Ch) (p : Pt) : List Entry :=
  let b := 0x10 * p.val
  let q := fun (f : Port → Nat) (s : State) => f (s.ch c).hub.ports[p]
  let on := fun (f : Nat → Port → Port) (v : Nat) (s : State) => s.onPort c p (f v)
  [rwN .rwh b 0x01 1 (q (fun x => x.mode)) (fun v => decide (v ≤ 2) && (v == 0 || decide (2 ≤ p.val)))
     (on (fun v x => { x with mode := v })),
   roN b 0x02 1 (q (fun x => x.linkState)),
   rwB .rwh b 0x03 (fun s => (s.ch c).hub.ports[p].linkEnable) (fun v s => s.setLinkEnable c p v),
   roN b 0x04 4 (q (fun x => x.partner)),
   roN b 0x05 8 (q (fun x => x.retries)),
   roFree b 0x06 8 (q (fun x => x.fecCorrected)),
   roN b 0x07 4 (q (fun x => x.linkDowns)),
   rwN .rwh b 0x08 1 (q (fun x => x.mailPool)) (fun v => decide (v ≤ 4)) (on (fun v x => { x with mailPool := v })),
   rwS .rwh b 0x09 16 (fun s => (s.ch c).hub.ports[p].ipv6) (fun _ => true) (fun v s => s.onPort c p (fun x => { x with ipv6 := v })),
   rwN .rwh b 0x0a 2 (q (fun x => x.udpPort)) anyVal (on (fun v x => { x with udpPort := v })),
   rwN .rwh b 0x0b 1 (q (fun x => x.ethData)) (fun v => decide (v ≤ 1)) (on (fun v x => { x with ethData := v })),
   rwN .rwh b 0x0c 1 (q (fun x => x.trafficClass)) anyVal (on (fun v x => { x with trafficClass := v })),
   roN b 0x0d 8 (q (fun x => x.ethDiscards))]

/-- The channel-wide junction entries, at X = 0x80 within the section (Table 09-11). -/
def xEntries (c : Ch) : List Entry :=
  let h := fun (f : Hub → Nat) (s : State) => f (s.ch c).hub
  let on := fun (f : Nat → Hub → Hub) (v : Nat) (s : State) => s.onHub c (f v)
  [rwT .rwh 0x80 0x01 8192 (fun s => (s.ch c).hub.routeTable) routeByteOk (fun t s => s.onHub c (fun x => { x with routeTable := t })),
   rwT .rwh 0x80 0x02 32768 (fun s => (s.ch c).hub.ethPeers) (fun _ _ => true) (fun t s => s.onHub c (fun x => { x with ethPeers := t })),
   rwR .rwh 0x80 0x03 2048 32 (fun s => (s.ch c).hub.recvQueues) queueRecOk (fun t s => s.onHub c (fun x => { x with recvQueues := t })),
   rwN .rw 0x80 0x04 4 (h (fun x => x.mailTimeout)) anyVal (on (fun v x => { x with mailTimeout := v })),
   rwN .rw 0x80 0x05 4 (h (fun x => x.mailRetry)) anyVal (on (fun v x => { x with mailRetry := v })),
   rwN .rw 0x80 0x06 4 (h (fun x => x.partnerTimeout)) anyVal (on (fun v x => { x with partnerTimeout := v })),
   rwN .rw 0x80 0x07 4 (h (fun x => x.roundTimeout)) anyVal (on (fun v x => { x with roundTimeout := v })),
   roN 0x80 0x08 1 (h (fun x => x.epoch % 256)),
   roN 0x80 0x09 8 (h (fun x => x.combined)),
   roN 0x80 0x0a 8 (h (fun x => x.mailResends)),
   roN 0x80 0x0b 8 (h (fun x => x.detours)),
   roN 0x80 0x0c 8 (h (fun x => x.duplicates)),
   roN 0x80 0x0d 8 (h (fun x => x.doorbellRefused)),
   roN 0x80 0x0e 8 (h (fun x => x.mailHops))]

/-- The exchange entries of channel c (Table 10-8). -/
def yEntries (c : Ch) : List Entry :=
  let y := fun (f : Yard → Nat) (s : State) => f (s.ch c).yard
  let on := fun (f : Nat → Yard → Yard) (v : Nat) (s : State) => s.onYard c (f v)
  let yd := fun (f : Yard → Yard) (x : Chan) => { x with yard := f x.yard }
  [rwN .rwh 0 0x01 2 (y (fun x => x.rank)) (fun v => decide (v < 2048))
     (fun v s => (on (fun v x => { x with rank := v }) v s).rankWritten s.isReference),
   rwN .rwh 0 0x02 2 (y (fun x => x.rankCount)) (fun v => decide (1 ≤ v ∧ v ≤ 2048)) (on (fun v x => { x with rankCount := v })),
   roN 0 0x03 1 (y (fun x => x.exchangeN)),
   roB 0 0x04 1024 true (fun s => match (s.ch c).run.image with
     | some i => if i.hasYard then i.backupMap.flatMap (bytesOfNat 2) else []
     | none => []),
   rwN .rw 0 0x05 4 (y (fun x => x.deadline)) anyVal (on (fun v x => { x with deadline := v })),
   rwN .rw 0 0x06 4 (y (fun x => x.timeout)) anyVal (on (fun v x => { x with timeout := v })),
   rwB .rwt 0 0x07 (fun s => (s.ch c).yard.divergenceHold)
     (fun b s => s.setRun c (yd (fun x => { x with divergenceHold := b })) (yd (fun x => { x with divergenceHoldNow := b }))),
   roN 0 0x08 8 (y (fun x => x.backupsUsed)),
   roN 0 0x09 8 (y (fun x => x.divergences)),
   roN 0 0x0a 8 (y (fun x => x.uncompared)),
   roN 0 0x0b 4 (y (fun x => x.exchanges)),
   (roN 0 0x0c 8 (y (fun x => x.creditWait))).tenantOnly]

/-- The event log and counters of channel c (Tables 12-5, 16-9). -/
def eEntries (c : Ch) : List Entry :=
  let k := fun (f : Ctl → Nat) (s : State) => f (s.ch c).ctl
  [roD 0 0x01 131072 (fun s o n => logRing 4096 (s.ch c).ctl.log (s.ch c).ctl.logNext o n),
   roN 0 0x02 4 (k (fun x => x.logNext)),
   roN 0 0x03 8 (k (fun x => x.refusals)),
   roN 0 0x04 4 (k (fun x => x.resets)),
   roN 0 0x05 8 (k (fun x => x.downtime)),
   roN 0 0x06 8 (fun s => (s.ch c).serviceNow s.count),
   roB 0 0x07 32 false (fun s => (s.ch c).ctl.lastReset),
   roN 0 0x08 8 (k (fun x => x.mismatches))]

/-- A nonce and a report (17 R393). -/
def attestEntries (off subN offR subR : Nat) (scope : Option Ch) : List Entry :=
  let att := fun (s : State) (v : Via) => s.m.attest? v scope
  [{ off := off, sub := subN, size := 32, domain := true, acc := .rw
     get := fun s v o n => cut (match att s v with | some a => a.nonce | none => []) o n
     set := fun s v o b => (0, s.putNonce v scope o b) },
   { off := offR, sub := subR, size := 3088, domain := true
     get := fun s v o n => cut (match att s v with | some a => a.report | none => []) o n }]

/-- A signed block: what it reads as, and what a piece does. -/
def blockEntry (acc : Access) (off sub : Nat) (f : State → List Byte) (set : State → Nat → List Byte → Nat × State) : Entry :=
  { off := off, sub := sub, size := sbMax, domain := true, acc := acc
    get := fun s _ o n => cut (f s) o n
    set := fun s _ o v => set s o v }

/-- The module entries 0x1000 to 0x1FFF (Tables 12-4, 11-4, 16-9). -/
def mod1Entries : List Entry :=
  let m := fun (f : Module → Nat) (s : State) => f s.m
  let on := fun (f : Nat → Module → Module) (v : Nat) (s : State) => s.onM (f v)
  [{ roN 0x1000 0 4 (fun _ => 0x00040028) with acc := .const },
   roN 0x1001 0 1 (m (fun x => ModState.code x.st)),
   wo .wo 0x1002 0 1 (fun v => v == 1) (fun s _ => stateIf s.mayClearSafe) (fun s _ => s.leaveSafe),
   { roB 0x1008 0 7 false (fun _ => [0x56, 0x4d, 0x34, 0x30, 0x2d, 0x41, 0x31]) with acc := .const },
   roB 0x1018 0 Config.identityRecord.length false (fun _ => Config.identityRecord),
   rwS .rwh 0x1100 3 32 (fun s => s.m.evt.ring) ringSetOk (fun b s => s.onM (fun x => { x with evt := { x.evt with ring := b } })),
   rwN .rw 0x1100 4 8 (m (fun x => x.evt.mask.toNat)) anyVal (on (fun v x => { x with evt := { x.evt with mask := BitVec.ofNat 64 v } })),
   rwN .rwh 0x1100 5 8 (m (fun x => x.evt.msiAddr)) anyVal (on (fun v x => { x with evt := { x.evt with msiAddr := v } })),
   rwN .rwh 0x1100 6 4 (m (fun x => x.evt.msiData)) anyVal (on (fun v x => { x with evt := { x.evt with msiData := v } })),
   roN 0x1100 9 8 (m (fun x => x.evt.dropped)),
   rwS .rwh 0x1200 1 16 (fun s => s.m.mgmtIpv6) (fun _ => true) (fun b s => s.onM (fun x => { x with mgmtIpv6 := b })),
   rwN .rwh 0x1200 2 2 (m (fun x => x.mgmtPort)) anyVal (on (fun v x => { x with mgmtPort := v })),
   roN 0x1200 3 1 (m (fun x => x.sessions.length)),
   rwN .rwh 0x1200 4 1 (m (fun x => x.hostRole)) (fun v => decide (v ≤ 1)) (on (fun v x => { x with hostRole := v })),
   roD 0x1f00 0 32768 (fun s o n => logRing 1024 s.m.log s.m.logNext o n),
   roN 0x1f00 1 8 (m (fun x => x.refusals)),
   roD 0x1f00 2 8192 (fun s o n => recBytes 32 o n (fun i => match s.m.flash[i]? with | some e => LogEntry.bytes e | none => []))] ++
  perCh (fun c => roB 0x1f01 0 16 false (fun s =>
    let e := s.m.lifetime.getD c.val (0, 0); bytesOfNat 8 e.1 ++ bytesOfNat 8 e.2))

/-- The power entries (Tables 12-4, 13-7). -/
def powerEntries : List Entry :=
  let m := fun (f : Module → Nat) (s : State) => f s.m
  [rwN .rw 0x2001 0 4 (m (fun x => x.allowance)) (fun v => decide (600 ≤ v ∧ v ≤ 4800)) (fun v s => s.setAllowance v),
   rwN .rw 0x2003 0 1 (m (fun x => x.ceiling)) (fun v => decide (v ≤ 7)) (fun v s => (s.onM (fun x => { x with ceiling := v })).reefAll),
   rwN .rw 0x2004 0 1 (m (fun x => x.shedStep)) (fun v => decide (v ≤ 7)) (fun v s => (s.onM (fun x => { x with shedStep := v })).reefAll),
   rwN .rw 0x2005 0 4 (m (fun x => x.shedPower)) (fun v => decide (600 ≤ v ∧ v ≤ 4800)) (fun v s => s.onM (fun x => { x with shedPower := v })),
   roN 0x2010 0 4 (m (fun x => x.power.toNat)),
   roN 0x2011 0 4 (m (fun x => x.volts.toNat)),
   roN 0x2012 0 4 (m (fun x => x.amps.toNat)),
   roB 0x2100 0 16 false (fun _ => [720, 800, 180, 200, 60, 66, 40, 48].flatMap (bytesOfNat 2)),
   roN 0x2120 0 4 (m (fun x => x.rampWaits)),
   roN 0x9010 0 4 (m (fun x => x.joules.toNat)),
   roN 0x9011 0 8 (m (fun x => x.energy))] ++
  perCh (fun c => roN 0x2002 0 1 (fun s => (s.ch c).sup.step)) ++
  perCh (fun c => roN 0x2020 0 4 (fun s => (s.ch c).sup.power.toNat)) ++
  perCh (fun c => roN 0x2021 0 1 (fun s => (s.ch c).sup.easing)) ++
  perCh (fun c => roN 0x2022 0 1 (fun s => (s.ch c).sup.cause)) ++
  perCh (fun c => roN 0x2023 0 4 (fun s => (s.ch c).sup.share.toNat)) ++
  perCh (fun c => roD 0x2110 0 192 (fun s o n => recBytes 8 o n (fun r => ((s.ch c).sup.region r).health))) ++
  perCh (fun c => roN 0x9012 0 8 (fun s => (s.ch c).sup.energy))

/-- The clock entries (Table 14-3). -/
def clockEntries : List Entry :=
  let u := fun (c : Ch) (f : Supply → Nat) (s : State) => f (s.ch c).sup
  [roB 0x2200 0 64 true (fun _ => (tab 8 freqRow).flatten),
   roN 0x2201 0 8 (fun s => s.pendingChange),
   roN 0x2210 0 8 (fun s => s.count),
   roB 0x2211 0 32 false (fun s => s.timeAlignBytes),
   roN 0x2212 0 1 (fun s => s.m.refclk),
   roN 0x2213 0 8 (fun s => s.alignedCount)] ++
  perCh (fun c => roN 0x2201 0 8 (u c (fun x => match x.change with | some g => g.due | none => 0))) ++
  perCh (fun c => roN 0x2202 0 1 (u c (fun x => match x.change with | some g => g.target | none => 0xff))) ++
  perCh (fun c => roN 0x2203 0 4 (u c (fun x => x.changesDone))) ++
  perCh (fun c => roN 0x2204 0 4 (u c (fun x => x.upshiftsCancelled))) ++
  perCh (fun c => roN 0x2205 0 8 (u c (fun x => x.droopEvents))) ++
  perCh (fun c => roN 0x2206 0 8 (u c (fun x => x.distantSignals))) ++
  perCh (fun c => roN 0x2207 0 8 (u c (fun x => x.stretchCycles))) ++
  perCh (fun c => roN 0x2208 0 1 (u c (fun x => x.maxLag)))

/-- The thermal entries (Table 15-5). -/
def thermalEntries : List Entry :=
  let m := fun (f : Module → Nat) (s : State) => f s.m
  [roN 0x3001 0 4 (fun _ => 593750),
   roN 0x3010 1 4 (m (fun x => x.inlet.value.toNat)),
   roN 0x3010 2 4 (m (fun x => x.outlet.value.toNat)),
   roN 0x3010 3 4 (m (fun x => x.flow.value.toNat)),
   roN 0x3010 4 1 (m (fun x => x.coolState)),
   rwS .rwh 0x3011 0 24 (fun s => s.m.sensorIds) (fun b => (List.range 3).all (fun i => field b (8 * i + 6) 2 == 0))
     (fun b s => s.onM (fun x => { x with sensorIds := b, sensorAddrs := [] })),
   roN 0x3012 0 1 (m (fun x => x.safeCause)),
   roN 0x3013 0 4 (m (fun x => x.trips))] ++
  perCh (fun c => roD 0x3020 0 384 (fun s o n => recBytes 16 o n (fun r => ((s.ch c).sup.region r).temps16))) ++
  perCh (fun c => roD 0x3021 0 288 (fun _ o n => recBytes 12 o n (fun r =>
    bytesOfNat 4 (Config.theta c (rgOf r)).toNat ++ bytesOfNat 4 (Config.tau c (rgOf r)).toNat ++ bytesOfNat 4 (Config.kPos c (rgOf r)).toNat)))

/-- The module security entries, apart from the configuration block (Table 17-6). -/
def securityEntries : List Entry :=
  let m := fun (f : Module → Nat) (s : State) => f s.m
  [roN 0x8000 0 1 (m (fun x => x.secState)),
   roB 0x8001 0 1793 true (fun _ => Config.identityKey),
   roB 0x8002 0 Config.deviceCert.length true (fun _ => Config.deviceCert),
   { roB 0x8003 0 1793 true (fun _ => Config.vendorKey) with acc := .const },
   roN 0x8004 0 4 (m (fun x => x.boots)),
   { blockEntry .rw 0x8010 0 (fun s => s.m.ownerKey) (fun s o v => s.putOwner o v) with
     legal := fun s _ => stateIf (s.m.secState != 1) },
   blockEntry .rw 0x8011 0 (fun s => s.m.floorCert) (fun s o v => s.putFloor o v),
   roB 0x8012 0 16 false (fun s => bytesOfNat 4 Config.romFloor ++ bytesOfNat 4 s.m.fwFloor ++ bytesOfNat 4 s.m.cfgFloor ++
     bytesOfNat 4 s.m.floorSeq),
   blockEntry .rwh 0x8013 0 (fun s => s.m.fwPending) (fun s o v => s.putFirmware o v),
   roN 0x8014 0 1 (m (fun x => x.fwState)),
   rwT .rwt 0x8020 0 32768 (fun s => s.m.keyTable) keyByteOk (fun t s => s.onM (fun x => { x with keyTable := t })),
   roN 0x8040 1 8 (m (fun x => x.authDiscards)),
   roN 0x8040 2 8 (m (fun x => x.setupsRefused))] ++
  attestEntries 0x8030 0 0x8031 0 none

/-- The security entries of channel c, apart from the configuration block (Table 17-6). -/
def kEntries (c : Ch) : List Entry :=
  [{ rwN .rwh 0 0x01 1 (fun s => (s.ch c).ctl.tenantSlot) (fun v => decide (v ≤ 15) || v == 0xff) (fun v s => s.setTenant c v) with
     legal := fun s v => stateIf (s.tenantLegal s.slots (fun d => if d = c then natOfBytes v else s.slots d) c) },
   rwB .rwh 0 0x02 (fun s => (s.ch c).ctl.signedOnly) (fun b s => s.onCtl c (fun k => { k with signedOnly := b })),
   roB 0 0x03 1793 true (fun _ => Config.channelKey c),
   roB 0 0x04 (Config.channelCert c).length true (fun _ => Config.channelCert c)] ++
  attestEntries 0 0x05 0 0x06 (some c)

end Sys2Proof.Machine
end

