-- ==== Sys2Proof/Machine/Control.lean ====
section
/-! DEFINITION. Requests to the object dictionary: who may ask for what and when, configuration blocks, transactions, dictionary messages
and management datagrams, and the commands that write an entry (12 R288 to R308, 18 R400, R401). -/

namespace Sys2Proof.Machine

/-! ### Finding an entry (12 Table 12-1) -/

/-- The transaction entries but for what a write of them does (12 Table 12-4). -/
def txnEntries : List Entry :=
  let flag := fun (sub : Nat) => wo .wo 0xf000 sub 1 (fun v => decide (v ≤ 1)) (fun _ _ => 0) (fun s _ => s)
  [flag 1, flag 2, flag 3,
   { off := 0xf000, sub := 4, size := 32
     get := fun s v o n => cut (match s.m.txn? v with | some t => Txn.bytes t | none => []) o n }]

/-- The entries of channel c's section that the tables list at an index, and the base of its part of the section. -/
def chanEntries (c : Ch) (i : Nat) : Nat × List Entry :=
  if i < 0x5000 then (0x4000 + 0x400 * c.val, mEntries c)
  else if i < 0x5800 then (0x5000 + 0x100 * c.val, [0, 1, 2, 3, 4].flatMap (fun p => jEntries c p) ++ xEntries c)
  else if i < 0x6000 then (0x5800 + 0x100 * c.val, yEntries c)
  else if i < 0x7000 then (0x6000 + 0x400 * c.val, pEntries c)
  else if i < 0x8000 then (0x7000 + 0x400 * c.val, bEntries c)
  else if i < 0x9000 then (0x8400 + 0x100 * c.val, kEntries c)
  else (0x9100 + 0x100 * c.val, eEntries c)

/-- The entries of the module section in the range of an index. -/
def moduleEntries (i : Nat) : List Entry :=
  if i < 0x2000 then mod1Entries
  else if i < 0x3000 then powerEntries ++ clockEntries
  else if i < 0x4000 then thermalEntries
  else if i < 0x9000 then securityEntries
  else if i < 0xf000 then powerEntries
  else txnEntries

/-- The entries at an index: those of every subindex it has. -/
def entriesAt (i : Nat) : List Entry :=
  match chanOfIndex i with
  | some c => let p := chanEntries c i; p.2.filter (fun e => p.1 + e.off == i)
  | none => (moduleEntries i).filter (fun e => e.off == i)

/-! ### Configuration blocks (18 R400, Table 18-3) -/

/-- The records of a configuration block, read with enough fuel; none when one is not well formed. -/
def cfgRecords : Nat → List Byte → Option (List StagedWrite)
  | _, [] => some []
  | 0, _ => none
  | n + 1, b =>
    let len := field b 4 2
    let whole := 8 + ceilDiv len 8 * 8
    if b.length < 8 ∨ b.length < whole ∨ field b 3 1 ≠ 0 ∨ len = 0 ∨ 240 < len ∨
        ((b.drop (8 + len)).take (whole - 8 - len)).any (· != 0) then none
    else
      match cfgRecords n (b.drop whole) with
      | none => none
      | some l => some ({ index := field b 0 2, sub := field b 2 1, offset := field b 6 2, value := (b.drop 8).take len } :: l)

/-- Type and value of a write (12 R290, R294): the status it fails with, or 0. -/
def Entry.formStatus (e : Entry) (s : State) (offset : Nat) (value : List Byte) : Nat :=
  if e.domain then
    if 240 < value.length ∨ e.size ≤ offset ∨ e.size < offset + value.length then 4
    else if e.ok s offset value then 0 else 4
  else if value.length ≠ e.size then 3
  else if offset ≠ 0 then 4
  else if e.ok s 0 value then 0 else 4

/-- A record names an entry that its block may set. -/
def State.cfgRecordOk (s : State) (scope : Option Ch) (l : List Entry) (w : StagedWrite) : Bool :=
  decide (w.index < 0x8000 ∨ 0x9000 ≤ w.index) && chanOfIndex w.index == scope &&
  match l.find? (fun e => e.sub == w.sub) with
  | none => false
  | some e => !e.cmd && (e.acc == .rw || e.acc == .rwt || e.acc == .rwh) && e.formStatus s w.offset w.value == 0

/-- A whole configuration block is acceptable. -/
def State.cfgOk (s : State) (scope : Option Ch) (b : List Byte) : Bool :=
  s.m.bundleSigned b 2 (s.m.secState == 0) && decide (s.m.cfgFloor ≤ sbVersion b) &&
  match cfgRecords (sbLength b + 1) (sbBody b) with
  | none => false
  | some l => l.all (fun w => s.cfgRecordOk scope (entriesAt w.index) w)

/-- A piece of CONFIG_MODULE or of CONFIG_CHANNEL. -/
def State.putConfig (s : State) (scope : Option Ch) (o : Nat) (v : List Byte) : Nat × State :=
  let old := match scope with | none => s.m.partConfig | some c => Tab.get [] s.m.partChan c.val
  let part := fun (b : List Byte) (t : State) =>
    match scope with
    | none => t.onM (fun m => { m with partConfig := b })
    | some c => t.onM (fun m => { m with partChan := Tab.put [] m.partChan c.val b })
  match blockPart 2 old o v with
  | .bad => (4, s)
  | .more b => (0, part b s)
  | .whole b =>
    if s.cfgOk scope b then
      (0, part [] (match scope with
        | none => s.onM (fun m => { m with config := b })
        | some c => s.onCtl c (fun k => { k with config := b })))
    else (4, s)

/-- The configuration entries (18 Table 18-4). -/
def configEntries (i : Nat) : List Entry :=
  match chanOfIndex i with
  | some c =>
    if i = 0x8400 + 0x100 * c.val then
      [blockEntry .rwh 0 7 (fun s => (s.ch c).ctl.config) (fun s o v => s.putConfig (some c) o v)]
    else []
  | none => if i = 0x8015 then [blockEntry .rwh 0x8015 0 (fun s => s.m.config) (fun s o v => s.putConfig none o v)] else []

/-- Every entry at an index. -/
def allAt (i : Nat) : List Entry := entriesAt i ++ configEntries i

/-- The entry at an index and subindex. -/
def entry? (i sub : Nat) : Option Entry := (allAt i).find? (fun e => e.sub == sub)

/-! ### Roles and rights (12 R293, R295, 17 R385, R389) -/

/-- The open session that a requester names. -/
def State.session? (s : State) (v : Via) : Option Session := s.m.sessions.find? (fun x => x.via == v)

/-- The role of a requester: 0 unauthenticated, 1 ADMIN, 2 MONITOR, 3 TENANT. -/
def State.roleOf (s : State) (v : Via) : Nat :=
  match v with
  | .chMbox _ => 3
  | .modMbox => if s.m.secState ≠ 0 ∨ s.m.hostRole = 0 then 1 else 2
  | .i3c 0 => if s.m.secState = 1 then 1 else 0
  | _ => match s.session? v with | some x => x.role | none => 0

/-- The channels whose tenant a requester is: of a session, those whose TENANT_SLOT names its slot, a new tenant's from when the channel
is READY (17 R390). -/
def State.tenantOf (s : State) (v : Via) : List Ch :=
  match v with
  | .chMbox c => [c]
  | _ =>
    match s.session? v with
    | some x => if x.role = 3 then allCh.filter (fun c => (s.ch c).ctl.tenantSlot == x.slot && !(s.ch c).ctl.tenantNew) else []
    | none => []

/-- Do doorbell entries or a mailbox request stand ahead in the signal box's queue (11 R281)? -/
def HostLink.queued (h : HostLink) : Bool := h.dbHead != h.dbTail || h.startWait.isSome || h.goTail.isSome

/-- Does a request of this path reach its keeper: one on a channel mailbox waits until what stands ahead of it in the signal box's queue has
left (11 R281; log entry 26); while the station master restarts or is not yet up, Ethernet and I3C do not answer, and in
RECOVERY the mask ROM serves the module mailbox and I3C (12 R304, 17 R383)? -/
def State.hears (s : State) (v : Via) : Bool :=
  match v with
  | .chMbox c => s.live && !(s.ch c).host.queued
  | .modMbox => s.smReady || s.m.sm == .restarting || (s.m.sm == .rom && s.m.secState == 1)
  | .eth n => s.smReady && n != 0 && (s.session? v).isSome
  | .i3c n => if n = 0 then s.smReady || (s.m.sm == .rom && s.m.secState == 1) else s.smReady && (s.session? v).isSome

/-- CHANNEL_STATE: P.01 of some channel. -/
def isChState (i sub : Nat) : Bool := decide (0x6000 ≤ i ∧ i < 0x7000) && i % 0x400 == 0 && sub == 1

/-- TENANT_SLOT of a channel: K.01. -/
def isSlot (i sub : Nat) : Bool := decide (0x8400 ≤ i ∧ i < 0x8800) && i % 0x100 == 0 && sub == 1

/-- LEG_ELAPSED of a channel: (M + 0x110).00. -/
def isElapsed (i sub : Nat) : Bool := decide (0x4000 ≤ i ∧ i < 0x5000) && i % 0x400 == 0x110 && sub == 0

/-- The subset that needs no authentication (12 R297). -/
def openSubset (i sub : Nat) : Bool :=
  isChState i sub || [(0x1000, 0), (0x1001, 0), (0x1008, 0), (0x1018, 0), (0x2001, 0), (0x2002, 1), (0x2002, 2), (0x2002, 3),
    (0x2002, 4), (0x2003, 0), (0x3010, 1), (0x3010, 2), (0x3010, 3)].contains (i, sub)

/-- What the mask ROM serves in RECOVERY (17 R383). -/
def romSubset (i sub : Nat) : Bool :=
  [(0x8000, 0), (0x8001, 0), (0x8002, 0), (0x8012, 0), (0x8013, 0), (0x8014, 0)].contains (i, sub)

/-- May a requester read an entry (12 Table 12-6)? -/
def State.mayRead (s : State) (v : Via) (i : Nat) (e : Entry) : Bool :=
  let own := s.tenantOf v
  match chanOfIndex i with
  | some c =>
    if s.roleOf v = 3 then own.contains c || isChState i e.sub || isElapsed i e.sub else !e.tenant
  | none => s.roleOf v != 3 || (match e.own with | some c => own.contains c | none => true)

/-- May a requester write an entry (12 Table 12-6, 17 R389)? A tenant's transaction touches its channel only, so that ATTEST_NONCE of the
module, which would involve every channel (12 R299), is written outside one. -/
def State.mayWrite (s : State) (v : Via) (i : Nat) (e : Entry) : Bool :=
  match s.roleOf v with
  | 1 => true
  | 3 =>
    (match chanOfIndex i with
     | some c =>
       (s.tenantOf v).contains c && (decide (i < 0x8000 ∨ 0x9000 ≤ i) || e.sub == 5) &&
       (match s.m.txn? v with
        | some t => t.tstate != 1 || t.staged.all (fun w => chanOfIndex w.index == some c)
        | none => true)
     | none =>
       decide (0xf000 ≤ i) ||
       (i == 0x8030 && e.sub == 0 && (match s.m.txn? v with | some t => t.tstate != 1 | none => true)))
  | _ => false

/-! ### Requests (12 R307) -/

/-- A dictionary request: `len` is the LENGTH of a read; `bad` says that the message itself was invalid. -/
structure Request where
  write : Bool
  index : Nat
  sub : Nat
  offset : Nat
  len : Nat
  value : List Byte
  bad : Bool := false
  deriving DecidableEq, Repr

/-- The status by which the present state refuses an access (12 Table 12-11, R291, R306, 17 R383). -/
def State.stateStatus (s : State) (write : Bool) (i : Nat) (e : Entry) (v : List Byte) : Nat :=
  if s.m.secState = 1 ∧ romSubset i e.sub = false then 0x11
  else
    match chanOfIndex i with
    | some c =>
      let st := (s.ch c).ctl.st
      if write && e.cmd then e.legal s v
      else if st == .off || st == .boot then
        if isSlot i e.sub && st == .off then (if write then e.legal s v else 0)
        else stateIf (!write && e.always)
      else if write then (if e.acc == .rwh && st == .running then 0x11 else e.legal s v)
      else 0
    | none =>
      if write then
        if e.acc == .rwh && allCh.any (fun c => (s.ch c).ctl.st == .running) then 0x11 else e.legal s v
      else 0

/-- Length and offset of a read (12 R294). -/
def Entry.readStatus (e : Entry) (r : Request) : Nat :=
  if e.domain then (if 240 < r.len ∨ e.size ≤ r.offset ∨ e.size < r.offset + r.len then 4 else 0)
  else if r.len ≠ 0 ∧ r.len ≠ e.size then 3
  else if r.offset ≠ 0 then 4 else 0

/-- The bytes of a read. -/
def Entry.readLen (e : Entry) (r : Request) : Nat :=
  if r.len ≠ 0 then r.len else if e.domain then min 240 (e.size - r.offset) else e.size

/-- The transaction entries' own order errors, staging and RWT (12 R291, R298). -/
def State.txnStatus (s : State) (v : Via) (r : Request) (e : Entry) : Nat :=
  let t := s.m.txn? v
  let isOpen := match t with | some t => t.tstate == 1 | none => false
  if r.index = 0xf000 then
    if r.sub = 1 then (if isOpen then 0xd else 0) else (if isOpen then 0 else 0xa)
  else if isOpen then
    if e.cmd then 0xe else (match t with | some t => if 256 ≤ t.staged.length then 9 else 0 | none => 0)
  else if e.acc == .rwt then 8 else 0

/-- The first failing check of a request, 0 for none: all checks of R307 up to the value, and the present state unless the write is
staged. -/
def State.checkEntry (s : State) (v : Via) (r : Request) (e : Entry) : Nat :=
  if !(if r.write then s.mayWrite v r.index e else s.mayRead v r.index e) then 6
  else if (if r.write then e.acc == .const || e.acc == .ro else e.acc == .wo) then 5
  else
    let txn := if r.write then s.txnStatus v r e else 0
    if txn ≠ 0 then txn
    else
      let form := if r.write then e.formStatus s r.offset r.value else e.readStatus r
      if form ≠ 0 then form
      else if r.bad then 4
      else
        let staging := r.write && !e.cmd && (match s.m.txn? v with | some t => t.tstate == 1 | none => false)
        if staging then (if s.m.secState = 1 then 0x11 else 0) else s.stateStatus r.write r.index e r.value

/-- The keeper of an entry does not serve (12 R304). -/
def State.keeperBusy (s : State) (v : Via) (i : Nat) : Bool :=
  match v with
  | .chMbox _ => (chanOfIndex i).isNone && !s.smReady
  | _ => s.m.sm == .restarting

/-- The status of a request before it is carried out, and the entry it names. -/
def State.check (s : State) (v : Via) (r : Request) : Nat × Option Entry :=
  if s.keeperBusy v r.index then (7, none)
  else if s.roleOf v = 0 ∧ (r.write = true ∨ openSubset r.index r.sub = false) then (0xc, none)
  else if (allAt r.index).isEmpty then (1, none)
  else
    match entry? r.index r.sub with
    | none => (2, none)
    | some e => (s.checkEntry v r e, some e)

/-- The transport code of CMD_REFUSED (12 Table 12-14). -/
def Via.transport : Via → Nat
  | .chMbox _ => 0
  | .modMbox => 1
  | .eth _ => 2
  | .i3c _ => 3

/-- A refused request: counted in its section, and logged for ST_STATE and ST_PERMISSION (12 R307, Table 12-14). -/
def State.refuse (s : State) (v : Via) (r : Request) (status : Nat) : State :=
  let c? := chanOfIndex r.index
  let ps : List Param :=
    [(2, r.index), (2, r.sub), (2, status), (2, Via.transport v), (2, s.roleOf v),
     (2, match c? with | some c => ChState.code (s.ch c).ctl.st | none => 0xff), (4, natOfBytes (r.value.take 4))]
  match c? with
  | some c =>
    let t := s.onCtl c (fun k => { k with refusals := k.refusals + 1 })
    if status = 0x11 ∨ status = 6 then t.log c 0 0x0c01 ps else t
  | none =>
    let t := s.onM (fun m => { m with refusals := m.refusals + 1 })
    if status = 0x11 ∨ status = 6 then t.logM 0x8000 0x0c01 ps else t

/-! ### Transactions (12 R298 to R303) -/

/-- BEGIN: a new transaction. -/
def State.openTxn (s : State) (v : Via) : State :=
  s.onM (fun m => m.setTxn { via := v, tstate := 1, code := 0, entry := 0, index := 0, sub := 0, staged := [], stagedNo := 0, count := 0
                             openedAt := s.count })

/-- A staged write. -/
def State.stageWrite (s : State) (v : Via) (r : Request) : State :=
  match s.m.txn? v with
  | some t =>
    s.onM (fun m => m.setTxn
      { t with staged := t.staged ++ [{ index := r.index, sub := r.sub, offset := r.offset, value := r.value }]
               stagedNo := t.stagedNo + 1 })
  | none => s

/-- Carry out one staged write; TENANT_SLOT is stored, and the change of tenant follows when all writes are in. -/
def State.applyOne (s : State) (v : Via) (w : StagedWrite) : Nat × State :=
  match entry? w.index w.sub with
  | none => (1, s)
  | some e =>
    let form := e.formStatus s w.offset w.value
    if form ≠ 0 then (form, s)
    else if isSlot w.index w.sub then
      match chanOfIndex w.index with
      | some c => (0, s.onCtl c (fun k => { k with tenantSlot := natOfBytes w.value }))
      | none => (0, s)
    else e.set s v w.offset w.value

/-- Carry out staged writes in order, numbered from `n`: the number of the first that fails and its status, and the machine. -/
def State.applyList (s : State) (v : Via) (n : Nat) : List StagedWrite → Option (Nat × Nat) × State
  | [] => (none, s)
  | w :: ws =>
    let r := s.applyOne v w
    if r.1 ≠ 0 then (some (n, r.1), r.2) else State.applyList r.2 v (n + 1) ws

/-- The status by which the present state refuses one staged write (12 R300, Table 12-11). -/
def State.partStatus (s : State) (w : StagedWrite) : Nat :=
  match entry? w.index w.sub with
  | none => 1
  | some e =>
    if isSlot w.index w.sub then
      (match chanOfIndex w.index with
       | some c => stateIf ((s.ch c).ctl.st != .running && (s.ch c).ctl.st != .boot)
       | none => 0)
    else s.stateStatus true w.index e w.value

/-- The channels whose tenant the writes change: a different slot, or a slot with a different key or role (17 R390). -/
def State.tenantsChanged (s after : State) : List Ch :=
  let js := slotsChanged s.m.keyTable after.m.keyTable
  allCh.filter (fun c => s.slots c != after.slots c || js.contains (after.slots c))

/-- A transaction's changes of tenant are legal (17 R390). -/
def State.tenantsLegal (s after : State) : Bool :=
  (s.tenantsChanged after).all (fun c =>
    s.tenantLegal s.slots after.slots c && (s.ch c).ctl.st != .running && (s.ch c).ctl.st != .boot)

/-- The first offending write of a transaction in the present state: its number and status. -/
def State.offending (s : State) (v : Via) (ws : List StagedWrite) : Option (Nat × Nat) :=
  match (ws.zipIdx.map (fun e => (e.2 + 1, s.partStatus e.1))).find? (fun e => e.2 != 0) with
  | some e => some e
  | none =>
    let r := s.applyList v 1 ws
    match r.1 with
    | some e => some e
    | none =>
      if s.tenantsLegal r.2 then none
      else
        match ws.zipIdx.find? (fun e => isSlot e.1.index e.1.sub || e.1.index == 0x8020) with
        | some e => some (e.2 + 1, 0x11)
        | none => some (1, 0x11)

/-- Apply a transaction's writes together (12 R301, R302): tenants change and sessions of changed slots close (17 R388, R390). -/
def State.applyAll (s : State) (v : Via) (ws : List StagedWrite) : State :=
  let t := (s.applyList v 1 ws).2
  let js := slotsChanged s.m.keyTable t.m.keyTable
  let t := (s.tenantsChanged t).foldl (fun u c => u.newTenant c (s.slots c) (t.slots c)) t
  t.closeSessions (fun x => js.contains x.slot) 1 2

/-- A transaction refused, at COMMIT (0) or at the commit count (1). -/
def State.refuseTxn (s : State) (v : Via) (t : Option Txn) (ws : List StagedWrite) (n status late : Nat) : State :=
  let w := ws.getD (n - 1) { index := 0, sub := 0, offset := 0, value := [] }
  let s := match t with
    | some t => s.onM (fun m => m.setTxn
        { t with via := v, tstate := 4, code := status, entry := n, index := w.index, sub := w.sub, staged := [] })
    | none => s
  s.logTxn ws 0x0c02 [(2, n), (2, w.index), (2, w.sub), (2, status), (2, late)]

/-- The commit count of an acceptance: the first multiple of 2^16 at least 4,096 counts away (12 R300). -/
def commitAt (now : Nat) : Nat := ceilDiv (now + 4096) 65536 * 65536

/-- COMMIT: the status, the machine, and the commit count. -/
def State.commit (s : State) (v : Via) (t : Txn) : Nat × List Byte × State :=
  match s.offending v t.staged with
  | some e =>
    (e.2, [], (s.refuseTxn v (some t) t.staged e.1 e.2 0).onM (fun m => { m with refusals := m.refusals + 1 }))
  | none =>
    let n := commitAt s.count
    (0, bytesOfNat 8 n, s.onM (fun m =>
      { (m.setTxn { t with tstate := 2, count := n, staged := [] }) with
        commits := m.commits ++ [{ via := v, count := n, acceptedAt := s.count, writes := t.staged }] }))

/-- The session's transaction whose commit is pending for a count. -/
def Module.pendingTxn? (m : Module) (p : PendCommit) : Option Txn :=
  m.txns.find? (fun t => t.via == p.via && t.tstate == 2 && t.count == p.count)

/-- One commit at its count. -/
def State.commitOne (s : State) (p : PendCommit) : State :=
  let t? := s.m.pendingTxn? p
  match s.offending p.via p.writes with
  | some e => s.refuseTxn p.via t? p.writes e.1 0x11 1
  | none =>
    let t := s.applyAll p.via p.writes
    let t := match t.m.pendingTxn? p with
      | some x => t.onM (fun m => m.setTxn { x with tstate := 3, code := 0 })
      | none => t
    let free := t.freeNo
    let t := t.logTxn p.writes 0x0c03 [(8, p.count), (2, p.writes.length), (4, Via.number p.via free)]
    { t with freeNo := t.freeNo + 1 }

/-- COMMIT_COUNT (12 R301, R303): every commit whose count has come, in the order of acceptance. -/
def execCommitCount (s : State) : Host.Outcome State Fault Refusal :=
  let due := s.m.commits.filter (fun p => decide (p.count ≤ s.count))
  .next (due.foldl (fun t p => t.commitOne p)
    (s.onM (fun m => { m with commits := m.commits.filter (fun p => !decide (p.count ≤ s.count)) })))

/-- TXN_TIMEOUT (12 R303): a transaction open for 10 s. -/
def execTxnTimeout (via : Via) (s : State) : Host.Outcome State Fault Refusal :=
  .next (match s.m.txn? via with
    | some t => if t.tstate = 1 ∧ s.after t.openedAt 1187500000 = true then s.rollBack via 1 0xb else s
    | none => s)

/-! ### Carrying a request out -/

/-- An accepted request: status, bytes returned, and the machine. -/
def State.accept (s : State) (v : Via) (r : Request) (e : Entry) : Nat × List Byte × State :=
  if r.write = false then
    (0, e.get s v r.offset (e.readLen r), if e.free then { s with freeNo := s.freeNo + 8192 } else s)
  else if r.index = 0xf000 then
    if natOfBytes r.value = 0 then (0, [], s)
    else if r.sub = 1 then (0, [], s.openTxn v)
    else if r.sub = 3 then (0, [], s.rollBack v 0 0)
    else match s.m.txn? v with | some t => s.commit v t | none => (0, [], s)
  else if !e.cmd && (match s.m.txn? v with | some t => t.tstate == 1 | none => false) then (0, [], s.stageWrite v r)
  else
    let u := e.set s v r.offset r.value
    (u.1, [], if u.1 = 0 then u.2 else u.2.refuse v r u.1)

/-- A request: status, bytes returned, and the machine after it. -/
def State.request (s : State) (v : Via) (r : Request) : Nat × List Byte × State :=
  let k := s.check v r
  match k.2 with
  | some e => if k.1 = 0 then s.accept v r e else (k.1, [], s.refuse v r k.1)
  | none => (k.1, [], s.refuse v r k.1)

/-- The channel whose WAKE a request has begun, when it is not READY yet (12 R305). -/
def State.wakeWaits (s : State) (r : Request) (status : Nat) : Option Ch :=
  match chanOfIndex r.index with
  | some c =>
    if r.write = true ∧ r.index = 0x6000 + 0x400 * c.val ∧ r.sub = 0xf ∧ r.value = [2] ∧ status = 0 ∧ (s.ch c).ctl.st = .standby then
      some c
    else none
  | none => none

/-- Carry a request out and answer it; a WAKE is answered once its channel is READY (12 R305). -/
def State.carry (s : State) (q : Reply) (v : Via) (r : Request) : State :=
  let a := s.request v r
  match a.2.2.wakeWaits r a.1 with
  | some c => a.2.2.onCtl c (fun k => { k with waking := k.waking ++ [q] })
  | none => a.2.2.reply q a.1 a.2.1

/-- A request on a path that reaches the M40, and its answer; on a path without an open session it is discarded and counted (12 R295,
R297). -/
def State.serve (s : State) (v : Via) (r : Request) : State :=
  if s.hears v then s.carry (.plain v) v r
  else if s.smReady && (match Via.session? v with | some n => n != 0 | none => false) then
    s.onM (fun m => { m with authDiscards := m.authDiscards + 1 })
  else s

/-- A write of an entry. -/
def writeReq (index sub offset : Nat) (value : List Byte) : Request :=
  { write := true, index := index, sub := sub, offset := offset, len := value.length, value := value }

/-- A read of an entry, whole. -/
def readReq (index sub : Nat) : Request := { write := false, index := index, sub := sub, offset := 0, len := 0, value := [] }

/-! ### Configuration blocks applied (18 R401) -/

/-- The status a record is refused with when it is applied: a direct write by ADMIN, outside any transaction. -/
def State.cfgStatus (s : State) (w : StagedWrite) : Nat :=
  match entry? w.index w.sub with
  | none => if (allAt w.index).isEmpty then 1 else 2
  | some e =>
    if e.acc == .const || e.acc == .ro || e.acc == .wo then 5
    else if e.acc == .rwt then 8
    else
      let form := e.formStatus s w.offset w.value
      if form ≠ 0 then form else s.stateStatus true w.index e w.value

/-- One record applied, or skipped and logged. -/
def State.cfgRecord (s : State) (scope : Option Ch) (w : StagedWrite) : State :=
  let skip := fun (t : State) (status : Nat) =>
    let ps : List Param := [(2, w.index), (2, w.sub), (2, status)]
    match scope with
    | none => t.logM 0x8000 0x1203 ps
    | some c => t.log c 0 0x1203 ps
  let status := s.cfgStatus w
  if status ≠ 0 then skip s status
  else
    match entry? w.index w.sub with
    | none => s
    | some e => let u := e.set s .modMbox w.offset w.value; if u.1 = 0 then u.2 else skip u.2 u.1

/-- A configuration block applied in order. -/
def State.applyConfig (s : State) (scope : Option Ch) : State :=
  let b := match scope with | none => s.m.config | some c => (s.ch c).ctl.config
  if b.isEmpty then s
  else
    match cfgRecords (sbLength b + 1) (sbBody b) with
    | none => s
    | some l => l.foldl (fun t w => t.cfgRecord scope w) s

/-! ### Dictionary messages (12 R294, Table 12-7) -/

/-- The request in a message. -/
def requestOf (b : List Byte) : Request :=
  let op := field b 2 1
  let len := field b 12 2
  let value := (b.drop 16).take len
  let bad := decide (b.length < 16) || !(op == 1 || op == 2) || field b 3 1 != 0 || field b 7 1 != 0 || field b 14 2 != 0 ||
    decide (240 < len) || (op == 2 && value.length != len)
  { write := op == 2, index := field b 4 2, sub := field b 6 1, offset := field b 8 4, len := len
    value := if op = 2 then value else [], bad := bad }

/-! ### Management datagrams (12 R296, R297, Table 12-9) -/

/-- A datagram discarded for its tag, its session or its sequence number. -/
def State.discardDatagram (s : State) : State := s.onM (fun m => { m with authDiscards := m.authDiscards + 1 })

/-- The request that a datagram carries; one whose reserved bytes 12 to 15 are not zero is refused as the message's own are (12 R294,
Table 12-9, 00 R3; log entry 46). -/
def datagramReq (d message : List Byte) : Request :=
  let r := requestOf message
  { r with bad := r.bad || field d 12 4 != 0 }

/-- Does the answer to a session's datagram still wait (12 R305)? -/
def State.answerDue (s : State) (session seq : Nat) : Bool :=
  allCh.any (fun c => (s.ch c).ctl.waking.any (fun q =>
    match q with | .datagram n d => n == session && field d 4 8 == seq | _ => false))

/-- A datagram of an open session (12 R297); a repeated one whose answer still waits gets that answer when it comes. -/
def State.sessionDatagram (s : State) (x : Session) (d : List Byte) : State :=
  let body := d.take (d.length - 32)
  let seq := field d 4 8
  if d.length < 48 ∨ kmac256 x.kreq body customTag ≠ d.drop (d.length - 32) then s.discardDatagram
  else if s.answerDue x.number seq then s
  else if x.lastRsp ≠ [] ∧ seq = x.seq then s.sendDatagram x.i3c x.lastRsp
  else if seq < x.seq then s.discardDatagram
  else
    (s.onM (fun m =>
      { m with sessions := m.sessions.map (fun y => if y.number = x.number then { y with seq := seq, lastAt := s.count } else y) })).carry
      (.datagram x.number d) x.via (datagramReq d (body.drop 16))

/-- MANAGEMENT_DATAGRAM (12 R296, R297): session 0 carries set-ups, which have commands of their own, and on I3C unauthenticated
requests. The datagram is what came to MGMT_PORT at an own address, or in an MCTP message of type 0x7F with the vendor's number (log
entry 46). -/
def execManagementDatagram (i3c : Bool) (datagram : List Byte) (s : State) : Host.Outcome State Fault Refusal :=
  .next (
    let n := field datagram 0 4
    if n = 0 then
      if i3c && s.hears (.i3c 0) then
        let message := datagram.drop 16
        let a := s.request (.i3c 0) (datagramReq datagram message)
        a.2.2.sendDatagram true (datagram.take 12 ++ zeros 4 ++ responseOf message a.1 a.2.1)
      else s
    else if !s.smReady then s
    else
      match s.m.sessions.find? (fun x => x.number == n && x.i3c == i3c) with
      | some x => s.sessionDatagram x datagram
      | none => s.discardDatagram)

/-! ### Commands that write one entry -/

/-- A write of an entry by a command. -/
def State.put (s : State) (via : Via) (index sub offset : Nat) (value : List Byte) : Host.Outcome State Fault Refusal :=
  .next (s.serve via (writeReq index sub offset value))

/-- The run-control base P of a channel. -/
def baseP (c : Ch) : Nat := 0x6000 + 0x400 * c.val
/-- The numerics base B of a channel. -/
def baseB (c : Ch) : Nat := 0x7000 + 0x400 * c.val
/-- The memory base M of a channel. -/
def baseM (c : Ch) : Nat := 0x4000 + 0x400 * c.val
/-- The security base K of a channel. -/
def baseK (c : Ch) : Nat := 0x8400 + 0x100 * c.val

/-- TT_LOAD (06 R148). -/
def execTtLoad (via : Via) (c : Ch) (addr : Nat) (s : State) : Host.Outcome State Fault Refusal :=
  s.put via (baseP c) 2 0 (bytesOfNat 8 addr)
/-- LAUNCH START (06 R149). -/
def execStart (via : Via) (c : Ch) (s : State) : Host.Outcome State Fault Refusal := s.put via (baseP c) 3 0 [1]
/-- LAUNCH RESUME (06 R149). -/
def execResume (via : Via) (c : Ch) (s : State) : Host.Outcome State Fault Refusal := s.put via (baseP c) 3 0 [2]
/-- HOLD_REQUEST (06 R162). -/
def execHoldRequest (via : Via) (c : Ch) (s : State) : Host.Outcome State Fault Refusal := s.put via (baseP c) 8 0 [1]
/-- CHANNEL_CMD STANDBY (18 R403). -/
def execStandby (via : Via) (c : Ch) (s : State) : Host.Outcome State Fault Refusal := s.put via (baseP c) 0xf 0 [1]
/-- CHANNEL_CMD WAKE (18 R403). -/
def execWake (via : Via) (c : Ch) (s : State) : Host.Outcome State Fault Refusal := s.put via (baseP c) 0xf 0 [2]
/-- CHANNEL_CMD RELEASE (12 R305). -/
def execRelease (via : Via) (c : Ch) (s : State) : Host.Outcome State Fault Refusal := s.put via (baseP c) 0xf 0 [3]
/-- CHANNEL_CMD RESET (12 R305). -/
def execReset (via : Via) (c : Ch) (s : State) : Host.Outcome State Fault Refusal := s.put via (baseP c) 0xf 0 [4]
/-- CHANNEL_CMD POWER_OFF (18 R405). -/
def execPowerOff (via : Via) (c : Ch) (s : State) : Host.Outcome State Fault Refusal := s.put via (baseP c) 0xf 0 [5]
/-- CHANNEL_CMD POWER_ON (12 R305). -/
def execPowerOn (via : Via) (c : Ch) (s : State) : Host.Outcome State Fault Refusal := s.put via (baseP c) 0xf 0 [6]
/-- MODULE_CMD CLEAR_SAFE (15 R357). -/
def execClearSafe (via : Via) (s : State) : Host.Outcome State Fault Refusal := s.put via 0x1002 0 0 [1]
/-- BEGIN (12 R298). -/
def execBegin (via : Via) (s : State) : Host.Outcome State Fault Refusal := s.put via 0xf000 1 0 [1]
/-- COMMIT (12 R300). -/
def execTxnCommit (via : Via) (s : State) : Host.Outcome State Fault Refusal := s.put via 0xf000 2 0 [1]
/-- ROLLBACK (12 R298). -/
def execRollback (via : Via) (s : State) : Host.Outcome State Fault Refusal := s.put via 0xf000 3 0 [1]
/-- LAYER_STATE (05 R139). -/
def execLayerState (via : Via) (c : Ch) (offset : Nat) (value : List Byte) (s : State) : Host.Outcome State Fault Refusal :=
  s.put via (baseB c + 0x30) 0 offset value
/-- ATTEST_NONCE of the module or of a channel (17 R393). -/
def execAttestNonce (via : Via) (scope : Option Ch) (offset : Nat) (value : List Byte) (s : State) :
    Host.Outcome State Fault Refusal :=
  match scope with
  | none => s.put via 0x8030 0 offset value
  | some c => s.put via (baseK c) 5 offset value
/-- FW_PENDING (17 R381). -/
def execFwPending (via : Via) (offset : Nat) (value : List Byte) (s : State) : Host.Outcome State Fault Refusal :=
  s.put via 0x8013 0 offset value
/-- FLOOR_CERT (17 R380). -/
def execFloorCert (via : Via) (offset : Nat) (value : List Byte) (s : State) : Host.Outcome State Fault Refusal :=
  s.put via 0x8011 0 offset value
/-- OWNER_KEY (17 R385). -/
def execOwnerKey (via : Via) (offset : Nat) (value : List Byte) (s : State) : Host.Outcome State Fault Refusal :=
  s.put via 0x8010 0 offset value
/-- An owner transfer, written to OWNER_KEY (17 R386). -/
def execOwnerTransfer (via : Via) (offset : Nat) (value : List Byte) (s : State) : Host.Outcome State Fault Refusal :=
  s.put via 0x8010 0 offset value
/-- TENANT_SLOT (17 R390). -/
def execTenantSlot (via : Via) (c : Ch) (value : List Byte) (s : State) : Host.Outcome State Fault Refusal :=
  s.put via (baseK c) 1 0 value
/-- CONFIG_MODULE (18 R400). -/
def execConfigModule (via : Via) (offset : Nat) (value : List Byte) (s : State) : Host.Outcome State Fault Refusal :=
  s.put via 0x8015 0 offset value
/-- CONFIG_CHANNEL (18 R400). -/
def execConfigChannel (via : Via) (c : Ch) (offset : Nat) (value : List Byte) (s : State) : Host.Outcome State Fault Refusal :=
  s.put via (baseK c) 7 offset value
/-- DEPOT_SIZE (08 R205). -/
def execDepotSize (via : Via) (c : Ch) (value : List Byte) (s : State) : Host.Outcome State Fault Refusal :=
  s.put via (baseM c) 0 0 value
/-- FAR_ENABLE (08 R200). -/
def execFarEnable (via : Via) (c : Ch) (value : List Byte) (s : State) : Host.Outcome State Fault Refusal :=
  s.put via (baseM c + 0x20) 1 0 value
/-- LINK_ENABLE (09 R224). -/
def execLinkEnable (via : Via) (c : Ch) (p : Pt) (value : List Byte) (s : State) : Host.Outcome State Fault Refusal :=
  s.put via (0x5000 + 0x100 * c.val + 0x10 * p.val) 3 0 value
/-- POWER_ALLOWANCE (13 R319). -/
def execPowerAllowance (via : Via) (value : List Byte) (s : State) : Host.Outcome State Fault Refusal :=
  s.put via 0x2001 0 0 value
/-- A write of any other entry (12 R290). -/
def execEntryWrite (via : Via) (index sub offset : Nat) (value : List Byte) (s : State) : Host.Outcome State Fault Refusal :=
  s.put via index sub offset value

end Sys2Proof.Machine
end

