-- ==== Sys2Proof/Machine/HostLink.lean ====
section
/-! DEFINITION. The Sigiron host link: the host page, doorbells, mailboxes, event notifications, host reads and writes, recalls,
completions, and the loss of a slice (11 R271 to R287). -/

namespace Sys2Proof.Machine

/-! ### The queue of doorbell entries and mailbox requests (11 R280 to R283) -/

/-- The mailbox request at the head of the queue is carried out and leaves it; one that a channel reset ends gets no response (11 R286). -/
def State.serveMailbox (s : State) (c : Ch) : State :=
  (s.onHost c (fun h => { h with goTail := none })).carry (.chMbox c) (.chMbox c) (requestOf (fitBytes 256 (s.ch c).host.mbox.req))

/-- The queue goes on by itself: a START or RESUME leaves it with its first issued car, or when the run has ended without one, and a
mailbox request that has reached the head is served. -/
def State.hostQueue (s : State) (c : Ch) : State :=
  let x := s.ch c
  let t := match x.host.startWait with
    | some e =>
      if x.run.firstIssued || x.ctl.st != .running then
        (s.dbComplete c e 0 0).onHost c (fun h => { h with startWait := none })
      else s
    | none => s
  let h := (t.ch c).host
  if h.startWait.isNone && h.goTail == some h.dbHead then t.serveMailbox c else t

/-- DB_TAIL (11 R280): the tail advances, unless more entries would be unread than fit. -/
def State.putTail (s : State) (c : Ch) (value : Nat) : State :=
  s.onHost c (fun h =>
    let new := value % 64
    let adv := (new + 64 - h.dbTail) % 64
    if 63 - (h.dbTail + 64 - h.dbHead) % 64 < adv then { h with overrun := h.overrun + 1 } else { h with dbTail := new })

/-- The 32 bytes of the doorbell entry at DB_HEAD (11 Table 11-3). -/
def HostLink.entry (h : HostLink) : List Byte := Tab.getAll 0 h.dbRing (32 * h.dbHead) 32

/-- The entry's reserved fields are zero, and ARG is zero but for TT_LOAD. -/
def entryClean (e : List Byte) : Bool := field e 1 15 == 0 && (field e 0 1 == 4 || field e 24 8 == 0)

/-- The write that a doorbell command stands for (11 R281). -/
def dbRequest (c : Ch) (e : List Byte) : Request :=
  match field e 0 1 with
  | 1 => writeReq (baseP c) 3 0 [1]
  | 2 => writeReq (baseP c) 3 0 [2]
  | 3 => writeReq (baseP c) 8 0 [1]
  | _ => writeReq (baseP c) 2 0 (bytesOfNat 8 (field e 24 8))

/-- A doorbell command carried out: its status and the machine. NOP has no effect. -/
def State.dbRun (s : State) (c : Ch) (e : List Byte) : Nat × State :=
  let r := dbRequest c e
  let cmd := field e 0 1
  if cmd = 0 ∨ 5 < cmd ∨ entryClean e = false then (4, s.refuse (.chMbox c) r 4)
  else if cmd = 5 then (0, s)
  else
    match entry? r.index r.sub with
    | none => (2, s)
    | some d =>
      let status := s.stateStatus true r.index d r.value
      if status ≠ 0 then (status, s.refuse (.chMbox c) r status) else d.set s (.chMbox c) 0 r.value

/-- The next doorbell entry, when it is one for this command: it leaves the ring and its completion is written, for START and RESUME
with the first issued car and for TT_LOAD at the end of the load (11 R282). The ring is the port die's own, so that a slice that is down
leaves its entries to be executed (11 R280, R285; log entry 61). -/
def State.doorbell (s : State) (c : Ch) (mine : Nat → Bool) : State :=
  let x := s.ch c
  let e := x.host.entry
  let cmd := field e 0 1
  if x.ctl.st = .off ∨ x.host.dbHead = x.host.dbTail ∨ x.host.startWait.isSome = true ∨ mine cmd = false then s
  else
    let id := (field e 16 8, x.host.dbHead)
    let r := (s.onHost c (fun h => { h with dbHead := (h.dbHead + 1) % 64 })).dbRun c e
    let t := r.2
    let t :=
      if r.1 = 0 ∧ (cmd = 1 ∨ cmd = 2) then t.onHost c (fun h => { h with startWait := some id })
      else if r.1 = 0 ∧ cmd = 4 then t.onHost c (fun h => { h with loadWait := some id })
      else t.dbComplete c id r.1 (if cmd = 4 then (t.ch c).run.loadResult else 0)
    t.hostQueue c

/-- DB_START (11 R281). -/
def execDbStart (c : Ch) (s : State) : Host.Outcome State Fault Refusal := .next (s.doorbell c (fun n => n == 1))
/-- DB_RESUME (11 R281). -/
def execDbResume (c : Ch) (s : State) : Host.Outcome State Fault Refusal := .next (s.doorbell c (fun n => n == 2))
/-- DB_HOLD_REQUEST (11 R281). -/
def execDbHoldRequest (c : Ch) (s : State) : Host.Outcome State Fault Refusal := .next (s.doorbell c (fun n => n == 3))
/-- DB_TT_LOAD (11 R281). -/
def execDbTtLoad (c : Ch) (s : State) : Host.Outcome State Fault Refusal := .next (s.doorbell c (fun n => n == 4))
/-- DB_NOP (11 R281); it also takes an entry with a reserved CMD, which is refused. -/
def execDbNop (c : Ch) (s : State) : Host.Outcome State Fault Refusal :=
  .next (s.doorbell c (fun n => n == 0 || decide (5 ≤ n)))

/-- Does the slice of a channel carry traffic: it is up, and no containment reset is in progress, which discards inbound requests without
response and stops sending (16 Table 16-4)? -/
def State.carries (s : State) (c : Ch) : Bool :=
  (s.ch c).host.link != 0 && !((s.ch c).ctl.st == .boot && (s.ch c).ctl.boot.phase == BootPhase.reset)

/-! ### Event notifications (11 R284) -/

/-- Entries the ring holds. -/
def EvtRing.size (r : EvtRing) : Nat := field r.ring 16 2

/-- Entries written and not yet consumed. -/
def EvtRing.unread (r : EvtRing) : Nat := (r.prod + 2 ^ 32 - r.consumed) % 2 ^ 32

/-- The entries that fit, in order: they are copied; the others are dropped and counted. -/
def EvtRing.take (r : EvtRing) : List LogEntry × EvtRing :=
  let n := r.size - r.unread
  let lost := r.pend.length - (r.pend.take n).length
  (r.pend.take n,
   { r with pend := [], prod := (r.prod + (r.pend.take n).length) % 2 ^ 32, dropped := r.dropped + lost, lost := r.lost + lost })

/-- The writes of one batch: entries, producer count, message (11 R284). -/
def EvtRing.writes (r : EvtRing) (es : List LogEntry) : List (Nat × List Byte) :=
  es.zipIdx.map (fun e => (field r.ring 0 8 + 32 * ((r.prod + e.2) % r.size), LogEntry.bytes e.1)) ++
    (if es.isEmpty then [] else [(field r.ring 8 8, bytesOfNat 4 ((r.prod + es.length) % 2 ^ 32))]) ++
    (if es.isEmpty || r.msiAddr == 0 then [] else [(r.msiAddr, bytesOfNat 4 r.msiData)])

/-- May a batch go now: entries wait, and with messages on, 2 µs have passed since the last? -/
def State.mayNotify (s : State) (r : EvtRing) : Bool :=
  !r.pend.isEmpty && (r.msiAddr == 0 || (match r.lastMsg with | some t => s.after t 238 | none => true))

/-- One batch of a ring over a slice: the machine after the writes, and the ring. -/
def State.notify (s : State) (c : Ch) (r : EvtRing) : State × EvtRing :=
  let k := r.take
  let t := (r.writes k.1).foldl (fun t w => t.postHost c w.1 w.2) s
  (t, if k.1.isEmpty || r.msiAddr == 0 then k.2 else { k.2 with lastMsg := some s.count })

/-- The lowest-numbered slice that is up (11 R272). -/
def State.lowSlice (s : State) : Option Ch := allCh.find? (fun c => s.carries c)

/-- EVENT_NOTIFY (11 R284): the pending entries of a channel's ring, or of the module's, whose entries count as consumed when they are
written, since no host page has a word for them (log entry 44). -/
def execEventNotify (ring : Option Ch) (s : State) : Host.Outcome State Fault Refusal :=
  .next (match ring with
    | some c =>
      let r := (s.ch c).host.evt
      if s.carries c = true ∧ s.mayNotify r = true then
        let u := s.notify c r
        u.1.onHost c (fun h => { h with evt := u.2 })
      else s
    | none =>
      match s.lowSlice with
      | none => s
      | some c =>
        if s.mayNotify s.m.evt && s.m.secState == 0 then
          let u := s.notify c { s.m.evt with consumed := s.m.evt.prod }
          u.1.onM (fun m => { m with evt := u.2 })
        else s)

/-- EVT_CONSUMED (11 R284): ring space is freed; after a loss, one NOTIFY_OVERFLOW entry goes first. -/
def State.putConsumed (s : State) (c : Ch) (value : Nat) : State :=
  let s := s.onHost c (fun h => { h with evt := { h.evt with consumed := value % 2 ^ 32 } })
  let r := (s.ch c).host.evt
  if r.lost = 0 ∨ r.size ≤ r.unread then s
  else
    let param := paramBytes [(8, r.lost)]
    let e : LogEntry := { count := s.count, source := 0x0420, code := 0x0b03, param := param, order := 0x0420 }
    (s.logAs c 0x0420 0x0420 0x0b03 param).onHost c (fun h => { h with evt := { h.evt with lost := 0, pend := e :: r.pend } })

/-! ### The host page (11 R279, Table 11-2) -/

/-- Does the slice carry only the module mailbox (17 R384)? -/
def State.serviceOnly (s : State) : Bool := s.m.secState != 0

/-- The channel mailbox's GO word (11 R283). -/
def State.chGo (s : State) (c : Ch) : State :=
  let h := (s.ch c).host
  if h.mbox.state = 1 ∨ (s.ch c).ctl.st = .off then s
  else (s.onHost c (fun h => { h with mbox := { h.mbox with rsp := [], state := 1 }, goTail := some h.dbTail })).hostQueue c

/-- The module mailbox's GO word. -/
def State.modGo (s : State) : State :=
  if s.m.mbox.state = 1 ∨ s.hears .modMbox = false then s
  else
    (s.onM (fun m => { m with mbox := { m.mbox with rsp := [], state := 1 } })).carry .modMbox .modMbox
      (requestOf (fitBytes 256 s.m.mbox.req))

/-- One byte of the host page as a read gives it: write-only and unlisted offsets read as zero. -/
def State.pageByte (s : State) (c : Ch) (o : Nat) : Byte :=
  let h := (s.ch c).host
  let word := fun (v i : Nat) => (bytesOfNat 8 v).getD i 0
  if 0x008 ≤ o ∧ o < 0x010 then word h.dbHead (o - 8)
  else if 0x1200 ≤ o ∧ o < 0x1300 then h.mbox.rsp.getD (o - 0x1200) 0
  else if 0x1300 ≤ o ∧ o < 0x1308 then word h.mbox.state (o - 0x1300)
  else if 0x2200 ≤ o ∧ o < 0x2300 then s.m.mbox.rsp.getD (o - 0x2200) 0
  else if 0x2300 ≤ o ∧ o < 0x2308 then word s.m.mbox.state (o - 0x2300)
  else 0

/-- One byte written to the buffers of the host page: doorbell ring and mailbox requests. -/
def State.pageStore (s : State) (c : Ch) (o : Nat) (b : Byte) : State :=
  if 0x100 ≤ o ∧ o < 0x900 then s.onHost c (fun h => { h with dbRing := Tab.put 0 h.dbRing (o - 0x100) b })
  else if 0x1000 ≤ o ∧ o < 0x1100 then
    s.onHost c (fun h => { h with mbox := { h.mbox with req := patch (fitBytes 256 h.mbox.req) (o - 0x1000) [b] } })
  else if 0x2000 ≤ o ∧ o < 0x2100 then
    s.onM (fun m => { m with mbox := { m.mbox with req := patch (fitBytes 256 m.mbox.req) (o - 0x2000) [b] } })
  else s

/-- A write to the host page: bytes into the buffers, and the registers it hits. Only a whole 8-byte write sets DB_TAIL or
EVT_CONSUMED; any write of a GO word submits. -/
def State.pageWrite (s : State) (c : Ch) (o : Nat) (bs : List Byte) : State :=
  let hit := fun (r : Nat) => overlaps o bs.length r 8
  let s := bs.zipIdx.foldl (fun t e => t.pageStore c (o + e.2) e.1) s
  let s := if o = 0 ∧ bs.length = 8 then s.putTail c (natOfBytes bs) else s
  let s := if o = 0x10 ∧ bs.length = 8 then s.putConsumed c (natOfBytes (bs.take 4)) else s
  let s := if hit 0x1100 then s.chGo c else s
  if hit 0x2100 then s.modGo else s

/-- Is a range in the part of the host page that the slice carries now (11 R279, 17 R384)? -/
def State.pageOk (s : State) (a n : Nat) : Bool :=
  if s.serviceOnly then decide (hostPage + 0x2000 ≤ a ∧ a + n ≤ hostPage + 0x2308)
  else decide (hostPage ≤ a ∧ a + n ≤ hostPage + 0x3000)

/-- DB_TAIL (11 R280). -/
def execDbTail (c : Ch) (value : Nat) (s : State) : Host.Outcome State Fault Refusal :=
  .next (if s.carries c = true ∧ s.serviceOnly = false then s.putTail c value else s)

/-- EVT_CONSUMED (11 R284). -/
def execEvtConsumed (c : Ch) (value : Nat) (s : State) : Host.Outcome State Fault Refusal :=
  .next (if s.carries c = true ∧ s.serviceOnly = false then s.putConsumed c value else s)

/-- CH_MBOX_GO (11 R283). -/
def execChMboxGo (c : Ch) (s : State) : Host.Outcome State Fault Refusal :=
  .next (if s.carries c = true ∧ s.serviceOnly = false then s.chGo c else s)

/-- MOD_MBOX_GO (11 R283), on any slice that is up. -/
def execModMboxGo (c : Ch) (s : State) : Host.Outcome State Fault Refusal :=
  .next (if s.carries c then s.modGo else s)

/-! ### Host reads and writes (11 R273, R274) -/

/-- HOST_READ (11 R273, R279). -/
def execHostRead (c : Ch) (addr len : Nat) (faults : List MemFault) (s : State) : Host.Outcome State Fault Refusal :=
  .next (if s.carries c = false then s
    else if s.pageOk addr len then
      s.send (.hostAnswer c (tab len (fun i => s.pageByte c (addr - hostPage + i))) false false)
    else if s.serviceOnly || !(s.ch c).inboundAll addr len false then s.send (.hostAnswer c [] false true)
    else
      let t := (s.meetAll c (faults.filter (fun f => overlaps (f.addr / 256 * 256) 256 addr len))).depotPass c addr len false
      let m := (t.ch c).mem
      t.send (.hostAnswer c (m.read addr len) (m.poisonIn addr len).isSome false))

/-- HOST_WRITE (11 R273, R274, R279); one that touches a doorbell is refused and counted (09 R231). -/
def execHostWrite (c : Ch) (addr : Nat) (data : List Byte) (s : State) : Host.Outcome State Fault Refusal :=
  .next (if s.carries c = false then s
    else if s.pageOk addr data.length then (s.pageWrite c (addr - hostPage) data).send (.hostAnswer c [] false false)
    else if s.serviceOnly || !(s.ch c).inboundAll addr data.length true then
      (if nearDoorbells addr data.length then s.onHub c (fun h => { h with doorbellRefused := h.doorbellRefused + 1 }) else s).send
        (.hostAnswer c [] false true)
    else (s.outsiderWrite c addr data [] 0x0420 0).send (.hostAnswer c [] false false))

/-! ### Coherence (11 R275, R276) -/

/-- The granules of a host line that moves have staged whose demand point is still to come. -/
def State.stagedOf (s : State) (c : Ch) (line : Nat) : List Nat :=
  ((s.ch c).run.clusters.flatMap (fun e => (e.2.moves.filter (fun m => !m.started)).flatMap (fun m => m.staged))).filterMap (fun g =>
    match zoneOf g.addr with
    | .host => if s.target c g.addr / 4096 = line / 4096 then some (g.addr / 256) else none
    | _ => none)

/-- RECALL (11 R275, R276): the dirty sectors of the line go back, the line is invalid, and staged copies of WATCH pages are stale. -/
def execRecall (c : Ch) (hostAddr : Nat) (s : State) : Host.Outcome State Fault Refusal :=
  .next (if (s.ch c).host.link = 0 then s
    else
      let line := hostAddr / 4096 * 4096
      let ls := (s.ch c).mem.lines.filter (fun l => l.is true line)
      let t := (s.writeBack c ls).onMem c (fun m => m.dropLine true line)
      (t.outsiderHit c (t.stagedOf c line) 0x0420 0).send (.recallAnswer c line (ls.any DepotLine.dirty)))

/-- The answer to a read of host memory reaches its car: a shared read fills its sector, an owning read brings the sector that the car's
bytes go into (11 R275). -/
def State.hostData (s : State) (c : Ch) (o : HostOp) (data : List Byte) (poisoned : Bool) : State :=
  let bs := fitBytes o.length data
  let bad := fun (p : Bool) => if p then List.range (ceilDiv o.length 256 + 1) else []
  if o.kind = 2 then
    let u := match ((s.ch c).mem.sector? true o.dst).filter (fun x => x.dirty) with
      | some x => (x.bytes, x.poisoned)
      | none => (bs, poisoned)
    ((s.writeHost c o.dst o.data o.poisoned u).touch c).settle c
  else if o.kind = 1 then
    let f := s.fillHost c o.addr bs poisoned
    f.1.arrive c o.id o.dst f.2.1 (bad f.2.2)
  else s.arrive c o.id o.dst bs (bad poisoned)

/-- HOST_COMPLETION (11 R278): the data of a read, or the completion of a write; accesses that waited go out. -/
def execHostCompletion (c : Ch) (id : Nat) (data : List Byte) (poisoned : Bool) (s : State) : Host.Outcome State Fault Refusal :=
  .next (match (if (s.ch c).host.link = 0 then none else (s.ch c).host.ops.find? (fun o => o.sent && o.tag == id)) with
    | none => s
    | some o =>
      let t := (s.onHost c (fun h => { h with ops := h.ops.filter (fun p => p.tag != id) })).hostPump c
      if o.read then t.hostData c o data poisoned else (t.touch c).settle c)

/-! ### The slice (11 R272, R285) -/

/-- FLIT_REPLAY (11 R285). -/
def execFlitReplay (c : Ch) (s : State) : Host.Outcome State Fault Refusal :=
  .next (if (s.ch c).host.link = 0 then s else s.onHost c (fun h => { h with flitReplays := h.flitReplays + 1 }))

/-- May a channel's slice train: from the end of GDDR7 training on, and after a boot (18 Table 18-2)? A containment reset leaves the slice
as it is (11 R272). -/
def Chan.sliceMay (x : Chan) : Bool :=
  match x.ctl.st with
  | .off => false
  | .boot => x.ctl.boot.phase == .reset || (x.ctl.boot.phase == .training && x.ctl.boot.allTrained)
  | _ => true

/-- SLICE_UP (11 R272): a slice that may train, or slice 0 under the service path, carries traffic; accesses that waited go out. -/
def execSliceUp (c : Ch) (link : Nat) (s : State) : Host.Outcome State Fault Refusal :=
  let x := s.ch c
  let valid := (link / 16 == 1 || link / 16 == 2) && (link % 16 == 1 || link % 16 == 2)
  .next (if x.host.link = 0 ∧ valid = true ∧ (x.sliceMay = true ∨ (s.m.service = true ∧ c = 0)) then
      (s.onHost c (fun h => { h with link := link })).hostPump c
    else s)

/-- Outstanding host traffic and dirty host lines are lost (11 R285): reads complete poisoned, with bytes that nothing states; writes and
lines are discarded; a RUNNING channel that lost any holds. -/
def State.loseHost (s : State) (c : Ch) (hold : Nat) (param : List Byte) : State :=
  let h := (s.ch c).host
  let dirty := fun (l : DepotLine) => l.host && l.dirty
  let lost := !h.ops.isEmpty || (s.ch c).mem.lines.any dirty
  let was := (s.ch c).ctl.st == .running
  let t := (s.onHost c (fun h => { h with ops := [] })).onMem c (fun m => { m with lines := m.lines.filter (fun l => !dirty l) })
  let t := (h.ops.filter (fun o => o.read && o.kind != 2)).foldl (fun (t : State) o =>
    let u : State := { t with freeNo := t.freeNo + o.length }
    u.arrive c o.id o.dst (freeBytes t.freeNo o.length) (List.range (ceilDiv o.length 256 + 1))) t
  if lost && was then t.holdNow c hold 0x0420 param else t

/-- HOST_LINK_DOWN (11 R285). -/
def execHostLinkDown (c : Ch) (s : State) : Host.Outcome State Fault Refusal :=
  let h := (s.ch c).host
  .next (if h.link = 0 then s
    else
      let ps : List Param := [(2, c.val), (2, h.link), (2, (h.ops.filter (fun o => o.read && o.sent)).length)]
      ((s.log c 0x0420 0x0b01 ps).onHost c (fun h => { h with link := 0 })).loseHost c 0x112 (paramBytes ps))

/-- HOST_TIMEOUT (11 R285): a read without completion for HOST_TIMEOUT. -/
def execHostTimeout (c : Ch) (s : State) : Host.Outcome State Fault Refusal :=
  let h := (s.ch c).host
  .next (match h.ops.find? (fun o => o.read && o.sent && s.after o.sentAt h.timeout) with
    | none => s
    | some o =>
      let ps : List Param := [(8, o.addr)]
      (s.log c 0x0420 0x0b02 ps).loseHost c 0x113 (paramBytes ps))

/-! ### Time -/

/-- What happens when no command waits (log entry 9): the departure count advances, once it has been released, and the host queues of the
channels go on. -/
def State.tick (s : State) : State :=
  let t : State := if s.counting then { s with count := s.count + 1 } else s
  t.eachCh (fun c u => u.hostQueue c)

end Sys2Proof.Machine
end

