-- ==== Sys2Proof/Machine/Faults.lean ====
section
/-! DEFINITION. Faults found by hardware, containment resets and their end, the far tier's link, the patrol scrub, converter faults, and
loss of power (08 R200, R201, 16 R362 to R370, 18 R399, R404). -/

namespace Sys2Proof.Machine

/-! ### Containment causes (16 R365 to R369, 18 R399) -/

/-- A containment cause in a channel boot restarts the boot once, from B; a second ends it in FAULT. -/
def State.bootCause (s : State) (c : Ch) (fault : Nat) : State :=
  let b := (s.ch c).ctl.boot
  if b.restarts = 0 then
    ((s.markLife c).onCh c (fun x => x.booting s.count true)).onCtl c (fun k =>
      { k with boot := { k.boot with restarts := 1, powerOn := b.powerOn } })
  else s.enterFault c fault (paramBytes [])

/-- A containment cause of Table 16-7, its own event logged before: `fault` is the FAULT a second one in a boot ends in. A channel in FAULT
leaves it by command only. -/
def State.contain (s : State) (c : Ch) (cause fault : Nat) : State :=
  match (s.ch c).ctl.st with
  | .off => s
  | .fault => s
  | .boot => if (s.ch c).ctl.boot.phase = BootPhase.reset then s.containment c cause else s.bootCause c fault
  | _ => s.containment c cause

/-- Log an event of a channel that is not OFF, and contain. -/
def State.causeOf (s : State) (c : Ch) (source code : Nat) (ps : List Param) (cause fault : Nat) : State :=
  if (s.ch c).ctl.st = .off then s else (s.log c source code ps).contain c cause fault

/-- The SOURCE of a damaged control structure (16 Tables 16-6, 16-7): the cluster's sequencer, the yard, or the signal box. -/
def structureSource (n cluster : Nat) : Nat :=
  if n = 0 ∨ n = 3 ∨ n = 4 then 0x0200 + cluster else if n = 5 then 0x0400 else 0

/-- CONTROL_UNCORRECTABLE (16 R365). -/
def execControlUncorrectable (c : Ch) (structureNo cluster : Nat) (s : State) : Host.Outcome State Fault Refusal :=
  .next (s.causeOf c (structureSource structureNo cluster) 0x1004 [(2, structureNo), (2, cluster)] 2 0x202)

/-- COMPARATOR_TRIP (16 R366). -/
def execComparatorTrip (c : Ch) (comparator die : Nat) (s : State) : Host.Outcome State Fault Refusal :=
  .next (s.causeOf c 0 0x1007 [(2, comparator), (2, die)] 3 0x203)

/-- ROOT_PLL_LOCK_LOSS (01 R22, 16 R366): the lock comparator of the port die; the manual does not number comparators, so its number is a
free value. -/
def execRootPllLockLoss (c : Ch) (s : State) : Host.Outcome State Fault Refusal :=
  let n := (Config.freeWord s.freeNo).toNat % 65536
  .next (({ s with freeNo := s.freeNo + 1 } : State).causeOf c 0 0x1007 [(2, n), (2, 1)] 4 0x203)

/-- WATCHDOG_EXPIRY (16 R365): logged as CHANNEL_RESET with cause 6. -/
def execWatchdogExpiry (c : Ch) (s : State) : Host.Outcome State Fault Refusal := .next (s.contain c 6 0x202)

/-- COMPARATOR_TEST (16 R366): a failed comparator is logged and resets the channel; failing in that reset too, it ends in FAULT. -/
def execComparatorTest (c : Ch) (failed : Option (Nat × Nat)) (s : State) : Host.Outcome State Fault Refusal :=
  .next (match failed with
    | none => s
    | some f =>
      let ps : List Param := [(2, f.1), (2, f.2)]
      if (s.ch c).ctl.st = .boot ∧ (s.ch c).ctl.boot.phase = BootPhase.reset then
        (s.log c 0 0x1008 ps).enterFault c 0x203 (paramBytes [])
      else s.causeOf c 0 0x1008 ps 3 0x203)

/-- LAST_RESET (16 Table 16-9). -/
def lastResetBytes (since now cause : Nat) : List Byte := bytesOfNat 8 since ++ bytesOfNat 8 now ++ bytesOfNat 1 cause ++ zeros 15

/-- Board memory cleared: zeros with valid waybills (16 Table 16-4, 18 Table 18-2). -/
def Memory.clearBoard (m : Memory) : Memory := m.clear boardBase boardEnd

/-- RESET_DONE (16 R367, Table 16-4, R374): board memory is cleared, HELLO goes out with a new reset generation, and the channel is
READY. -/
def execResetDone (c : Ch) (s : State) : Host.Outcome State Fault Refusal :=
  let b := (s.ch c).ctl.boot
  .next (if (s.ch c).ctl.st = .boot ∧ b.phase = BootPhase.reset ∧ b.allTrained = true then
      let t := (s.onMem c Memory.clearBoard).onHub c (fun h => { h with resetGen := (h.resetGen + 1) % 2 ^ 32 })
      let t := (t.setChState c .ready).onCtl c (fun k =>
        { k with boot := Boot.idle, tenantNew := false, lastReset := lastResetBytes b.since s.count b.cause })
      let t := if b.cause = 5 then t else t.addDown c b.since
      let t := [0, 1, 2, 3, 4].foldl (fun (u : State) p => if (u.ch c).hub.ports[ptOf p].upJ then u.sendHello c (ptOf p) else u) t
      ((t.log c 0 0x1006 [(8, s.count - b.since)]).markLife c).reefDecide c
    else s)

/-! ### Converter faults (16 R365) -/

/-- CONVERTER_FAULT: the channel's rails go off. -/
def execConverterFault (c : Ch) (rail : Fin 4) (s : State) : Host.Outcome State Fault Refusal :=
  .next (if (s.ch c).ctl.st = .off then s else (s.log c (0x8001 + c.val) 0x1009 [(2, rail.val)]).powerOff c)

/-! ### Patrol scrub (16 R370) -/

/-- The memories that the M40 scrubs. -/
def scrubbed (a : Nat) : Bool :=
  match zoneOf a with
  | .region _ => true
  | .tender _ => true
  | .board => true
  | _ => false

/-- PATROL_SCRUB: a correctable error is corrected and counted, a damaged granule is poisoned. -/
def execPatrolScrub (c : Ch) (addr : Nat) (found : ScrubFinding) (s : State) : Host.Outcome State Fault Refusal :=
  .next (if (s.ch c).ctl.st = .off ∨ scrubbed addr = false then s
    else
      match found with
      | .clean => s
      | .corrected => s.onMem c (fun m => { m with eccCorrected := m.eccCorrected + 1 })
      | .bad kind => s.damage c { addr := addr, kind := kind } (memSource addr))

/-! ### The far tier's link (08 R200, R201, Table 08-4a) -/

/-- Addressable bytes of an expander: the lower of 512 GiB and 63/64 of the device, in whole GiB. -/
def farAddressable (device : Nat) : Nat := min (512 * 2 ^ 30) (device / 64 * 63 / 2 ^ 30 * 2 ^ 30)

/-- FAR_TRAINED: training ends with the far tier present, `link` giving FAR_LINK and the device's capacity, or failed. -/
def execFarTrained (c : Ch) (link : Option (Nat × Nat)) (s : State) : Host.Outcome State Fault Refusal :=
  .next (if (s.ch c).mem.farStatus = 1 ∧ (s.ch c).serves = true then
      s.onMem c (fun m =>
        match link with
        | some l => { m with farStatus := 2, farLink := l.1 % 256, farCapacity := farAddressable l.2 }
        | none => { m with farStatus := 4 })
    else s)

/-- An outstanding far-tier access when the link goes down: a write is discarded, a read has brought poison (08 R201). -/
def Memory.farLost (m : Memory) (o : FarOp) : Memory :=
  match o.beneath with
  | some b => m.beneath o.granule b
  | none => m.poison o.granule

/-- Which of the accesses of cars that have not posted are outstanding is a free choice (08 R201; log entry 51). -/
def State.farDrop (s : State) (c : Ch) : State :=
  let ops := (s.ch c).mem.farOps
  let t := s.onMem c (fun m =>
    { ops.zipIdx.foldl (fun m o => if Config.freeBool (s.freeNo + o.2) then m.farLost o.1 else m) m with farOps := [] })
  { t with freeNo := t.freeNo + ops.length }

/-- FAR_TIER_DOWN (08 R201). -/
def execFarTierDown (c : Ch) (s : State) : Host.Outcome State Fault Refusal :=
  let m := (s.ch c).mem
  .next (if m.farStatus = 2 then
      let ps : List Param := [(2, m.farLink)]
      let t := ((s.farDrop c).onMem c (fun m => { m with farStatus := 3, farLink := 0 })).log c 0x0440 0x0802 ps
      if (s.ch c).ctl.st = .running then t.holdNow c 0x10b 0x0440 (paramBytes ps) else t
    else s)

/-! ### Loss of power (18 R404, Table 18-5) -/

/-- What a module keeps without power: what stands in its flash (17 R381, 16 R372, R375; log entry 15). -/
def Module.kept (m : Module) : Module :=
  { Module.reset with
    flash := m.flash, ownerKey := m.ownerKey, floorCert := m.floorCert, fwFloor := m.fwFloor, cfgFloor := m.cfgFloor
    floorSeq := m.floorSeq, fwPending := if m.fwState = 1 then m.fwPending else [], fwState := if m.fwState = 1 then 1 else 0
    keyTable := m.keyTable, config := m.config, banks := m.banks, activeBank := m.activeBank, boots := m.boots
    lifetime := m.lifetime, trips := m.trips, refclk := m.refclk, pins := { m.pins with tripN := true } }

/-- What a channel keeps without power: its configuration block, the record of failed cells and lost regions, and its expander's
bytes. -/
def Chan.kept (x : Chan) : Chan :=
  { Chan.reset with
    ctl := { Ctl.reset with config := x.ctl.config }
    mem := { Memory.reset with bytes := x.mem.farOnly.bytes, marks := x.mem.farOnly.marks }
    sup := { Supply.reset with regions := x.sup.regions.map Region.flashed } }

/-- POWER_LOSS goes to the module log and, beyond any copying, straight to flash (18 R406). -/
def State.logPowerLoss (s : State) (cause volts : Nat) : State :=
  let ps : List Param := [(2, cause), (4, volts)]
  let e : LogEntry := { count := s.count, source := 0x8000, code := 0x1201, param := paramBytes ps, order := 0x8000 }
  (s.logM 0x8000 0x1201 ps).onM (fun m => { m with flash := lastN 256 (m.flash ++ [e]) })

/-- The power-loss sequence: lifetimes and POWER_LOSS are in flash, every channel is OFF, the logs and memories are lost, and the station
master is off; the departure count is not running. -/
def State.powerLoss (s : State) (cause volts : Nat) : State :=
  let s := s.eachCh (fun c t => t.markLife c)
  let s := (s.logPowerLoss cause volts).onM Module.kept
  { s with counting := false, count := 0, chs := s.chs.map Chan.kept }

/-- INPUT_LOSS: below 33 V, or above 52 V. -/
def execInputLoss (volts : W32) (s : State) : Host.Outcome State Fault Refusal :=
  .next (if !s.live then s
    else if lt32 volts (natTo32 33) then s.powerLoss 0 volts.toNat
    else if lt32 (natTo32 52) volts then s.powerLoss 1 volts.toNat
    else s)

/-- MODULE_RESET_N asserted. -/
def execModuleResetN (s : State) : Host.Outcome State Fault Refusal :=
  .next (if !s.live then s
    else (s.powerLoss 2 s.m.volts.toNat).onM (fun m => { m with pins := { m.pins with resetN := false } }))

end Sys2Proof.Machine
end

