-- ==== Sys2Proof/Machine/Startup.lean ====
section
/-! DEFINITION. Power-up, the boot chain, channel boots, and what is done by the clock of hours and seconds (17 R382 to R385, 18 R395 to
R401, 08 R197, 13 R329, 16 R375). -/

namespace Sys2Proof.Machine

/-! ### The boot chain (17 R381 to R383) -/

/-- The security state that the stored owner key and floor certificate give. -/
def Module.ownedState (m : Module) : Nat := if m.floorValid then 0 else 2

/-- A firmware bank verifies: signatures as the state asks, where an owner is recorded both. -/
def Module.bankSigned (m : Module) (n : Nat) : Bool :=
  m.bundleSigned (m.banks.getD n { block := [] }).block 1 m.floorValid

/-- A firmware bank meets the floors. -/
def Module.bankFloor (m : Module) (n : Nat) : Bool :=
  decide (m.firmwareFloor ≤ sbVersion (m.banks.getD n { block := [] }).block)

/-- A firmware bank may boot. -/
def Module.bankOk (m : Module) (n : Nat) : Bool := m.bankSigned n && m.bankFloor n

/-- Firmware verified: the active bank, else the other, else RECOVERY with the active bank's failing as its cause. -/
def State.verifyFirmware (s : State) : State :=
  let m := s.m
  let n := m.activeBank
  if m.bankOk n then s.onM (fun m => { m with secState := m.ownedState, service := m.ownedState == 2 })
  else if m.bankOk (1 - n) then
    s.onM (fun m => { m with activeBank := 1 - n, secState := m.ownedState, service := m.ownedState == 2 })
  else
    (s.onM (fun m => { m with secState := 1, service := true })).logM 0x8000 0x1106 [(2, if m.bankSigned n then 1 else 0)]

/-- POWER_UP (18 R395, Table 18-1): the mask ROM runs; a staged firmware block is installed first (17 R381). -/
def execPowerUp (s : State) : Host.Outcome State Fault Refusal :=
  .next (if s.live then s
    else
      let t : State := { s with count := 0, counting := false }
      let t := t.onM (fun m =>
        let m := if m.fwState = 1 then m.install m.fwPending else m
        { m with sm := .rom, st := .boot, boots := (m.boots + 1) % 2 ^ 32, pins := { m.pins with resetN := true } })
      t.verifyFirmware)

/-- Boot start B of every channel. -/
def State.bootAll (s : State) : State := s.eachCh (fun c t => t.startBoot c false)

/-- Boot start B of every channel that is OFF. -/
def State.bootOff (s : State) : State := s.eachCh (fun c t => if (t.ch c).ctl.st = .off then t.startBoot c false else t)

/-- The station master is up for the first time since power-up: the module configuration block is applied, and in NORMAL every channel
boots (18 R395, R398, R401). -/
def State.firstReady (s : State) : State :=
  let t := (s.onM (fun m => { m with sm := .ready })).applyConfig none
  if t.m.secState = 0 then t.bootAll else t

/-- The station master is ready again: out of RECOVERY its firmware is verified anew; channels that have never booted boot once the module
is NORMAL; a trip of the meantime is recorded (15 Table 15-4, 17 R383, R385, 18 R398). A channel in its first boot goes on with it (01 R27). -/
def State.readyAgain (s : State) : State :=
  let t :=
    if s.m.secState = 1 then
      let u := s.verifyFirmware
      if u.m.secState = 1 then u.onM (fun m => { m with sm := .rom }) else u.firstReady
    else
      let u := s.onM (fun m => { m with sm := .ready })
      if u.m.secState = 0 ∧ u.counting = false then u.bootOff else u
  if t.m.pins.tripN = false ∧ t.m.st ≠ .safe then t.enterSafe 1 else t

/-- STATION_MASTER_READY (18 R395): nothing further happens when the PUF cannot be reconstructed (17 R377). -/
def execStationMasterReady (s : State) : Host.Outcome State Fault Refusal :=
  .next (match s.m.sm with
    | .rom => if s.m.secState ≠ 1 ∧ Config.pufOk = true then s.firstReady else s
    | .restarting => s.readyAgain
    | _ => s)

/-! ### A channel's boot (18 Table 18-2) -/

/-- The channel is in a boot's phase. -/
def Chan.booted (x : Chan) (p : BootPhase) : Bool := x.ctl.st == .boot && x.ctl.boot.phase == p

/-- ROOT_LOCK (18 R397, 14 R341): the root locks once REFCLK is within tolerance, the count is released from 0 or is the running one, and
the signal box firmware is read back (17 R382). -/
def execRootLock (c : Ch) (s : State) : Host.Outcome State Fault Refusal :=
  .next (if (s.ch c).booted BootPhase.rails && s.m.refclk == 0 then
      let t : State := if s.counting then s else { s with counting := true, count := 0 }
      let t := (t.onSup c (fun u => { u with locked := true })).onCtl c (fun k =>
        { k with boot := { k.boot with phase := BootPhase.training, lockAt := t.count } })
      if Config.firmwareReadsBack c then t else t.enterFault c 0x202 (paramBytes [])
    else s)

/-- GDDR7_TRAINING (08 R197, Table 08-3): a device trains, tries again, or after its third attempt puts the channel in FAULT. -/
def execGddr7Training (c : Ch) (device : Fin 8) (ok : Bool) (s : State) : Host.Outcome State Fault Refusal :=
  let x := s.ch c
  .next (if (x.booted BootPhase.training || x.booted BootPhase.reset) && !x.ctl.boot.trained.testBit device.val then
      if ok then
        (s.onCtl c (fun k => { k with boot := { k.boot with trained := k.boot.trained + 2 ^ device.val } })).onMem c (fun m =>
          { m with gddr7 := m.gddr7 ||| 2 ^ device.val })
      else
        let n := x.ctl.boot.attempts.getD device.val 0 + 1
        let t := s.onCtl c (fun k =>
          { k with boot := { k.boot with attempts := tab 8 (fun i => if i = device.val then n else k.boot.attempts.getD i 0) } })
        if n < 3 then t
        else
          let ps : List Param := [(2, device.val), (2, n)]
          (t.log c (0x0430 + device.val) 0x0804 ps).enterFault c 0x201 (paramBytes ps)
    else s)

/-- The voltage a region runs a step at: the measured lowest plus 25 mV, rounded up to 5 mV, and no less than the regulator's 450 mV
(13 R311, R312). -/
def guarded (mv : Nat) : Nat := max 450 (ceilDiv (mv + 25) 5 * 5)

/-- A region after its boot test and characterisation: cells, voltages and fastest step (13 R312, R326, R328). -/
def Region.tested (t : RegionBoot) : Region :=
  let mv := tab 8 (fun i => guarded (t.mv.getD i 0))
  { Region.reset with
    cells := 0xffff - t.failedCells % 2 ^ 16, stepMv := mv, mv := 500
    fastest := ((List.range 8).find? (fun i => decide (mv.getD i 0 ≤ 800))).getD 7 }

/-- One region of a group: tested, and lost when 4 cells fail or step 7 does not fit (18 R396). -/
def State.bootRegion (s : State) (c : Ch) (r : Nat) (t : RegionBoot) : State :=
  let s := s.onRegion c (rgOf r) (fun _ => Region.tested t)
  let s := ((List.range 16).filter (fun i => t.failedCells.testBit i)).foldl (fun u i =>
    u.log c (0x0100 + r) 0x0d01 [(2, r), (2, i), (2, 2)]) s
  let x := (s.ch c).sup.region r
  if 4 ≤ x.failed then s.loseRegion c (rgOf r) 0
  else if 800 < x.stepMv.getD 7 0 then s.loseRegion c (rgOf r) 1
  else s

/-- SHED_N keeps a group that is still to start waiting while module power exceeds SHED_POWER (19 R414). -/
def State.groupWaits (s : State) : Bool := !s.m.pins.shedN && lt32 (natTo32 s.m.shedPower) s.m.power

/-- REGION_GROUP (18 R396): the groups come in order, while the module is NORMAL. -/
def execRegionGroup (c : Ch) (group : Fin 4) (results : List RegionBoot) (s : State) : Host.Outcome State Fault Refusal :=
  .next (if (s.ch c).booted BootPhase.training && s.m.st == .normal && (s.ch c).ctl.boot.groups == group.val && !s.groupWaits then
      let t := (List.range 6).foldl (fun u i =>
        u.bootRegion c (6 * group.val + i) (results.getD i { failedCells := 0, mv := [] })) s
      t.onCtl c (fun k => { k with boot := { k.boot with groups := k.boot.groups + 1 } })
    else s)

/-- The lost regions of a channel, as a mask. -/
def Supply.lostMask (u : Supply) : Nat := allRegions.foldl (fun m r => if (u.region r).st = .lost then m + 2 ^ r else m) 0

/-- CHANNEL_BOOTED (18 R395, Table 18-2): comparators tested, board memory cleared, the configuration block applied, and READY; a
comparator that fails ends the boot in FAULT. -/
def execChannelBooted (c : Ch) (failed : Option (Nat × Nat)) (s : State) : Host.Outcome State Fault Refusal :=
  let b := (s.ch c).ctl.boot
  .next (if (s.ch c).booted BootPhase.training && b.allTrained && b.groups == 4 && s.m.st != .safe then
      match failed with
      | some f => (s.log c 0 0x1008 [(2, f.1), (2, f.2)]).enterFault c 0x203 (paramBytes [])
      | none =>
        let time := (s.count - b.lockAt) % 2 ^ 32
        let tries := maxOf b.attempts + 1
        let t := (s.onMem c Memory.clearBoard).setChState c .ready
        let t := (t.onCtl c (fun k => { k with boot := Boot.idle, tenantNew := false, bootTime := time })).applyConfig (some c)
        (t.log c 0 0x1202 [(2, c.val), (4, time), (2, tries), (4, (t.ch c).sup.lostMask)]).reefDecide c
    else s)

/-- BOOT_WAIT (18 R397): logged once for each cause of a boot: 0 REFCLK after 1 s, 1 the module not NORMAL. -/
def execBootWait (c : Ch) (s : State) : Host.Outcome State Fault Refusal :=
  let x := s.ch c
  let b := x.ctl.boot
  let note := fun (n : Nat) =>
    (s.onCtl c (fun k => { k with boot := { k.boot with waitLogged := n :: k.boot.waitLogged } })).log c 0 0x1204
      [(2, c.val), (2, n)]
  .next (if x.booted BootPhase.rails && s.m.refclk != 0 && s.after b.since 118750000 && !b.waitLogged.contains 0 then note 0
    else if x.booted BootPhase.training && decide (b.groups < 4) && s.m.st != .normal && !b.waitLogged.contains 1 then note 1
    else s)

/-! ### Energy and lifetime -/

/-- JOULES_PER_TOKEN (13 R329): recomputed 1 s or more after its last value, once a token has been added. -/
def execJoulesPerToken (s : State) : Host.Outcome State Fault Refusal :=
  let m := s.m
  .next (if s.smReady && decide (0 < m.tokens) && s.after m.tokenAt 118750000 then
      s.onM (fun m =>
        { m with
          joules := div32 (div32 (natTo32 (m.energy - m.tokenEnergy)) (natTo32 1000)) (natTo32 m.tokens)
          tokens := 0, tokenEnergy := m.energy, tokenAt := s.count })
    else s)

/-- LIFETIME_SERVICE (16 R375): written to flash every hour. -/
def execLifetimeService (s : State) : Host.Outcome State Fault Refusal :=
  .next (if s.smReady then s.eachCh (fun c t => t.markLife c) else s)

end Sys2Proof.Machine
end

