-- ==== Sys2Proof/Machine/Vector.lean ====
section
/-! DEFINITION. The vector engine: cars, setting records, operands, every operation of Table 04-3, narrowing of results and the
fused optimiser steps (04 R92 to R112). -/

namespace Sys2Proof.Machine

/-! ### Car and record (04 Tables 04-1, 04-2) -/

/-- A vector setting record with its gauges, tensor-scale flags and SCL as the pass sees them (05 R127); `gd0` is the stored D
gauge and `drop` says that SCALEGEN writes nothing. -/
structure VecRec where
  raw : Nat
  gd : Nat
  g1 : Nat
  g2 : Nat
  g3 : Nat
  gd0 : Nat
  tsd : Bool
  ts1 : Bool
  ts2 : Bool
  scl : Bool
  drop : Bool
  deriving DecidableEq, Repr

/-- CONST_A. -/
def VecRec.a (r : VecRec) : W32 := BitVec.ofNat 32 (bits r.raw 255 224)
/-- CONST_B. -/
def VecRec.b (r : VecRec) : W32 := BitVec.ofNat 32 (bits r.raw 223 192)
/-- S3. -/
def VecRec.s3 (r : VecRec) : Nat := bits r.raw 191 176
/-- S3R. -/
def VecRec.s3r (r : VecRec) : Bool := r.raw.testBit 175
/-- SEED_POS. -/
def VecRec.seedPos (r : VecRec) : Nat := bits r.raw 167 152
/-- STREAM. -/
def VecRec.stream (r : VecRec) : Nat := bits r.raw 151 136
/-- LAYER. -/
def VecRec.layer (r : VecRec) : Nat := bits r.raw 135 124
/-- LW: BF16 lanes. -/
def VecRec.lw (r : VecRec) : Bool := r.raw.testBit 107
/-- TBL_LEN. -/
def VecRec.tblLen (r : VecRec) : Nat := bits r.raw 91 72
/-- PAYLOAD. -/
def VecRec.payload (r : VecRec) : Bool := r.raw.testBit 71
/-- KEY_U32. -/
def VecRec.keyU32 (r : VecRec) : Bool := r.raw.testBit 70
/-- DESC. -/
def VecRec.desc (r : VecRec) : Bool := r.raw.testBit 69
/-- SORT_N + 1. -/
def VecRec.sortN (r : VecRec) : Nat := bits r.raw 68 57 + 1
/-- THR. -/
def VecRec.thr (r : VecRec) : Nat := bits r.raw 56 41
/-- STREAM_SRC. -/
def VecRec.streamSrc (r : VecRec) : Bool := r.raw.testBit 40
/-- ELEM_BASE. -/
def VecRec.elemBase (r : VecRec) : Nat := bits r.raw 38 0

/-- OPC. -/
def Car.opc (x : Car) : Nat := Car.get x 94 89
/-- FUNC of a vector car. -/
def Car.vfunc (x : Car) : Nat := Car.get x 88 85
/-- D. -/
def Car.vd (x : Car) : Nat := Car.get x 84 69
/-- S1. -/
def Car.vs1 (x : Car) : Nat := Car.get x 68 53
/-- S2. -/
def Car.vs2 (x : Car) : Nat := Car.get x 52 37
/-- SET_ADDR in bytes. -/
def Car.vset (x : Car) : Nat := Car.get x 36 21 * 32
/-- COUNT. -/
def Car.count (x : Car) : Nat := Car.get x 20 9
/-- DR. -/
def Car.dr (x : Car) : Bool := Car.get x 8 8 == 1
/-- S1R. -/
def Car.s1r (x : Car) : Bool := Car.get x 7 7 == 1
/-- S2R. -/
def Car.s2r (x : Car) : Bool := Car.get x 6 6 == 1
/-- GRAD. -/
def Car.vgrad (x : Car) : Bool := Car.get x 5 5 == 1
/-- RND. -/
def Car.vrnd (x : Car) : Bool := Car.get x 4 4 == 1

/-- The record of a pass (05 R127). -/
def vecRecOf (raw : Nat) (car : Car) (sub : Option (Nat × Nat × Bool)) : VecRec :=
  let m := fun code => match sub with | some (b, r, q) => substGauge b r q code | none => (code, false, false)
  let gd := m (bits raw 123 120)
  let g1 := m (bits raw 119 116)
  let g2 := m (bits raw 115 112)
  let g3 := m (bits raw 111 108)
  { raw := raw, gd := gd.1, g1 := g1.1, g2 := g2.1, g3 := g3.1, gd0 := bits raw 123 120
    tsd := substFlag gd (raw.testBit 106), ts1 := substFlag g1 (raw.testBit 105), ts2 := substFlag g2 (raw.testBit 104)
    scl := raw.testBit 103 && (!sub.isSome || codeNarrow gd.1)
    drop := Car.opc car == 7 && Car.vfunc car == 1 && codeNarrow (bits raw 123 120) && !codeNarrow gd.1 }

/-- Elements per step (04 R96). -/
def VecRec.lanes (r : VecRec) : Nat := if r.lw then 128 else 64

/-- Elements of a car (04 R96). -/
def vecN (car : Car) (r : VecRec) : Nat := Car.count car * r.lanes

/-! ### Operands -/

/-- The operands an operation reads: which of S1, S2, S3 (04 Table 04-3). -/
def vecUses (car : Car) (r : VecRec) : List Nat :=
  let f := Car.vfunc car
  match Car.opc car with
  | 1 => if f = 3 then [1, 2, 3] else if [0, 1, 2, 4, 5, 6, 9].contains f then [1, 2] else [1]
  | 2 => [1]
  | 3 => if f = 4 then [1, 2, 3] else [1, 2]
  | 4 => [1, 2]
  | 5 => [1, 2, 3]
  | 6 => if r.payload then [1, 2, 3] else [1]
  | 8 => (if f = 4 then [1] else []) ++ (if r.streamSrc then [2] else [])
  | 9 => [1, 2, 3]
  | _ => [1]

/-- The operands that are 32-bit integer data (04 R96). -/
def vecInts (car : Car) (r : VecRec) : List Nat :=
  match Car.opc car with
  | 4 => [2]
  | 6 => (if r.keyU32 then [1] else []) ++ (if r.payload then [2, 3] else [])
  | 8 => if r.streamSrc then [2] else []
  | _ => []

/-- Operand 0 is D, 1 to 3 the sources: field, register flag, gauge code and tensor-scale flag. -/
def vecField (car : Car) (r : VecRec) : Nat → Nat × Bool × Nat × Bool
  | 0 => (Car.vd car, Car.dr car, r.gd, r.tsd)
  | 1 => (Car.vs1 car, Car.s1r car, r.g1, r.ts1)
  | 2 => (Car.vs2 car, Car.s2r car, r.g2, r.ts2)
  | _ => (r.s3, r.s3r, r.g3, false)

/-- The offset of the scale bytes of a narrow tender operand of `n` elements (04 R96). -/
def scaleOffset (g : Gauge) (n : Nat) : Nat := ceilDiv (ceilDiv (n * g.bitsPer) 8) 32 * 32

/-- Bytes of a tender operand of `n` elements (04 R96). -/
def spanOf (g n : Nat) : Nat :=
  match Gauge.ofCode g with
  | some g => if g.narrow then scaleOffset g n + ceilDiv n 32 else n * (g.bitsPer / 8)
  | none => 0

/-- Bytes an operand takes in tender. -/
def vecSize (car : Car) (r : VecRec) (o : Nat) : Nat :=
  let n := vecN car r
  let f := Car.vfunc car
  let g := (vecField car r o).2.2.1
  if o = 0 then
    match Car.opc car with
    | 10 => 32
    | 7 => if f = 1 then n / 32 else spanOf g n
    | 8 => if f = 0 then 16 * n else spanOf g n
    | 6 => if r.keyU32 then 4 * r.sortN else spanOf g r.sortN
    | 4 => if f = 1 then 4 * r.tblLen else spanOf g n
    | 9 => 4 * n
    | _ => spanOf g n
  else if (vecInts car r).contains o then 4 * (if Car.opc car = 6 then r.sortN else n)
  else
    match Car.opc car with
    | 9 => if o = 1 then spanOf g n else if o = 2 then 4 * n * (if f = 0 then 2 else 1) else 64
    | 4 => if f = 0 && o == 1 then 4 * r.tblLen else spanOf g n
    | 6 => spanOf g r.sortN
    | 5 => if o = 3 then spanOf g 64 else spanOf g n
    | _ => spanOf g n

/-- Element `e` of a source as FP32 (04 R97 step 1), or as U32 when it is integer data. -/
def vecElem (m : Memory) (regs : Nat → W32) (k : Nat) (car : Car) (r : VecRec) (o n e : Nat) : W32 :=
  let fd := vecField car r o
  let int := (vecInts car r).contains o
  let at0 := tenderAt k (fd.1 * 32)
  if fd.2.1 then
    if int && r.lw then regs ((fd.1 + 2 * (e / 128) + e % 128 / 64) * 64 + e % 64)
    else if int || !r.lw then regs ((fd.1 + e / 64) * 64 + e % 64)
    else
      let w := (regs ((fd.1 + e / 128) * 64 + e % 128 / 2)).toNat
      dequant .bf16 (w / 2 ^ (16 * (e % 2)) % 2 ^ 16) 0 none
  else if int then BitVec.ofNat 32 (m.nat (at0 + 4 * e) 4)
  else
    match Gauge.ofCode fd.2.2.1 with
    | none => 0
    | some g =>
      let t := tensorScale m k (fd.1 * 32) fd.2.2.2
      if g.narrow then
        let c := m.nat (at0 + e * g.bitsPer / 8) 1 / 2 ^ (e * g.bitsPer % 8) % 2 ^ g.bitsPer
        dequant g c (m.nat (at0 + scaleOffset g n + e / 32) 1) t
      else dequant g (m.nat (at0 + e * (g.bitsPer / 8)) (g.bitsPer / 8)) 0 t

/-- Is element `e` of a source a stray code (02 R37)? -/
def vecStray (m : Memory) (k : Nat) (car : Car) (r : VecRec) (o e : Nat) : Bool :=
  let fd := vecField car r o
  !fd.2.1 && !(vecInts car r).contains o && fd.2.2.1 == 6 &&
    m.nat (tenderAt k (fd.1 * 32) + e / 4) 1 / 2 ^ (2 * (e % 4)) % 4 == 2

/-- The optimiser record of a car (04 Table 04-5). -/
def optRec (m : Memory) (k : Nat) (r : VecRec) : Nat := m.nat (tenderAt k (r.s3 * 32)) 64

/-- t = TSTEP + T_OFFSET + 1 (04 R106). -/
def optT (tstep : W32) (o : Nat) : Int := tstep.toNat + signedOf 32 (bits o 287 256) + 1

/-- Reserved bits of a vector record (04 Table 04-2). -/
def vecRecZeros (raw : Nat) : Bool := bits raw 102 92 == 0 && !raw.testBit 39

/-- Is OPC and FUNC an operation (04 Table 04-3)? -/
def vecOpOk (o f : Nat) : Bool :=
  match o with
  | 1 => decide (f ≤ 12)
  | 2 => decide (f ≤ 7)
  | 3 => decide (f ≤ 4)
  | 4 => decide (f ≤ 1)
  | 5 => decide (f ≤ 3)
  | 6 => f == 0
  | 7 => decide (f ≤ 1)
  | 8 => decide (f ≤ 4)
  | 9 => decide (f ≤ 2)
  | 10 => decide (f ≤ 4)
  | _ => false

/-- May the operation run with BF16 lanes (04 Table 04-3)? -/
def vecLwOk (o f : Nat) : Bool :=
  match o with
  | 1 => true
  | 2 => true
  | 3 => true
  | 7 => f == 0
  | 8 => f == 1 || f == 3 || f == 4
  | _ => false

/-- The integer value of LDEXP's constant (04 R99). -/
def ldexpA (r : VecRec) : Option Int := (decode32 r.a).toInt?

/-- The rows of 04 Table 04-6 that a vector car breaks, if any. -/
def vecInvalid (m : Memory) (tstep : W32) (car : Car) (r : VecRec) (e : QCar) (x : Chan) (k : Nat) : Option Nat :=
  let o := Car.opc car
  let f := Car.vfunc car
  let raw := r.raw
  let n := vecN car r
  let uses := 0 :: vecUses car r
  let gd := bits raw 123 120
  let g1 := bits raw 119 116
  let g2 := bits raw 115 112
  let g3 := bits raw 111 108
  let regBad := uses.any (fun i =>
    let fd := vecField car r i
    let two := (o == 9 && f == 0 && i == 2) || (r.lw && (vecInts car r).contains i)
    let need := if i = 3 && o == 9 then 1 else Car.count car * (if two then 2 else 1)
    fd.2.1 && decide (64 < fd.1 + need))
  let regZero := uses.any (fun i => let fd := vecField car r i; fd.2.1 && fd.1 / 64 != 0)
  let opt := optRec m k r
  let beyond := fun a len => decide (tenderBytes < a + len)
  if !Car.commonOk car || Car.get car 3 0 != 0 || !vecRecZeros raw || !vecOpOk o f || decide (6 < gd) || decide (6 < g1) ||
      decide (6 < g2) || decide (6 < g3) || regZero then some 0
  else if Car.count car = 0 || regBad then some 1
  else if r.lw && !vecLwOk o f then some 2
  else if (codeNarrow gd && r.elemBase % 32 != 0) || (Car.dr car && (codeNarrow gd || (o == 7 && f == 1))) ||
      (o == 7 && f == 1 && !codeNarrow gd) then some 3
  else if (o == 4 && f == 0 && Car.s1r car) ||
      (Car.dr car && ((o == 4 && f == 1) || o == 6 || (o == 8 && f == 0) || o == 10 || o == 9)) ||
      (o == 9 && r.s3r) then some 4
  else if (o == 6 && (Car.count car != ceilDiv r.sortN 64 || (r.keyU32 && (gd != 0 || g1 != 0)) ||
        (r.payload && (g2 != 0 || g3 != 0)))) ||
      (o == 4 && (r.tblLen == 0 || g2 != 0 || (if f = 0 then g1 != 0 || raw.testBit 105 else gd != 0 || raw.testBit 106))) ||
      (o == 8 && f == 0 && gd != 0) || (o == 8 && r.streamSrc && g2 != 0) then some 5
  else if o == 9 && (decide (1 < g1) || gd != 0 || g2 != 0 || g3 != 0 || beyond (r.s3 * 32) 64 ||
      bits opt 511 320 != 0 || bits opt 303 302 != 0 || decide (6 < bits opt 301 298) ||
      (opt.testBit 296 && decide (optT tstep opt ≤ 0))) then some 6
  else if o == 1 && f == 11 && (match ldexpA r with | some a => decide (a < -512 ∨ 512 < a) | none => true) then some 7
  else if decide (2 ^ 39 < r.elemBase + n) then some 8
  else if uses.any (fun i =>
      let fd := vecField car r i
      !fd.2.1 && (beyond (fd.1 * 32) (vecSize car r i) || (fd.2.2.2 && fd.1 == 0 && !(vecInts car r).contains i))) ||
      (o == 9 && opt.testBit 297 && beyond (bits opt 319 304 * 32) (spanOf (bits opt 301 298) n)) then some 9
  else if !spanOk e x k (some r.layer) then some 10
  else if Car.vgrad car && (match x.run.image with | some i => i.flags.testBit 1 | none => false) then some 11
  else none

/-- The tender ranges a car reads. -/
def vecReads (k : Nat) (car : Car) (r : VecRec) : List (Nat × Nat) :=
  let o := Car.opc car
  let src := (vecUses car r).flatMap (fun i =>
    let fd := vecField car r i
    if fd.2.1 then []
    else (tenderAt k (fd.1 * 32), vecSize car r i) ::
      (if fd.2.2.2 && !(vecInts car r).contains i then [(tenderAt k (fd.1 * 32 - 32), 32)] else []))
  let d := tenderAt k (Car.vd car * 32)
  (tenderAt k (Car.vset car), 32) :: src ++
    (if o == 9 || (o == 4 && Car.vfunc car == 1) then [(d, vecSize car r 0)] else []) ++
    (if r.tsd && !Car.dr car then [(d - 32, 32)] else []) ++
    (if codeNarrow r.gd && !r.scl && !Car.dr car && !(o == 7 && Car.vfunc car == 1) then
      (match Gauge.ofCode r.gd with
       | some g =>
         let n := if o = 6 then r.sortN else vecN car r
         [(d + scaleOffset g n, ceilDiv n 32)]
       | none => [])
     else [])

/-! ### Results (04 R97, R98) -/

/-- The rounding of element `e`'s narrowing (04 R97, R98). -/
def vecRound (d : Draw) (car : Car) (r : VecRec) (e : Nat) : Rounding :=
  if Car.vrnd car || Car.vgrad car then
    .sr (d.u16 (streamId r.stream r.layer) (narrowPos r.seedPos (r.elemBase + e)))
  else .rne

/-- What a store of results leaves: bytes of the extent (none: unchanged), the values stored and the counts. -/
structure VecOut where
  bytes : List (Option Byte)
  vals : List W32
  counts : Counts
  deriving DecidableEq, Repr

/-- Break a list into blocks of 32. -/
def blocks32 {α : Type} (l : List α) : List (List α) :=
  (List.range (ceilDiv l.length 32)).map (fun i => (l.drop (32 * i)).take 32)

/-- Narrow values into a tender extent in gauge `g`: `sup b` is the supplied scale byte of block b, `old` the extent's bytes. -/
def narrowExtent (g : Gauge) (t : Option W32) (local? : Bool) (sup : Nat → Nat) (old : Nat → Nat)
    (ys : List (Fp × Rounding)) : VecOut :=
  if g.narrow then
    let bs := (blocks32 ys).zipIdx.map (fun b => narrowBlock g (if local? then none else some (sup b.2)) b.1)
    let codes := bs.flatMap (·.codes)
    let nb := ceilDiv (codes.length * g.bitsPer) 8
    let packed := packCodes g codes
    let spare := nb * 8 - codes.length * g.bitsPer
    let packed := if spare = 0 then packed
      else packed.take (nb - 1) ++ [BitVec.ofNat 8 (field packed (nb - 1) 1 + old (nb - 1) / 2 ^ (8 - spare) * 2 ^ (8 - spare))]
    { bytes := packed.map some ++ List.replicate (scaleOffset g codes.length - nb) none ++
        bs.map (fun b => some (BitVec.ofNat 8 b.scale))
      vals := bs.flatMap (fun b => b.codes.map (fun c => dequant g c b.scale t))
      counts := bs.foldl (fun n b => n.add b.counts) {} }
  else
    let cs := ys.map (fun y => narrowOne g y.2 y.1)
    { bytes := cs.flatMap (fun c => (bytesOfNat (g.bitsPer / 8) c.1).map some)
      vals := cs.map (fun c => dequant g c.1 0 t)
      counts := cs.foldl (fun n c => n.add c.2) {} }

/-- Does a car convert an operand on its way in: a tender source in a gauge other than FP32, or under a tensor scale (04 R97 step 1)? -/
def vecConverts (car : Car) (r : VecRec) : Bool :=
  (vecUses car r).any (fun o =>
    let fd := vecField car r o
    !fd.2.1 && !(vecInts car r).contains o && (fd.2.2.1 != 0 || fd.2.2.2))

/-- The NaN and the infinite elements among FP32 words written (02 R53). -/
def countWords (ws : List W32) : Counts :=
  { nan := (ws.filter isNan32).length, inf := (ws.filter isInf32).length }

/-- Write the FP32 results of a car to D, narrowed as R97 step 3 states; answers the values stored in tender and the counts. A register
D at LW = 0 is written unchanged; its NaN and infinite elements count when the car converts an operand (02 R53; log entry 64). -/
def State.vecStore (s : State) (c : Ch) (k : Nat) (car : Car) (r : VecRec) (ws : List W32) : State × List W32 × Counts :=
  let x := s.ch c
  let d := x.draw (if r.raw.testBit 168 then bits r.raw 174 169 else x.run.leg)
  let shift := x.gradShift r.layer (Car.vgrad car)
  let at0 := tenderAt k (Car.vd car * 32)
  if Car.dr car then
    if r.lw then
      let cs := ws.zipIdx.map (fun w => narrowOne .bf16 (vecRound d car r w.2) ((decode32 w.1).scale shift))
      let s := s.onCluster c k (fun cl =>
        { cl with vregs := cs.zipIdx.foldl (fun t p =>
            let key := (Car.vd car + p.2 / 128) * 64 + p.2 % 128 / 2
            let w := (Tab.get 0 t key).toNat
            Tab.put 0 t key (BitVec.ofNat 32 (setBits w (16 * (p.2 % 2)) 16 p.1.1))) cl.vregs })
      (s, [], cs.foldl (fun n c => n.add c.2) {})
    else
      (s.onCluster c k (fun cl =>
        { cl with vregs := ws.zipIdx.foldl (fun t p => Tab.put 0 t (Car.vd car * 64 + p.2) p.1) cl.vregs }), [],
        if vecConverts car r then countWords ws else {})
  else
    match Gauge.ofCode r.gd with
    | none => (s, [], {})
    | some g =>
      let t := tensorScale x.mem k (Car.vd car * 32) r.tsd
      let ys := ws.zipIdx.map (fun w => (scaled ((decode32 w.1).scale shift) t, vecRound d car r w.2))
      let o := narrowExtent g t r.scl (fun b => x.mem.nat (at0 + scaleOffset g ws.length + b) 1)
        (fun b => x.mem.nat (at0 + b) 1) ys
      (s.onMem c (fun m => m.writeMask at0 o.bytes), o.vals, o.counts)

/-- Store raw words: into tender at an address, or into registers (04 R96). -/
def State.putWords (s : State) (c : Ch) (k : Nat) (reg : Bool) (fieldV : Nat) (ws : List W32) : State :=
  if reg then
    s.onCluster c k (fun cl =>
      { cl with vregs := ws.zipIdx.foldl (fun t p => Tab.put 0 t (fieldV * 64 + p.2) p.1) cl.vregs })
  else s.store c (tenderAt k (fieldV * 32)) (ws.flatMap (fun w => bytesOfNat 4 w.toNat))

/-- An FP32 element in place as the car reads it: times the tensor scale, where there is one (02 R41, R42). -/
def underScale (t : Option W32) (w : W32) : W32 :=
  match t with
  | some _ => dequant .fp32 w.toNat 0 t
  | none => w

/-- The FP32 words an optimiser writes in place, each divided by the tensor scale, where there is one, and the counts (02 R41, R44,
R53; log entries 63, 64). -/
def overScale (t : Option W32) (ws : List W32) : List W32 × Counts :=
  match t with
  | some _ =>
    let cs := ws.map (fun w => narrowOne .fp32 .rne (scaled (decode32 w) t))
    (cs.map (fun c => BitVec.ofNat 32 c.1), cs.foldl (fun n c => n.add c.2) {})
  | none => (ws, countWords ws)

/-! ### Timing (04 R103, R108) -/

/-- Cycles per step of Table 04-3. -/
def vecStepCycles (o f : Nat) : Nat :=
  match o with
  | 1 => if f = 9 || f = 10 then 4 else 1
  | 2 => [6, 6, 4, 6, 6, 10, 8, 8].getD f 6
  | 5 => 4
  | 8 => if f = 2 then 10 else 1
  | 9 => [8, 4, 3].getD f 3
  | _ => 1

/-- The least power of two at or above `n`, for n up to 2^12. -/
def pow2Above (n : Nat) : Nat := if n ≤ 1 then 1 else 2 ^ ((n - 1).log2 + 1)

/-- The cycles of the table operations, from their indices by step (04 R103). -/
def tableCycles (gather : Bool) (idx : List Nat) : Nat :=
  let steps := (List.range (ceilDiv idx.length 64)).map (fun i => (idx.drop (64 * i)).take 64)
  (steps.map (fun st =>
    if gather then
      let worst := (List.range 8).foldl (fun m b => max m (st.filter (fun i => i / 8 % 8 == b)).length) 0
      max 1 (ceilDiv worst 8)
    else 2 + st.length - st.dedup.length)).sum

/-- The cycles a vector car occupies its engine (04 R108). -/
def vecCycles (car : Car) (r : VecRec) (idx : List Nat) (bc : Bool) : Nat :=
  let o := Car.opc car
  let f := Car.vfunc car
  let body := match o with
    | 4 => tableCycles (f == 0) idx
    | 6 =>
      let np := pow2Above (max r.sortN 128)
      np.log2 * (np.log2 + 1) / 2 * ceilDiv np 128 + 2 * Car.count car
    | _ => Car.count car * vecStepCycles o f
  6 + body + 4 + (if o = 10 then 13 else 0) + (if bc then 40 else 0)

/-! ### Running a vector car -/

/-- The source elements of a car. -/
def vecSource (x : Chan) (k : Nat) (car : Car) (r : VecRec) (o n : Nat) : List W32 :=
  let regs := x.run.vreg k
  tab n (fun e => vecElem x.mem regs k car r o n e)

/-- Stray codes among the sources a car reads. -/
def vecStrays (x : Chan) (k : Nat) (car : Car) (r : VecRec) (n : Nat) : Nat :=
  ((vecUses car r).map (fun o =>
    ((List.range (if Car.opc car = 5 ∧ o = 3 then 64 else n)).filter (fun e => vecStray x.mem k car r o e)).length)).sum

/-- A vector car of an operation at the head of its queue: the record is read, the car checked, poison looked for; then `body`
gives the state with its results, the values stored for the telltales (if the car contributes), and the counts (04 R107,
16 R363, 05 R121). -/
def State.vecCar (s : State) (w : At) (opc func : Nat) (tell : Bool)
    (body : Chan → Car → VecRec → State → State × List W32 × Counts) : State :=
  let c := w.ch
  let k := w.cl.val
  s.issueFrom c k 4 (fun e t =>
    let x := t.ch c
    let car := e.car
    match x.mem.poisonIn (tenderAt k (Car.vset car)) 32 with
    | some a => some (t.consumePoison c a (0x0200 + k))
    | none =>
      let raw := x.mem.nat (tenderAt k (Car.vset car)) 32
      let r := vecRecOf raw car (x.substOf e)
      match (if Car.opc car = 9 && !r.s3r then x.mem.poisonIn (tenderAt k (r.s3 * 32)) 64 else none) with
      | some a => some (t.consumePoison c a (0x0200 + k))
      | none =>
        match vecInvalid x.mem x.run.ticketStep car r e x k with
        | some row => some (t.carInvalid c k car e.pos row)
        | none =>
          if Car.opc car ≠ opc ∨ Car.vfunc car ≠ func then none
          else
            match x.mem.poisonAmong (vecReads k car r) with
            | some a => some (t.consumePoison c a (0x0200 + k))
            | none =>
              let nid := (t.popCar c k 4).newId c
              let n := vecN car r
              let res := body x car r nid.2
              let counts := res.2.2.add { stray := vecStrays x k car r (if opc = 6 then r.sortN else n) }
              let idx := if opc = 4 then (vecSource x k car r 2 n).map (·.toNat) else []
              let bc := opc == 9 && func == 0 && (optRec x.mem k r).testBit 296
              let t := res.1.addCycles c k 4 (vecCycles car r idx bc)
              let t := t.onWatch c (fun v =>
                let v := (v.report e counts).observe e (Car.vgrad car) res.2.1
                if tell && !Car.dr car then
                  v.contribute k e (Car.vgrad car) res.2.1 counts r.gd r.gd0
                else v)
              some ((t.pendPost c k car nid.1).issued c))

/-- An element-wise operation (04 R97, R99). -/
def State.elementwise (s : State) (w : At) (opc func : Nat) (op : VecRec → W32 → W32 → W32 → W32) : State :=
  s.vecCar w opc func true (fun x car r t =>
    let n := vecN car r
    let k := w.cl.val
    let regs := x.run.vreg k
    let u := vecUses car r
    let src := fun o e => if u.contains o then vecElem x.mem regs k car r o n e else 0
    t.vecStore w.ch k car r (tab n (fun e => canon32 (op r (src 1 e) (src 2 e) (src 3 e)))))

/-- 1.0 or +0.0. -/
def boolWord (b : Bool) : W32 := if b then one32 else 0

/-- ADD (04 R99). -/
def execAdd (w : At) (s : State) : Host.Outcome State Fault Refusal :=
  let s := s.meet w
  .next (s.elementwise w 1 0 (fun _ a b _ => add32 a b))
/-- SUB (04 R99). -/
def execSub (w : At) (s : State) : Host.Outcome State Fault Refusal :=
  let s := s.meet w
  .next (s.elementwise w 1 1 (fun _ a b _ => sub32 a b))
/-- MUL (04 R99). -/
def execMul (w : At) (s : State) : Host.Outcome State Fault Refusal :=
  let s := s.meet w
  .next (s.elementwise w 1 2 (fun _ a b _ => mul32 a b))
/-- FMA (04 R99). -/
def execFma (w : At) (s : State) : Host.Outcome State Fault Refusal :=
  let s := s.meet w
  .next (s.elementwise w 1 3 (fun _ a b d => fma32 a b d))
/-- AXPBY (04 R99). -/
def execAxpby (w : At) (s : State) : Host.Outcome State Fault Refusal :=
  let s := s.meet w
  .next (s.elementwise w 1 4 (fun r a b _ => fma32 r.a a (mul32 r.b b)))
/-- MIN (04 R99). -/
def execMin (w : At) (s : State) : Host.Outcome State Fault Refusal :=
  let s := s.meet w
  .next (s.elementwise w 1 5 (fun _ a b _ => min32 a b))
/-- MAX (04 R99). -/
def execMax (w : At) (s : State) : Host.Outcome State Fault Refusal :=
  let s := s.meet w
  .next (s.elementwise w 1 6 (fun _ a b _ => max32 a b))
/-- ABS (04 R99). -/
def execAbs (w : At) (s : State) : Host.Outcome State Fault Refusal :=
  let s := s.meet w
  .next (s.elementwise w 1 7 (fun _ a _ _ => abs32 a))
/-- NEG (04 R99). -/
def execNeg (w : At) (s : State) : Host.Outcome State Fault Refusal :=
  let s := s.meet w
  .next (s.elementwise w 1 8 (fun _ a _ _ => neg32 a))
/-- DIV (04 R99). -/
def execDiv (w : At) (s : State) : Host.Outcome State Fault Refusal :=
  let s := s.meet w
  .next (s.elementwise w 1 9 (fun _ a b _ => div32 a b))
/-- SQRT (04 R99). -/
def execSqrt (w : At) (s : State) : Host.Outcome State Fault Refusal :=
  let s := s.meet w
  .next (s.elementwise w 1 10 (fun _ a _ _ => sqrt32 a))
/-- LDEXP (04 R99). -/
def execLdexp (w : At) (s : State) : Host.Outcome State Fault Refusal :=
  let s := s.meet w
  .next (s.elementwise w 1 11 (fun r a _ _ => ldexp32 a ((ldexpA r).getD 0)))
/-- CLAMP (04 R99). -/
def execClamp (w : At) (s : State) : Host.Outcome State Fault Refusal :=
  let s := s.meet w
  .next (s.elementwise w 1 12 (fun r a _ _ => min32 (max32 a r.a) r.b))
/-- EXP (04 R104). -/
def execExp (w : At) (s : State) : Host.Outcome State Fault Refusal :=
  let s := s.meet w
  .next (s.elementwise w 2 0 (fun _ a _ _ => exp32 a))
/-- LOG (04 R104). -/
def execLog (w : At) (s : State) : Host.Outcome State Fault Refusal :=
  let s := s.meet w
  .next (s.elementwise w 2 1 (fun _ a _ _ => log32 a))
/-- RSQRT (04 R104). -/
def execRsqrt (w : At) (s : State) : Host.Outcome State Fault Refusal :=
  let s := s.meet w
  .next (s.elementwise w 2 2 (fun _ a _ _ => rsqrt32 a))
/-- TANH (04 R104). -/
def execTanh (w : At) (s : State) : Host.Outcome State Fault Refusal :=
  let s := s.meet w
  .next (s.elementwise w 2 3 (fun _ a _ _ => tanh32 a))
/-- SIGMOID (04 R104). -/
def execSigmoid (w : At) (s : State) : Host.Outcome State Fault Refusal :=
  let s := s.meet w
  .next (s.elementwise w 2 4 (fun _ a _ _ => sigmoid32 a))
/-- GELU (04 R104). -/
def execGelu (w : At) (s : State) : Host.Outcome State Fault Refusal :=
  let s := s.meet w
  .next (s.elementwise w 2 5 (fun _ a _ _ => gelu32 a))
/-- SIN (04 R104). -/
def execSin (w : At) (s : State) : Host.Outcome State Fault Refusal :=
  let s := s.meet w
  .next (s.elementwise w 2 6 (fun _ a _ _ => sin32 a))
/-- COS (04 R104). -/
def execCos (w : At) (s : State) : Host.Outcome State Fault Refusal :=
  let s := s.meet w
  .next (s.elementwise w 2 7 (fun _ a _ _ => cos32 a))
/-- LT (04 R99). -/
def execLt (w : At) (s : State) : Host.Outcome State Fault Refusal :=
  let s := s.meet w
  .next (s.elementwise w 3 0 (fun _ a b _ => boolWord (lt32 a b)))
/-- LE (04 R99). -/
def execLe (w : At) (s : State) : Host.Outcome State Fault Refusal :=
  let s := s.meet w
  .next (s.elementwise w 3 1 (fun _ a b _ => boolWord (le32 a b)))
/-- EQ (04 R99). -/
def execEq (w : At) (s : State) : Host.Outcome State Fault Refusal :=
  let s := s.meet w
  .next (s.elementwise w 3 2 (fun _ a b _ => boolWord (eq32 a b)))
/-- NE (04 R99). -/
def execNe (w : At) (s : State) : Host.Outcome State Fault Refusal :=
  let s := s.meet w
  .next (s.elementwise w 3 3 (fun _ a b _ => boolWord (!eq32 a b)))
/-- SELECT (04 R99). -/
def execSelect (w : At) (s : State) : Host.Outcome State Fault Refusal :=
  let s := s.meet w
  .next (s.elementwise w 3 4 (fun _ a b d => if !isZero32 d && !isNan32 d then a else b))
/-- CONVERT (04 R97). -/
def execConvert (w : At) (s : State) : Host.Outcome State Fault Refusal :=
  let s := s.meet w
  .next (s.elementwise w 7 0 (fun _ a _ _ => a))

/-! ### Tables (04 R103) -/

/-- Count out-of-range indices (04 R103). -/
def State.addOor (s : State) (c : Ch) (k n : Nat) : State := s.onCluster c k (fun cl => { cl with oor := cl.oor + n })

/-- GATHER (04 R103). -/
def execGather (w : At) (s : State) : Host.Outcome State Fault Refusal :=
  let s := s.meet w
  .next (s.vecCar w 4 0 false (fun x car r t =>
    let k := w.cl.val
    let n := vecN car r
    let idx := (vecSource x k car r 2 n).map (·.toNat)
    let out := idx.map (fun i =>
      if i < r.tblLen then canon32 (BitVec.ofNat 32 (x.mem.nat (tenderAt k (Car.vs1 car * 32 + 4 * i)) 4)) else 0)
    (t.addOor w.ch k (idx.filter (fun i => decide (r.tblLen ≤ i))).length).vecStore w.ch k car r out))

/-- SCATTER_ADD (04 R103); the table's words are no converted elements and are not counted (log entry 64). -/
def execScatterAdd (w : At) (s : State) : Host.Outcome State Fault Refusal :=
  let s := s.meet w
  .next (s.vecCar w 4 1 false (fun x car r t =>
    let k := w.cl.val
    let n := vecN car r
    let idx := (vecSource x k car r 2 n).map (·.toNat)
    let vals := vecSource x k car r 1 n
    let at0 := tenderAt k (Car.vd car * 32)
    let mem := (idx.zip vals).foldl (fun m p =>
      if p.1 < r.tblLen then
        let a := at0 + 4 * p.1
        m.write a (bytesOfNat 4 (add32 (BitVec.ofNat 32 (m.nat a 4)) p.2).toNat)
      else m) (t.ch w.ch).mem
    ((t.addOor w.ch k (idx.filter (fun i => decide (r.tblLen ≤ i))).length).onMem w.ch (fun _ => mem), [], {})))

/-! ### Scans (04 R101) -/

/-- One lane of a forward scan: the kind 0 SUM, 1 XSUM, 2 MAX; each element with its mark. -/
def scanLane (kind : Nat) : W32 → List (W32 × Bool) → List W32
  | _, [] => []
  | cy, (v, mark) :: l =>
    let cy := if mark then (if kind = 2 then 0xff800000 else 0) else cy
    match kind with
    | 0 => let d := add32 cy v; d :: scanLane kind d l
    | 1 => cy :: scanLane kind (add32 cy v) l
    | _ => let d := max32 cy v; d :: scanLane kind d l

/-- One lane of DISC_REV, given from the last step to the first. -/
def discLane (a : W32) : W32 → List (W32 × Bool) → List W32
  | _, [] => []
  | cy, (v, mark) :: l =>
    let d := if mark then v else fma32 a cy v
    d :: discLane a d l

/-- The scans: 64 independent lanes (04 R101). -/
def State.scanCar (s : State) (w : At) (func : Nat) : State :=
  s.vecCar w 5 func false (fun x car r t =>
    let k := w.cl.val
    let n := vecN car r
    let st := Car.count car
    let regs := x.run.vreg k
    let el := fun o e => vecElem x.mem regs k car r o n e
    let carry := fun l => vecElem x.mem regs k car r 3 64 l
    let lanes := tab 64 (fun l =>
      let seq := tab st (fun i => (el 1 (64 * i + l), !isZero32 (el 2 (64 * i + l))))
      if func = 3 then (discLane r.a (carry l) seq.reverse).reverse else scanLane func (carry l) seq)
    t.vecStore w.ch k car r (tab n (fun e => canon32 ((lanes.getD (e % 64) []).getD (e / 64) 0))))

/-- SCAN_SUM (04 R101). -/
def execScanSum (w : At) (s : State) : Host.Outcome State Fault Refusal := .next ((s.meet w).scanCar w 0)
/-- SCAN_XSUM (04 R101). -/
def execScanXsum (w : At) (s : State) : Host.Outcome State Fault Refusal := .next ((s.meet w).scanCar w 1)
/-- SCAN_MAX (04 R101). -/
def execScanMax (w : At) (s : State) : Host.Outcome State Fault Refusal := .next ((s.meet w).scanCar w 2)
/-- DISC_REV (04 R101). -/
def execDiscRev (w : At) (s : State) : Host.Outcome State Fault Refusal := .next ((s.meet w).scanCar w 3)

/-! ### SORT (04 R102) -/

/-- Does key `a` come strictly before key `b`: FP32 by value with NaN last in either direction, or U32. -/
def keyBefore (u32 desc : Bool) (a b : W32) : Bool :=
  if u32 then (if desc then decide (b.toNat < a.toNat) else decide (a.toNat < b.toNat))
  else if isNan32 a then false
  else if isNan32 b then true
  else if desc then lt32 b a else lt32 a b

/-- Insert a key after every key that it does not come before. -/
def sortInsert (u32 desc : Bool) (v : W32 × W32) : List (W32 × W32) → List (W32 × W32)
  | [] => [v]
  | x :: l => if keyBefore u32 desc v.1 x.1 then v :: x :: l else x :: sortInsert u32 desc v l

/-- A stable sort of keys with payloads (04 R102). -/
def stableSort (u32 desc : Bool) (l : List (W32 × W32)) : List (W32 × W32) :=
  l.foldl (fun acc v => sortInsert u32 desc v acc) []

/-- SORT (04 R102). -/
def execSort (w : At) (s : State) : Host.Outcome State Fault Refusal :=
  let s := s.meet w
  .next (s.vecCar w 6 0 false (fun x car r t =>
    let k := w.cl.val
    let n := r.sortN
    let keys := vecSource x k car r 1 n
    let pay := if r.payload then vecSource x k car r 2 n else keys.map (fun _ => 0)
    let out := stableSort r.keyU32 r.desc (keys.zip pay)
    let res := if r.keyU32 then (t.putWords w.ch k false (Car.vd car) (out.map (·.1)), [], {})
      else t.vecStore w.ch k car r (out.map (fun p => canon32 p.1))
    if r.payload then (res.1.putWords w.ch k r.s3r r.s3 (out.map (·.2)), res.2) else res))

/-! ### SCALEGEN and ticket operations (04 R100, R111) -/

/-- SCALEGEN (04 R100); a GD that a pass has widened writes nothing (05 R127 step 4). A GRAD car's scale bytes come from the values as
they are, with no gradient exponent, as R129 names tile exits and D narrowings only (log entry 64). -/
def execScalegen (w : At) (s : State) : Host.Outcome State Fault Refusal :=
  let s := s.meet w
  .next (s.vecCar w 7 1 false (fun x car r t =>
    let k := w.cl.val
    match Gauge.ofCode r.gd with
    | some g =>
      if r.drop then (t, [], {})
      else
        let ts := tensorScale x.mem k (Car.vd car * 32) r.tsd
        let bs := (blocks32 (vecSource x k car r 1 (vecN car r))).map (fun b =>
          BitVec.ofNat 8 (blockScale g (b.map (fun v => scaled (decode32 v) ts))))
        (t.store w.ch (tenderAt k (Car.vd car * 32)) bs, [], {})
    | none => (t, [], {})))

/-- The ticket of element `e` (04 R110, R111). -/
def fillTicket (x : Chan) (k : Nat) (car : Car) (r : VecRec) (e : Nat) : Ticket :=
  let d := x.draw (if r.raw.testBit 168 then bits r.raw 174 169 else x.run.leg)
  let stream := if r.streamSrc then (vecElem x.mem (x.run.vreg k) k car r 2 (vecN car r) e).toNat
    else streamId r.stream r.layer
  d.at stream (r.seedPos * 2 ^ 40 + (r.elemBase + e))

/-- A fill that gives each element from its ticket (04 R111). -/
def State.fillCar (s : State) (w : At) (func : Nat) (tell : Bool) (op : VecRec → Ticket → W32 → W32) : State :=
  s.vecCar w 8 func tell (fun x car r t =>
    let k := w.cl.val
    let n := vecN car r
    let regs := x.run.vreg k
    t.vecStore w.ch k car r (tab n (fun e =>
      canon32 (op r (fillTicket x k car r e) (if func = 4 then vecElem x.mem regs k car r 1 n e else 0)))))

/-- Does the ticket keep the element (04 R111)? -/
def keeps (r : VecRec) (t : Ticket) : Bool := decide (r.thr ≤ t.x0.toNat % 2 ^ 16)

/-- RAW (04 R111). -/
def execRaw (w : At) (s : State) : Host.Outcome State Fault Refusal :=
  let s := s.meet w
  .next (s.vecCar w 8 0 false (fun x car r t =>
    let k := w.cl.val
    let ws := (List.range (vecN car r)).flatMap (fun e =>
      let q := fillTicket x k car r e
      [q.x0, q.x1, q.x2, q.x3])
    (t.putWords w.ch k false (Car.vd car) ws, [], {})))
/-- UNIFORM (04 R111). -/
def execUniform (w : At) (s : State) : Host.Outcome State Fault Refusal :=
  let s := s.meet w
  .next (s.fillCar w 1 false (fun _ t _ => uniform32 t.x0))
/-- NORMAL (04 R111). -/
def execNormal (w : At) (s : State) : Host.Outcome State Fault Refusal :=
  let s := s.meet w
  .next (s.fillCar w 2 false (fun _ t _ => normal32 t))
/-- BERNOULLI (04 R111). -/
def execBernoulli (w : At) (s : State) : Host.Outcome State Fault Refusal :=
  let s := s.meet w
  .next (s.fillCar w 3 false (fun r t _ => boolWord (keeps r t)))
/-- DROPOUT (04 R111, R112). -/
def execDropout (w : At) (s : State) : Host.Outcome State Fault Refusal :=
  let s := s.meet w
  .next (s.fillCar w 4 true (fun r t v => if keeps r t then mul32 v r.a else 0))

/-! ### Fused optimiser steps (04 R105, R106, 05 R130) -/

/-- The coefficients of an optimiser record. -/
structure OptRec where
  lr : W32
  lrwd : W32
  beta1 : W32
  omb1 : W32
  beta2 : W32
  omb2 : W32
  eps : W32
  gmul : W32
  sexp : Int
  bc1 : Option (W32 × W32)
  deriving DecidableEq, Repr

/-- pown: square-and-multiply from the top bit of t, one mul after each step (04 R106). -/
def pown32 (b : W32) (t : Nat) : W32 :=
  (List.range t.log2).reverse.foldl (fun acc i =>
    let sq := mul32 acc acc
    if t.testBit i then mul32 sq b else sq) b

/-- Read an optimiser record; the sequencer replaces SEXP for a layer with SCALE_EN (05 R130). -/
def optOf (x : Chan) (raw layer : Nat) (adamw : Bool) : OptRec :=
  let w := fun hi lo => BitVec.ofNat 32 (bits raw hi lo)
  let beta1 := w 95 64
  let beta2 := w 159 128
  let t := (optT x.run.ticketStep raw).toNat
  let sexp := if recScale (x.layerRec layer) then (x.watch.layer layer).sg else signedOf 8 (bits raw 295 288)
  let bc := fun b => div32 one32 (sub32 one32 (pown32 b t))
  { lr := w 31 0, lrwd := w 63 32, beta1 := beta1, omb1 := w 127 96, beta2 := beta2, omb2 := w 191 160, eps := w 223 192
    gmul := w 255 224, sexp := sexp, bc1 := if adamw && raw.testBit 296 then some (bc beta1, bc beta2) else none }

/-- The sign of Lion: −1, +0 or +1, and NaN stays NaN (04 R106). -/
def sign32 (v : W32) : W32 :=
  if isNan32 v then nan32 else if isZero32 v then 0 else if v.getLsbD 31 then 0xbf800000 else one32

/-- One element of an optimiser step: gradient, weight, first and second moment; answers weight and moments (04 R106). -/
def optStep (kind : Nat) (o : OptRec) (grad w m v : W32) : W32 × W32 × W32 :=
  let g := mul32 (ldexp32 grad (-o.sexp)) o.gmul
  let w := fma32 (neg32 o.lrwd) w w
  match kind with
  | 0 =>
    let m := fma32 o.beta1 m (mul32 o.omb1 g)
    let v := fma32 o.beta2 v (mul32 o.omb2 (mul32 g g))
    let mh := match o.bc1 with | some b => mul32 m b.1 | none => m
    let vh := match o.bc1 with | some b => mul32 v b.2 | none => v
    (fma32 (neg32 o.lr) (div32 mh (add32 (sqrt32 vh) o.eps)) w, m, v)
  | 1 =>
    let q := fma32 o.beta1 m (mul32 o.omb1 g)
    (fma32 (neg32 o.lr) (sign32 q) w, fma32 o.beta2 m (mul32 o.omb2 g), v)
  | _ =>
    let m := fma32 o.omb1 m g
    (fma32 (neg32 o.lr) m w, m, v)

/-- A fused optimiser car: weights and moments in place, under the tensor scales of D and S2 where TSD and TS2 are set (log entry 63),
and the weight copy, which rounds by RNE whatever RND and GRAD say (04 R96, R105; 02 R52; log entry 64). -/
def State.optCar (s : State) (w : At) (kind : Nat) : State :=
  s.vecCar w 9 kind false (fun x car r t =>
    let k := w.cl.val
    let c := w.ch
    let n := vecN car r
    let raw := optRec x.mem k r
    let o := optOf x raw r.layer (kind == 0)
    let regs := x.run.vreg k
    let grads := vecSource x k car r 1 n
    let td := tensorScale x.mem k (Car.vd car * 32) r.tsd
    let tm := tensorScale x.mem k (Car.vs2 car * 32) (r.ts2 && !Car.s2r car)
    let ws := tab n (fun e => underScale td (BitVec.ofNat 32 (x.mem.nat (tenderAt k (Car.vd car * 32 + 4 * e)) 4)))
    let mom := fun off => tab n (fun e => underScale tm
      (if Car.s2r car then regs ((Car.vs2 car + off) * 64 + e)
      else BitVec.ofNat 32 (x.mem.nat (tenderAt k (Car.vs2 car * 32 + 256 * off + 4 * e)) 4)))
    let ms := mom 0
    let vs := if kind = 0 then mom (Car.count car) else ms
    let out := (grads.zip (ws.zip (ms.zip vs))).map (fun q => optStep kind o q.1 q.2.1 q.2.2.1 q.2.2.2)
    let w' := overScale td (out.map (·.1))
    let m' := overScale tm (out.map (·.2.1))
    let v' := if kind = 0 then overScale tm (out.map (·.2.2)) else ([], {})
    let t := t.putWords c k false (Car.vd car) w'.1
    let t := t.putWords c k (Car.s2r car) (Car.vs2 car) m'.1
    let t := if kind = 0 then
        t.putWords c k (Car.s2r car) (if Car.s2r car then Car.vs2 car + Car.count car else Car.vs2 car + 8 * Car.count car) v'.1
      else t
    let counts := (w'.2.add m'.2).add v'.2
    if raw.testBit 297 then
      match Gauge.ofCode (bits raw 301 298) with
      | some g =>
        let ex := narrowExtent g none true (fun _ => 0) (fun _ => 0) (out.map (fun q => (decode32 q.1, Rounding.rne)))
        (t.onMem c (fun m => m.writeMask (tenderAt k (bits raw 319 304 * 32)) ex.bytes), [], counts.add ex.counts)
      | none => (t, [], counts)
    else (t, [], counts))

/-- ADAMW (04 R106). -/
def execAdamw (w : At) (s : State) : Host.Outcome State Fault Refusal := .next ((s.meet w).optCar w 0)
/-- LION (04 R106). -/
def execLion (w : At) (s : State) : Host.Outcome State Fault Refusal := .next ((s.meet w).optCar w 1)
/-- SGDM (04 R106). -/
def execSgdm (w : At) (s : State) : Host.Outcome State Fault Refusal := .next ((s.meet w).optCar w 2)

/-! ### Reductions (04 R100) -/

/-- Combine the partials of the lanes pairwise, level by level (04 R100). -/
def laneTree (f : W32 → W32 → W32) : Nat → List W32 → List W32
  | 0, l => l
  | n + 1, l => laneTree f n (tab (l.length / 2) (fun i => f (l.getD (2 * i) 0) (l.getD (2 * i + 1) 0)))

/-- A reduction: the partial of each lane, then the tree; `start` is none where a lane starts at its first element. Its word counts for
nothing but the strays read (log entry 64). -/
def State.reduceCar (s : State) (w : At) (func : Nat) (step comb : W32 → W32 → W32) (start : Option W32) (pre : W32 → W32) :
    State :=
  s.vecCar w 10 func false (fun x car r t =>
    let k := w.cl.val
    let xs := (vecSource x k car r 1 (vecN car r)).map pre
    let parts := tab 64 (fun l =>
      let lane := tab (Car.count car) (fun i => xs.getD (64 * i + l) 0)
      match start with
      | some z => lane.foldl step z
      | none => (lane.drop 1).foldl step (lane.getD 0 0))
    let v := (laneTree comb 6 parts).getD 0 0
    (t.store w.ch (tenderAt k (Car.vd car * 32)) (bytesOfNat 4 v.toNat ++ zeros 28), [], {}))

/-- RED_SUM (04 R100). -/
def execRedSum (w : At) (s : State) : Host.Outcome State Fault Refusal :=
  let s := s.meet w
  .next (s.reduceCar w 0 add32 add32 (some 0) id)
/-- RED_SUMSQ (04 R100). -/
def execRedSumsq (w : At) (s : State) : Host.Outcome State Fault Refusal :=
  let s := s.meet w
  .next (s.reduceCar w 1 (fun acc v => fma32 v v acc) add32 (some 0) id)
/-- RED_MAX (04 R100). -/
def execRedMax (w : At) (s : State) : Host.Outcome State Fault Refusal :=
  let s := s.meet w
  .next (s.reduceCar w 2 max32 max32 none canon32)
/-- RED_MIN (04 R100). -/
def execRedMin (w : At) (s : State) : Host.Outcome State Fault Refusal :=
  let s := s.meet w
  .next (s.reduceCar w 3 min32 min32 none canon32)
/-- RED_MAXABS (04 R100). -/
def execRedMaxabs (w : At) (s : State) : Host.Outcome State Fault Refusal :=
  let s := s.meet w
  .next (s.reduceCar w 4 max32 max32 none abs32)

end Sys2Proof.Machine
end

