-- ==== Sys2Proof/Machine/Dispatch.lean ====
section
/-! DEFINITION. One arm for each command: a direct call of its meaning. -/

namespace Sys2Proof.Machine

/-- The effect of a command on everything but the queue. -/
def exec (i : Instr) (s : State) : Host.Outcome State Fault Refusal :=
  match i with
  | .matmul w eng faults => Sys2Proof.Machine.execMatmul w eng faults s
  | .sum w eng => Sys2Proof.Machine.execSum w eng s
  | .maxabs w eng => Sys2Proof.Machine.execMaxabs w eng s
  | .topk w eng => Sys2Proof.Machine.execTopk w eng s
  | .refetchDone w eng => Sys2Proof.Machine.execRefetchDone w eng s
  | .crowsnestCheck c wrong => Sys2Proof.Machine.execCrowsnestCheck c wrong s
  | .add w => Sys2Proof.Machine.execAdd w s
  | .sub w => Sys2Proof.Machine.execSub w s
  | .mul w => Sys2Proof.Machine.execMul w s
  | .fma w => Sys2Proof.Machine.execFma w s
  | .axpby w => Sys2Proof.Machine.execAxpby w s
  | .min w => Sys2Proof.Machine.execMin w s
  | .max w => Sys2Proof.Machine.execMax w s
  | .abs w => Sys2Proof.Machine.execAbs w s
  | .neg w => Sys2Proof.Machine.execNeg w s
  | .div w => Sys2Proof.Machine.execDiv w s
  | .sqrt w => Sys2Proof.Machine.execSqrt w s
  | .ldexp w => Sys2Proof.Machine.execLdexp w s
  | .clamp w => Sys2Proof.Machine.execClamp w s
  | .exp w => Sys2Proof.Machine.execExp w s
  | .log w => Sys2Proof.Machine.execLog w s
  | .rsqrt w => Sys2Proof.Machine.execRsqrt w s
  | .tanh w => Sys2Proof.Machine.execTanh w s
  | .sigmoid w => Sys2Proof.Machine.execSigmoid w s
  | .gelu w => Sys2Proof.Machine.execGelu w s
  | .sin w => Sys2Proof.Machine.execSin w s
  | .cos w => Sys2Proof.Machine.execCos w s
  | .lt w => Sys2Proof.Machine.execLt w s
  | .le w => Sys2Proof.Machine.execLe w s
  | .eq w => Sys2Proof.Machine.execEq w s
  | .ne w => Sys2Proof.Machine.execNe w s
  | .select w => Sys2Proof.Machine.execSelect w s
  | .gather w => Sys2Proof.Machine.execGather w s
  | .scatterAdd w => Sys2Proof.Machine.execScatterAdd w s
  | .scanSum w => Sys2Proof.Machine.execScanSum w s
  | .scanXsum w => Sys2Proof.Machine.execScanXsum w s
  | .scanMax w => Sys2Proof.Machine.execScanMax w s
  | .discRev w => Sys2Proof.Machine.execDiscRev w s
  | .sort w => Sys2Proof.Machine.execSort w s
  | .convert w => Sys2Proof.Machine.execConvert w s
  | .scalegen w => Sys2Proof.Machine.execScalegen w s
  | .raw w => Sys2Proof.Machine.execRaw w s
  | .uniform w => Sys2Proof.Machine.execUniform w s
  | .normal w => Sys2Proof.Machine.execNormal w s
  | .bernoulli w => Sys2Proof.Machine.execBernoulli w s
  | .dropout w => Sys2Proof.Machine.execDropout w s
  | .adamw w => Sys2Proof.Machine.execAdamw w s
  | .lion w => Sys2Proof.Machine.execLion w s
  | .sgdm w => Sys2Proof.Machine.execSgdm w s
  | .redSum w => Sys2Proof.Machine.execRedSum w s
  | .redSumsq w => Sys2Proof.Machine.execRedSumsq w s
  | .redMax w => Sys2Proof.Machine.execRedMax w s
  | .redMin w => Sys2Proof.Machine.execRedMin w s
  | .redMaxabs w => Sys2Proof.Machine.execRedMaxabs w s
  | .copy w ahead faults => Sys2Proof.Machine.execCopy w ahead faults s
  | .compress w ahead faults => Sys2Proof.Machine.execCompress w ahead faults s
  | .decompress w ahead faults => Sys2Proof.Machine.execDecompress w ahead faults s
  | .narrowE4m3 w ahead faults => Sys2Proof.Machine.execNarrowE4m3 w ahead faults s
  | .widenE4m3 w ahead faults => Sys2Proof.Machine.execWidenE4m3 w ahead faults s
  | .demandPoint w slot faults => Sys2Proof.Machine.execDemandPoint w slot faults s
  | .worldEnd w => Sys2Proof.Machine.execWorldEnd w s
  | .worldReset w => Sys2Proof.Machine.execWorldReset w s
  | .record w => Sys2Proof.Machine.execRecord w s
  | .advance w => Sys2Proof.Machine.execAdvance w s
  | .send w => Sys2Proof.Machine.execSend w s
  | .atomic w => Sys2Proof.Machine.execAtomic w s
  | .fence w => Sys2Proof.Machine.execFence w s
  | .signalAdd w => Sys2Proof.Machine.execSignalAdd w s
  | .signalWait w => Sys2Proof.Machine.execSignalWait w s
  | .leg w => Sys2Proof.Machine.execLeg w s
  | .loop w => Sys2Proof.Machine.execLoop w s
  | .endloop w => Sys2Proof.Machine.execEndloop w s
  | .mark w => Sys2Proof.Machine.execMark w s
  | .nop w => Sys2Proof.Machine.execNop w s
  | .commit w => Sys2Proof.Machine.execCommit w s
  | .verdict c layer occ => Sys2Proof.Machine.execVerdict c layer occ s
  | .contributeStart w => Sys2Proof.Machine.execContributeStart w s
  | .contributeAdd w => Sys2Proof.Machine.execContributeAdd w s
  | .contributeFinal w => Sys2Proof.Machine.execContributeFinal w s
  | .contributeOnly w => Sys2Proof.Machine.execContributeOnly w s
  | .deliver w => Sys2Proof.Machine.execDeliver w s
  | .publish w => Sys2Proof.Machine.execPublish w s
  | .await w => Sys2Proof.Machine.execAwait w s
  | .post c slot => Sys2Proof.Machine.execPost c slot s
  | .legBoundary c => Sys2Proof.Machine.execLegBoundary c s
  | .signalDeadlock c => Sys2Proof.Machine.execSignalDeadlock c s
  | .signalStall c => Sys2Proof.Machine.execSignalStall c s
  | .ttLoad via c addr => Sys2Proof.Machine.execTtLoad via c addr s
  | .loadEnd c => Sys2Proof.Machine.execLoadEnd c s
  | .start via c => Sys2Proof.Machine.execStart via c s
  | .resume via c => Sys2Proof.Machine.execResume via c s
  | .holdRequest via c => Sys2Proof.Machine.execHoldRequest via c s
  | .standby via c => Sys2Proof.Machine.execStandby via c s
  | .wake via c => Sys2Proof.Machine.execWake via c s
  | .release via c => Sys2Proof.Machine.execRelease via c s
  | .reset via c => Sys2Proof.Machine.execReset via c s
  | .powerOff via c => Sys2Proof.Machine.execPowerOff via c s
  | .powerOn via c => Sys2Proof.Machine.execPowerOn via c s
  | .clearSafe via => Sys2Proof.Machine.execClearSafe via s
  | .begin via => Sys2Proof.Machine.execBegin via s
  | .txnCommit via => Sys2Proof.Machine.execTxnCommit via s
  | .rollback via => Sys2Proof.Machine.execRollback via s
  | .commitCount => Sys2Proof.Machine.execCommitCount s
  | .txnTimeout via => Sys2Proof.Machine.execTxnTimeout via s
  | .dbStart c => Sys2Proof.Machine.execDbStart c s
  | .dbResume c => Sys2Proof.Machine.execDbResume c s
  | .dbHoldRequest c => Sys2Proof.Machine.execDbHoldRequest c s
  | .dbTtLoad c => Sys2Proof.Machine.execDbTtLoad c s
  | .dbNop c => Sys2Proof.Machine.execDbNop c s
  | .dbTail c value => Sys2Proof.Machine.execDbTail c value s
  | .evtConsumed c value => Sys2Proof.Machine.execEvtConsumed c value s
  | .eventNotify ring => Sys2Proof.Machine.execEventNotify ring s
  | .chMboxGo c => Sys2Proof.Machine.execChMboxGo c s
  | .modMboxGo c => Sys2Proof.Machine.execModMboxGo c s
  | .layerState via c offset value => Sys2Proof.Machine.execLayerState via c offset value s
  | .attestNonce via scope offset value => Sys2Proof.Machine.execAttestNonce via scope offset value s
  | .fwPending via offset value => Sys2Proof.Machine.execFwPending via offset value s
  | .floorCert via offset value => Sys2Proof.Machine.execFloorCert via offset value s
  | .ownerKey via offset value => Sys2Proof.Machine.execOwnerKey via offset value s
  | .ownerTransfer via offset value => Sys2Proof.Machine.execOwnerTransfer via offset value s
  | .tenantSlot via c value => Sys2Proof.Machine.execTenantSlot via c value s
  | .configModule via offset value => Sys2Proof.Machine.execConfigModule via offset value s
  | .configChannel via c offset value => Sys2Proof.Machine.execConfigChannel via c offset value s
  | .depotSize via c value => Sys2Proof.Machine.execDepotSize via c value s
  | .farEnable via c value => Sys2Proof.Machine.execFarEnable via c value s
  | .farTrained c link => Sys2Proof.Machine.execFarTrained c link s
  | .farTierDown c => Sys2Proof.Machine.execFarTierDown c s
  | .linkEnable via c p value => Sys2Proof.Machine.execLinkEnable via c p value s
  | .linkUp c p hello => Sys2Proof.Machine.execLinkUp c p hello s
  | .portFailed c p => Sys2Proof.Machine.execPortFailed c p s
  | .powerAllowance via value => Sys2Proof.Machine.execPowerAllowance via value s
  | .entryWrite via index sub offset value => Sys2Proof.Machine.execEntryWrite via index sub offset value s
  | .managementDatagram i3c datagram => Sys2Proof.Machine.execManagementDatagram i3c datagram s
  | .openSession i3c setup payload => Sys2Proof.Machine.execOpenSession i3c setup payload s
  | .response i3c setup payload => Sys2Proof.Machine.execResponse i3c setup payload s
  | .setupTimeout number => Sys2Proof.Machine.execSetupTimeout number s
  | .sessionClosed number => Sys2Proof.Machine.execSessionClosed number s
  | .read c p h => Sys2Proof.Machine.execRead c p h s
  | .write c p h data poisoned => Sys2Proof.Machine.execWrite c p h data poisoned s
  | .atomicAdd64 c p h => Sys2Proof.Machine.execAtomicAdd64 c p h s
  | .atomicUmin64 c p h => Sys2Proof.Machine.execAtomicUmin64 c p h s
  | .atomicUmax64 c p h => Sys2Proof.Machine.execAtomicUmax64 c p h s
  | .atomicSmin64 c p h => Sys2Proof.Machine.execAtomicSmin64 c p h s
  | .atomicSmax64 c p h => Sys2Proof.Machine.execAtomicSmax64 c p h s
  | .atomicSwap64 c p h => Sys2Proof.Machine.execAtomicSwap64 c p h s
  | .atomicCas64 c p h => Sys2Proof.Machine.execAtomicCas64 c p h s
  | .atomicAdd32 c p h => Sys2Proof.Machine.execAtomicAdd32 c p h s
  | .atomicUmin32 c p h => Sys2Proof.Machine.execAtomicUmin32 c p h s
  | .atomicUmax32 c p h => Sys2Proof.Machine.execAtomicUmax32 c p h s
  | .atomicSmin32 c p h => Sys2Proof.Machine.execAtomicSmin32 c p h s
  | .atomicSmax32 c p h => Sys2Proof.Machine.execAtomicSmax32 c p h s
  | .atomicSwap32 c p h => Sys2Proof.Machine.execAtomicSwap32 c p h s
  | .atomicCas32 c p h => Sys2Proof.Machine.execAtomicCas32 c p h s
  | .roundTimeout c addr round => Sys2Proof.Machine.execRoundTimeout c addr round s
  | .readData c p h data poisoned => Sys2Proof.Machine.execReadData c p h data poisoned s
  | .writeAck c p h => Sys2Proof.Machine.execWriteAck c p h s
  | .atomicResult c p h => Sys2Proof.Machine.execAtomicResult c p h s
  | .mail c p h data poisoned => Sys2Proof.Machine.execMail c p h data poisoned s
  | .mailAck c p h => Sys2Proof.Machine.execMailAck c p h s
  | .detour c p h inner => Sys2Proof.Machine.execDetour c p h inner s
  | .forward c p lane op h data poisoned => Sys2Proof.Machine.execForward c p lane op h data poisoned s
  | .hello c p hello => Sys2Proof.Machine.execHello c p hello s
  | .helloTransmit c p => Sys2Proof.Machine.execHelloTransmit c p s
  | .ctrl c p k => Sys2Proof.Machine.execCtrl c p k s
  | .failedWagon c p lseq => Sys2Proof.Machine.execFailedWagon c p lseq s
  | .portDown c p lockLost => Sys2Proof.Machine.execPortDown c p lockLost s
  | .creditReturn c p => Sys2Proof.Machine.execCreditReturn c p s
  | .mailTimeout c slot => Sys2Proof.Machine.execMailTimeout c slot s
  | .mailRetry c slot => Sys2Proof.Machine.execMailRetry c slot s
  | .partnerTimeout c mail slot => Sys2Proof.Machine.execPartnerTimeout c mail slot s
  | .discardedFrame c p => Sys2Proof.Machine.execDiscardedFrame c p s
  | .neighbourSolicitation port target => Sys2Proof.Machine.execNeighbourSolicitation port target s
  | .leaf c m => Sys2Proof.Machine.execLeaf c m s
  | .pair c m => Sys2Proof.Machine.execPair c m s
  | .quad c m => Sys2Proof.Machine.execQuad c m s
  | .root c m => Sys2Proof.Machine.execRoot c m s
  | .yardCopy c m => Sys2Proof.Machine.execYardCopy c m s
  | .spread c m => Sys2Proof.Machine.execSpread c m s
  | .credit c m => Sys2Proof.Machine.execCredit c m s
  | .yardCredit c => Sys2Proof.Machine.execYardCredit c s
  | .nodeEvaluation c seg owner chunk level pos => Sys2Proof.Machine.execNodeEvaluation c seg owner chunk level pos s
  | .deadline c seg owner chunk m => Sys2Proof.Machine.execDeadline c seg owner chunk m s
  | .yardTimeout c => Sys2Proof.Machine.execYardTimeout c s
  | .hostRead c addr len faults => Sys2Proof.Machine.execHostRead c addr len faults s
  | .hostWrite c addr data => Sys2Proof.Machine.execHostWrite c addr data s
  | .recall c hostAddr => Sys2Proof.Machine.execRecall c hostAddr s
  | .flitReplay c => Sys2Proof.Machine.execFlitReplay c s
  | .sliceUp c link => Sys2Proof.Machine.execSliceUp c link s
  | .hostLinkDown c => Sys2Proof.Machine.execHostLinkDown c s
  | .hostTimeout c => Sys2Proof.Machine.execHostTimeout c s
  | .shedNAssert => Sys2Proof.Machine.execShedNAssert s
  | .shedNRelease => Sys2Proof.Machine.execShedNRelease s
  | .inputRange volts => Sys2Proof.Machine.execInputRange volts s
  | .inputRangeEnd volts => Sys2Proof.Machine.execInputRangeEnd volts s
  | .inputLoss volts => Sys2Proof.Machine.execInputLoss volts s
  | .moduleResetN => Sys2Proof.Machine.execModuleResetN s
  | .powerShare power => Sys2Proof.Machine.execPowerShare power s
  | .sustainedLimit c easedOf16 amps => Sys2Proof.Machine.execSustainedLimit c easedOf16 amps s
  | .easingRise scope a => Sys2Proof.Machine.execEasingRise scope a s
  | .easingFall scope a => Sys2Proof.Machine.execEasingFall scope a s
  | .marginMonitor c r margin => Sys2Proof.Machine.execMarginMonitor c r margin s
  | .upshiftRamp c => Sys2Proof.Machine.execUpshiftRamp c s
  | .voltageCheck c mv => Sys2Proof.Machine.execVoltageCheck c mv s
  | .frequencyChange c => Sys2Proof.Machine.execFrequencyChange c s
  | .droop c r mvBelow held => Sys2Proof.Machine.execDroop c r mvBelow held s
  | .cellFailed c r cell cause => Sys2Proof.Machine.execCellFailed c r cell cause s
  | .regionLost c r cause => Sys2Proof.Machine.execRegionLost c r cause s
  | .converterFault c rail => Sys2Proof.Machine.execConverterFault c rail s
  | .rampGrant c amps => Sys2Proof.Machine.execRampGrant c amps s
  | .regionOn c r => Sys2Proof.Machine.execRegionOn c r s
  | .rampRelease c r => Sys2Proof.Machine.execRampRelease c r s
  | .rampDenied c r amps => Sys2Proof.Machine.execRampDenied c r amps s
  | .rampWait c r => Sys2Proof.Machine.execRampWait c r s
  | .thermalForecast c readings => Sys2Proof.Machine.execThermalForecast c readings s
  | .sensorCleared c r pair => Sys2Proof.Machine.execSensorCleared c r pair s
  | .thermalTrip c r sensor reading => Sys2Proof.Machine.execThermalTrip c r sensor reading s
  | .coolantPoll first second third => Sys2Proof.Machine.execCoolantPoll first second third s
  | .coolantLoss => Sys2Proof.Machine.execCoolantLoss s
  | .inletHigh => Sys2Proof.Machine.execInletHigh s
  | .thermalPowerOff c r sensor reading => Sys2Proof.Machine.execThermalPowerOff c r sensor reading s
  | .controlUncorrectable c structureNo cluster => Sys2Proof.Machine.execControlUncorrectable c structureNo cluster s
  | .comparatorTrip c comparator die => Sys2Proof.Machine.execComparatorTrip c comparator die s
  | .rootPllLockLoss c => Sys2Proof.Machine.execRootPllLockLoss c s
  | .watchdogExpiry c => Sys2Proof.Machine.execWatchdogExpiry c s
  | .comparatorTest c failed => Sys2Proof.Machine.execComparatorTest c failed s
  | .resetDone c => Sys2Proof.Machine.execResetDone c s
  | .patrolScrub c addr found => Sys2Proof.Machine.execPatrolScrub c addr found s
  | .refclkLost => Sys2Proof.Machine.execRefclkLost s
  | .refclkRestored => Sys2Proof.Machine.execRefclkRestored s
  | .alignTimeout => Sys2Proof.Machine.execAlignTimeout s
  | .powerUp => Sys2Proof.Machine.execPowerUp s
  | .stationMasterReady => Sys2Proof.Machine.execStationMasterReady s
  | .rootLock c => Sys2Proof.Machine.execRootLock c s
  | .gddr7Training c device ok => Sys2Proof.Machine.execGddr7Training c device ok s
  | .regionGroup c group results => Sys2Proof.Machine.execRegionGroup c group results s
  | .channelBooted c failed => Sys2Proof.Machine.execChannelBooted c failed s
  | .bootWait c => Sys2Proof.Machine.execBootWait c s
  | .joulesPerToken => Sys2Proof.Machine.execJoulesPerToken s
  | .lifetimeService => Sys2Proof.Machine.execLifetimeService s
  | .hostCompletion c id data poisoned => Sys2Proof.Machine.execHostCompletion c id data poisoned s
  | .dynamicAddressAssignment addr setdasa => Sys2Proof.Machine.execDynamicAddressAssignment addr setdasa s

end Sys2Proof.Machine
end

