-- ==== Sys2Proof/Machine/Step.lean ====
section
/-! DEFINITION. One step of the machine: the command at the front of the queue, or one count of the departure clock when no
command waits. -/

namespace Sys2Proof.Machine

/-- The machine with the front of its queue taken. -/
def State.rest (s : State) (cs : List Instr) : State := { s with pending := cs }

/-- One step: the command at the front of the queue acts on the machine with the queue's rest; an empty queue lets one count
pass. -/
def step (s : State) : Host.Outcome State Fault Refusal :=
  match s.pending with
  | [] => .next s.tick
  | i :: cs => exec i (s.rest cs)

/-- The table gives no command any bits, so no word spells a command. -/
def State.withFetchWord (s : State) (_nbits _w : Nat) : State := s

end Sys2Proof.Machine
end

