-- ==== Sys2Proof/Safety.lean ====
section
/-! DEFINITION. What a safe run is, and the words the statements use: what a command leaves alone, when a command stands ready, and what
it leaves behind. -/

namespace Sys2Proof.Machine

/-- What only the clock and the queue change: the waiting commands, the departure count and whether it runs (14 R341). -/
def State.clock (s : State) : List Instr × Nat × Bool := (s.pending, s.count, s.counting)

/-- Every channel's memory is in its canonical form. -/
def State.memOk (s : State) : Prop := ∀ c, (s.ch c).mem.wf

/-- The departure count stands at 0 until it is released (14 R341, 18 Table 18-2). -/
def State.countOk (s : State) : Prop := s.counting = false → s.count = 0

/-- A state is safe when its memories are canonical and its count has not run before its release; a step is safe when it answers a next
state. -/
def State.safe (s : State) : Prop := s.memOk ∧ s.countOk

/-! ### What a command leaves alone -/

/-- The channels other than `c`. -/
def State.besides (s : State) (c : Ch) : Ch → Option Chan := fun d => if d = c then none else some (s.ch d)

/-- All of the machine but channel `c`: the clock and the queue, the other channels, the station master, the free values drawn and
the messages sent. -/
def State.elsewhere (s : State) (c : Ch) : (List Instr × Nat × Bool) × (Ch → Option Chan) × Module × Nat × List Out :=
  (s.clock, s.besides c, s.m, s.freeNo, s.out)

/-- The bytes and poison marks of a channel's memory. -/
def Memory.store (m : Memory) : Tab Byte × Tab Nat := (m.bytes, m.marks)

/-- The memory but for its bytes and poison marks. -/
def Memory.rest (m : Memory) : Memory := { m with bytes := [], marks := [] }

/-- The memory but for its bytes, poison marks, depot lines, far-tier accesses, shunter counts and world counts. -/
def Memory.restW (m : Memory) : Memory :=
  { m.rest with lines := [], farOps := [], depotHits := 0, depotMisses := 0, pfUsed := 0, pfLate := 0, pfUnused := 0, pfLead := 0
                raDropped := 0, worldResets := 0, epTerminal := 0, epTruncated := 0, lateEnds := 0, doneNan := 0 }

/-- The post a completed car leaves to be made (06 R158). -/
def postOf (id k : Nat) (car : Car) : List PendPost := if Car.postEn car then [{ id := id, cl := k, sig := Car.postSig car }] else []

/-- The machine once the sequencer of a cluster has read as far as it can (06 R159). -/
def State.ahead (s : State) (w : At) : State := (s.withRead w.ch w.cl.val).1

/-- The channel of a car command once its sequencer has read as far as it can. -/
def State.seen (s : State) (w : At) : Chan := (s.ahead w).ch w.ch

/-- Memory bytes, poison marks and the vector registers of a cluster. -/
def State.data (s : State) (w : At) : (Tab Byte × Tab Nat) × Tab W32 :=
  ((s.ch w.ch).mem.store, (s.cluster w.ch w.cl.val).vregs)

/-- What a car that has run from a queue leaves unchanged: all of the machine but its channel and the free values drawn; of the channel
all but the run, the watch and channel memory's bytes and marks; of the run, all but its clusters, the post now pending, the next car
number and the notes of progress; the other clusters. -/
def State.carDone (s t : State) (w : At) (e : QCar) : Prop :=
  let c := w.ch
  let k := w.cl.val
  let b := (s.ch c).run
  let r := (t.ch c).run
  t.besides c = s.besides c ∧ t.clock = s.clock ∧ t.m = s.m ∧ t.out = s.out ∧
  t.ch c = { s.ch c with run := r, watch := (t.ch c).watch, mem := (t.ch c).mem } ∧
  r = { b with clusters := r.clusters, posts := b.posts ++ postOf b.nextId k e.car, nextId := b.nextId + 1,
               progressAt := s.count, activeAt := s.count, firstIssued := true } ∧
  (∀ j, j ≠ k → r.cluster j = b.cluster j) ∧
  (t.ch c).mem.rest = (s.ch c).mem.rest

/-- The cluster of a car command once its sequencer has read ahead and the head of queue `q` has left it. -/
def State.popped (s : State) (w : At) (q : Nat) : Cluster :=
  let cl := (s.ahead w).cluster w.ch w.cl.val
  cl.setQueue q ((cl.queue q).drop 1)

/-- The channel that a command acts on alone: it reads and writes that channel, and leaves the other three as they are (01 R21, R22). -/
def channelOf : Instr → Option Ch
  | .matmul w _ _ => some w.ch
  | .sum w _ => some w.ch
  | .maxabs w _ => some w.ch
  | .topk w _ => some w.ch
  | .refetchDone w _ => some w.ch
  | .crowsnestCheck c _ => some c
  | .add w => some w.ch
  | .sub w => some w.ch
  | .mul w => some w.ch
  | .fma w => some w.ch
  | .axpby w => some w.ch
  | .min w => some w.ch
  | .max w => some w.ch
  | .abs w => some w.ch
  | .neg w => some w.ch
  | .div w => some w.ch
  | .sqrt w => some w.ch
  | .ldexp w => some w.ch
  | .clamp w => some w.ch
  | .exp w => some w.ch
  | .log w => some w.ch
  | .rsqrt w => some w.ch
  | .tanh w => some w.ch
  | .sigmoid w => some w.ch
  | .gelu w => some w.ch
  | .sin w => some w.ch
  | .cos w => some w.ch
  | .lt w => some w.ch
  | .le w => some w.ch
  | .eq w => some w.ch
  | .ne w => some w.ch
  | .select w => some w.ch
  | .gather w => some w.ch
  | .scatterAdd w => some w.ch
  | .scanSum w => some w.ch
  | .scanXsum w => some w.ch
  | .scanMax w => some w.ch
  | .discRev w => some w.ch
  | .sort w => some w.ch
  | .convert w => some w.ch
  | .scalegen w => some w.ch
  | .raw w => some w.ch
  | .uniform w => some w.ch
  | .normal w => some w.ch
  | .bernoulli w => some w.ch
  | .dropout w => some w.ch
  | .adamw w => some w.ch
  | .lion w => some w.ch
  | .sgdm w => some w.ch
  | .redSum w => some w.ch
  | .redSumsq w => some w.ch
  | .redMax w => some w.ch
  | .redMin w => some w.ch
  | .redMaxabs w => some w.ch
  | .copy w _ _ => some w.ch
  | .compress w _ _ => some w.ch
  | .decompress w _ _ => some w.ch
  | .narrowE4m3 w _ _ => some w.ch
  | .widenE4m3 w _ _ => some w.ch
  | .demandPoint w _ _ => some w.ch
  | .worldEnd w => some w.ch
  | .worldReset w => some w.ch
  | .record w => some w.ch
  | .advance w => some w.ch
  | .send w => some w.ch
  | .atomic w => some w.ch
  | .fence w => some w.ch
  | .signalAdd w => some w.ch
  | .signalWait w => some w.ch
  | .leg w => some w.ch
  | .loop w => some w.ch
  | .endloop w => some w.ch
  | .mark w => some w.ch
  | .nop w => some w.ch
  | .commit w => some w.ch
  | .verdict c _ _ => some c
  | .contributeStart w => some w.ch
  | .contributeAdd w => some w.ch
  | .contributeFinal w => some w.ch
  | .contributeOnly w => some w.ch
  | .deliver w => some w.ch
  | .publish w => some w.ch
  | .await w => some w.ch
  | .post c _ => some c
  | .legBoundary c => some c
  | .signalDeadlock c => some c
  | .signalStall c => some c
  | .ttLoad _ _ _ => none
  | .loadEnd c => some c
  | .start _ _ => none
  | .resume _ _ => none
  | .holdRequest _ _ => none
  | .standby _ _ => none
  | .wake _ _ => none
  | .release _ _ => none
  | .reset _ _ => none
  | .powerOff _ _ => none
  | .powerOn _ _ => none
  | .clearSafe _ => none
  | .begin _ => none
  | .txnCommit _ => none
  | .rollback _ => none
  | .commitCount => none
  | .txnTimeout _ => none
  | .dbStart _ => none
  | .dbResume _ => none
  | .dbHoldRequest _ => none
  | .dbTtLoad _ => none
  | .dbNop _ => none
  | .dbTail c _ => some c
  | .evtConsumed c _ => some c
  | .eventNotify _ => none
  | .chMboxGo _ => none
  | .modMboxGo _ => none
  | .layerState _ _ _ _ => none
  | .attestNonce _ _ _ _ => none
  | .fwPending _ _ _ => none
  | .floorCert _ _ _ => none
  | .ownerKey _ _ _ => none
  | .ownerTransfer _ _ _ => none
  | .tenantSlot _ _ _ => none
  | .configModule _ _ _ => none
  | .configChannel _ _ _ _ => none
  | .depotSize _ _ _ => none
  | .farEnable _ _ _ => none
  | .farTrained c _ => some c
  | .farTierDown c => some c
  | .linkEnable _ _ _ _ => none
  | .linkUp _ _ _ => none
  | .portFailed c _ => some c
  | .powerAllowance _ _ => none
  | .entryWrite _ _ _ _ _ => none
  | .managementDatagram _ _ => none
  | .openSession _ _ _ => none
  | .response _ _ _ => none
  | .setupTimeout _ => none
  | .sessionClosed _ => none
  | .read c _ _ => some c
  | .write c _ _ _ _ => some c
  | .atomicAdd64 c _ _ => some c
  | .atomicUmin64 c _ _ => some c
  | .atomicUmax64 c _ _ => some c
  | .atomicSmin64 c _ _ => some c
  | .atomicSmax64 c _ _ => some c
  | .atomicSwap64 c _ _ => some c
  | .atomicCas64 c _ _ => some c
  | .atomicAdd32 c _ _ => some c
  | .atomicUmin32 c _ _ => some c
  | .atomicUmax32 c _ _ => some c
  | .atomicSmin32 c _ _ => some c
  | .atomicSmax32 c _ _ => some c
  | .atomicSwap32 c _ _ => some c
  | .atomicCas32 c _ _ => some c
  | .roundTimeout c _ _ => some c
  | .readData c _ _ _ _ => some c
  | .writeAck c _ _ => some c
  | .atomicResult c _ _ => some c
  | .mail c _ _ _ _ => some c
  | .mailAck c _ _ => some c
  | .detour c _ _ _ => some c
  | .forward c _ _ _ _ _ _ => some c
  | .hello _ _ _ => none
  | .helloTransmit c _ => some c
  | .ctrl c _ _ => some c
  | .failedWagon c _ _ => some c
  | .portDown c _ _ => some c
  | .creditReturn c _ => some c
  | .mailTimeout c _ => some c
  | .mailRetry c _ => some c
  | .partnerTimeout c _ _ => some c
  | .discardedFrame c _ => some c
  | .neighbourSolicitation _ _ => none
  | .leaf c _ => some c
  | .pair c _ => some c
  | .quad c _ => some c
  | .root c _ => some c
  | .yardCopy c _ => some c
  | .spread c _ => some c
  | .credit c _ => some c
  | .yardCredit c => some c
  | .nodeEvaluation c _ _ _ _ _ => some c
  | .deadline c _ _ _ _ => some c
  | .yardTimeout c => some c
  | .hostRead c _ _ _ => some c
  | .hostWrite _ _ _ => none
  | .recall c _ => some c
  | .flitReplay c => some c
  | .sliceUp c _ => some c
  | .hostLinkDown c => some c
  | .hostTimeout c => some c
  | .shedNAssert => none
  | .shedNRelease => none
  | .inputRange _ => none
  | .inputRangeEnd _ => none
  | .inputLoss _ => none
  | .moduleResetN => none
  | .powerShare _ => none
  | .sustainedLimit c _ _ => some c
  | .easingRise _ _ => none
  | .easingFall _ _ => none
  | .marginMonitor c _ _ => some c
  | .upshiftRamp c => some c
  | .voltageCheck c _ => some c
  | .frequencyChange c => some c
  | .droop c _ _ _ => some c
  | .cellFailed c _ _ _ => some c
  | .regionLost c _ _ => some c
  | .converterFault c _ => some c
  | .rampGrant c _ => some c
  | .regionOn c _ => some c
  | .rampRelease c _ => some c
  | .rampDenied c _ _ => some c
  | .rampWait c _ => some c
  | .thermalForecast c _ => some c
  | .sensorCleared c _ _ => some c
  | .thermalTrip _ _ _ _ => none
  | .coolantPoll _ _ _ => none
  | .coolantLoss => none
  | .inletHigh => none
  | .thermalPowerOff _ _ _ _ => none
  | .controlUncorrectable c _ _ => some c
  | .comparatorTrip c _ _ => some c
  | .rootPllLockLoss c => some c
  | .watchdogExpiry c => some c
  | .comparatorTest c _ => some c
  | .resetDone c => some c
  | .patrolScrub c _ _ => some c
  | .refclkLost => none
  | .refclkRestored => none
  | .alignTimeout => none
  | .powerUp => none
  | .stationMasterReady => none
  | .rootLock c => some c
  | .gddr7Training c _ _ => some c
  | .regionGroup c _ _ => some c
  | .channelBooted _ _ => none
  | .bootWait c => some c
  | .joulesPerToken => none
  | .lifetimeService => none
  | .hostCompletion c _ _ _ => some c
  | .dynamicAddressAssignment _ _ => none

/-! ### Vector cars -/

/-- A vector car `e` with the record `r` stands at the head of its queue and may start: nothing stops reading, the cluster may issue,
the wait is satisfied, no cause has stopped the channel, and neither the record nor (for an optimiser) the optimiser record is
poisoned. -/
def State.vecHead (s : State) (w : At) (e : QCar) (r : VecRec) : Prop :=
  let x := s.seen w
  let k := w.cl.val
  s.readStop w.ch k = none ∧ (s.ahead w).headCar w.ch k 4 = some e ∧ (s.ch w.ch).run.stops = [] ∧
  x.mem.poisonIn (tenderAt k (Car.vset e.car)) 32 = none ∧
  r = vecRecOf (x.mem.nat (tenderAt k (Car.vset e.car)) 32) e.car (x.substOf e) ∧
  (Car.opc e.car = 9 → r.s3r = false → x.mem.poisonIn (tenderAt k (r.s3 * 32)) 64 = none)

/-- A vector car of the operation `opc`, `func` stands ready: it may start, no condition of Table 04-6 makes it invalid, and nothing it
reads is poisoned. -/
def State.vecReady (s : State) (w : At) (opc func : Nat) (e : QCar) (r : VecRec) : Prop :=
  let x := s.seen w
  s.vecHead w e r ∧ vecInvalid x.mem x.run.ticketStep e.car r e x w.cl.val = none ∧ Car.opc e.car = opc ∧ Car.vfunc e.car = func ∧
  x.mem.poisonAmong (vecReads w.cl.val e.car r) = none

/-- What a vector car that has run leaves: it has left its queue, its post is pending, the run has issued and progressed; nothing has
changed but the cluster's vector registers, cycle counts and OOR, channel memory, and the watch's counts. -/
def State.vecDone (s t : State) (w : At) (e : QCar) : Prop :=
  let cl := t.cluster w.ch w.cl.val
  s.carDone t w e ∧ cl = { s.popped w 4 with vregs := cl.vregs, cycles := cl.cycles, oor := cl.oor } ∧
  (t.ch w.ch).watch = { (s.ch w.ch).watch with occs := (t.ch w.ch).watch.occs, totals := (t.ch w.ch).watch.totals }

/-- Every vector command. -/
def vectorCmds : List (At → Instr) :=
  [.add, .sub, .mul, .fma, .axpby, .min, .max, .abs, .neg, .div, .sqrt, .ldexp, .clamp, .exp, .log, .rsqrt, .tanh, .sigmoid, .gelu,
   .sin, .cos, .lt, .le, .eq, .ne, .select, .convert, .gather, .scatterAdd, .scanSum, .scanXsum, .scanMax, .discRev, .sort, .scalegen,
   .raw, .uniform, .normal, .bernoulli, .dropout, .adamw, .lion, .sgdm, .redSum, .redSumsq, .redMax, .redMin, .redMaxabs]

/-- Source operand `o`, element `e`, of a vector car, as the operation sees it (04 R97 step 1). -/
def Chan.vecSrc (x : Chan) (k : Nat) (car : Car) (r : VecRec) (o e : Nat) : W32 :=
  vecElem x.mem (x.run.vreg k) k car r o (vecN car r) e

/-- What storing the results `ws` of a car in D leaves of memory and of the vector registers (04 R97 step 3). -/
def State.stored (s : State) (w : At) (e : QCar) (r : VecRec) (ws : List W32) : (Tab Byte × Tab Nat) × Tab W32 :=
  ((s.ahead w).vecStore w.ch w.cl.val e.car r ws).1.data w

/-- The element-wise operations: the command, OPC, FUNC and the FP32 value each element receives from the record and s1, s2, s3
(04 Table 04-3). -/
def elementwiseRows : List ((At → Instr) × Nat × Nat × (VecRec → W32 → W32 → W32 → W32)) :=
  [(.add, 1, 0, fun _ a b _ => add32 a b), (.sub, 1, 1, fun _ a b _ => sub32 a b), (.mul, 1, 2, fun _ a b _ => mul32 a b),
   (.fma, 1, 3, fun _ a b d => fma32 a b d), (.axpby, 1, 4, fun r a b _ => fma32 r.a a (mul32 r.b b)),
   (.min, 1, 5, fun _ a b _ => min32 a b), (.max, 1, 6, fun _ a b _ => max32 a b), (.abs, 1, 7, fun _ a _ _ => abs32 a),
   (.neg, 1, 8, fun _ a _ _ => neg32 a), (.div, 1, 9, fun _ a b _ => div32 a b), (.sqrt, 1, 10, fun _ a _ _ => sqrt32 a),
   (.ldexp, 1, 11, fun r a _ _ => ldexp32 a ((ldexpA r).getD 0)), (.clamp, 1, 12, fun r a _ _ => min32 (max32 a r.a) r.b),
   (.exp, 2, 0, fun _ a _ _ => exp32 a), (.log, 2, 1, fun _ a _ _ => log32 a), (.rsqrt, 2, 2, fun _ a _ _ => rsqrt32 a),
   (.tanh, 2, 3, fun _ a _ _ => tanh32 a), (.sigmoid, 2, 4, fun _ a _ _ => sigmoid32 a), (.gelu, 2, 5, fun _ a _ _ => gelu32 a),
   (.sin, 2, 6, fun _ a _ _ => sin32 a), (.cos, 2, 7, fun _ a _ _ => cos32 a),
   (.lt, 3, 0, fun _ a b _ => if lt32 a b then one32 else 0), (.le, 3, 1, fun _ a b _ => if le32 a b then one32 else 0),
   (.eq, 3, 2, fun _ a b _ => if eq32 a b then one32 else 0), (.ne, 3, 3, fun _ a b _ => if eq32 a b then 0 else one32),
   (.select, 3, 4, fun _ a b d => if !isZero32 d && !isNan32 d then a else b), (.convert, 7, 0, fun _ a _ _ => a)]

/-- The ticket fills that narrow their results: the command, FUNC and the FP32 value an element receives from the record, its ticket and
s1 (04 R111). -/
def fillRows : List ((At → Instr) × Nat × (VecRec → Ticket → W32 → W32)) :=
  [(.uniform, 1, fun _ t _ => uniform32 t.x0), (.normal, 2, fun _ t _ => normal32 t),
   (.bernoulli, 3, fun r t _ => if r.thr ≤ t.x0.toNat % 2 ^ 16 then one32 else 0),
   (.dropout, 4, fun r t v => if r.thr ≤ t.x0.toNat % 2 ^ 16 then mul32 v r.a else 0)]

/-- The ticket of element `e`: its key from the run seed and the leg (KEY_LEG under KL_EN), the ticket step, the stream of the layer or of
S2, and the position (04 R110, R111). -/
def Chan.elemTicket (x : Chan) (k : Nat) (car : Car) (r : VecRec) (e : Nat) : Ticket :=
  ticket (ticketKey (match x.run.image with | some i => i.seed | none => 0) (if r.raw.testBit 168 then bits r.raw 174 169 else x.run.leg))
    (BitVec.ofNat 32 (if r.streamSrc then (x.vecSrc k car r 2 e).toNat else r.stream * 2 ^ 12 + r.layer)) x.run.ticketStep
    (BitVec.ofNat 64 (r.seedPos * 2 ^ 40 + (r.elemBase + e)))

/-- The carry a forward scan takes into step `i`, after its mark: +0, or −infinity for SCAN_MAX, at a marked element (04 R101). -/
def scanStart (kind : Nat) (c0 : W32) (v : Nat → W32) (mark : Nat → Bool) : Nat → W32
  | 0 => if mark 0 then (if kind = 2 then 0xff800000 else 0) else c0
  | i + 1 =>
    if mark (i + 1) then (if kind = 2 then 0xff800000 else 0)
    else
      let c := scanStart kind c0 v mark i
      if kind = 2 then max32 c (v i) else add32 c (v i)

/-- What a forward scan stores at step `i`: kind 0 SUM, 1 XSUM, 2 MAX (04 R101). -/
def scanOut (kind : Nat) (c0 : W32) (v : Nat → W32) (mark : Nat → Bool) (i : Nat) : W32 :=
  let c := scanStart kind c0 v mark i
  if kind = 0 then add32 c (v i) else if kind = 1 then c else max32 c (v i)

/-- The value of the reverse discounted sum `j` steps before the last of `n` steps (04 R101). -/
def discOut (a c0 : W32) (v : Nat → W32) (mark : Nat → Bool) (n : Nat) : Nat → W32
  | 0 => if mark (n - 1) then v (n - 1) else fma32 a c0 (v (n - 1))
  | j + 1 =>
    if mark (n - 1 - (j + 1)) then v (n - 1 - (j + 1)) else fma32 a (discOut a c0 v mark n j) (v (n - 1 - (j + 1)))

/-- The lane tree of a reduction: level `n + 1` combines results 2i and 2i + 1 of level `n` (04 R100). -/
def treeAt (f : W32 → W32 → W32) (p : Nat → W32) : Nat → Nat → W32
  | 0, i => p i
  | n + 1, i => f (treeAt f p n (2 * i)) (treeAt f p n (2 * i + 1))

/-- The partial value of a lane: its elements in rising order from a start, or from its first element (04 R100). -/
def laneValue (step : W32 → W32 → W32) (start : Option W32) (v : Nat → W32) (n : Nat) : W32 :=
  match start with
  | some z => ((List.range n).map v).foldl step z
  | none => (((List.range n).map v).drop 1).foldl step (v 0)

/-- The reductions: the command, FUNC, the step of a lane, the tree's step, the start, and what an element enters as (04 R100). -/
def reduceRows : List ((At → Instr) × Nat × (W32 → W32 → W32) × (W32 → W32 → W32) × Option W32 × (W32 → W32)) :=
  [(.redSum, 0, add32, add32, some 0, id), (.redSumsq, 1, fun acc v => fma32 v v acc, add32, some 0, id),
   (.redMax, 2, max32, max32, none, canon32), (.redMin, 3, min32, min32, none, canon32), (.redMaxabs, 4, max32, max32, none, abs32)]

/-! ### Tile cars -/

/-- A tile car `e` of operation `op` with the record `r` and the included blocks `blocks` stands ready on an engine: nothing stops
reading, the cluster may issue, the wait is satisfied, no cause has stopped the channel, no refetch is in progress on the engine, no
condition of Table 03-7 makes the car invalid, and nothing it reads in this pass is poisoned or found damaged: under speculation it
reads the blocks that are true in the map's prediction half. -/
def State.tileReady (s : State) (w : At) (eng op : Nat) (faults : List MemFault) (e : QCar) (r : TileRec) (blocks : List Nat) : Prop :=
  let x := s.seen w
  let k := w.cl.val
  let ch := (x.run.cluster k).chain? eng
  let reads := tileReads k e.car r (if speculates x e.car r then blocks.filter (fun b => mapBit x.mem (tenderAt k r.nzAddr) b) else blocks)
  s.readStop w.ch k = none ∧ (s.ahead w).headCar w.ch k eng = some e ∧ (s.ch w.ch).run.stops = [] ∧
  Tab.get none (x.run.cluster k).refetch eng = none ∧
  r = tileRecOf (x.mem.nat (tenderAt k (Car.setAddr e.car)) 32) (Car.op e.car) (x.substOf e) ∧
  tileInvalid e.car r ch e x k = none ∧ Car.op e.car = op ∧
  blocks = includedBlocks x.mem k r (blocksBefore ch e.car) (Car.kBlocks e.car) ∧
  x.mem.poisonAmong reads = none ∧
  ∀ f ∈ faults, ∀ q ∈ reads, overlaps q.1 q.2 (f.addr / 256 * 256) 256 = false

/-- What a tile car that has run leaves: it has left its engine's queue, its post is pending; nothing has changed but the chains, cycle
counts and prediction count of its cluster, channel memory, and the watch's counts and checks. -/
def State.tileDone (s t : State) (w : At) (eng : Nat) (e : QCar) : Prop :=
  let cl := t.cluster w.ch w.cl.val
  let v := (t.ch w.ch).watch
  s.carDone t w e ∧ cl = { s.popped w eng with chains := cl.chains, cycles := cl.cycles, zsPred := cl.zsPred } ∧
  (∀ j, j ≠ Car.eng e.car → cl.chain? j = ((s.ahead w).cluster w.ch w.cl.val).chain? j) ∧
  v = { (s.ch w.ch).watch with occs := v.occs, totals := v.totals, checks := v.checks, skips := v.skips }

/-- The chain a matrix product adds to: its engine's, or a fresh one at a car that starts an accumulation (03 R69, R71). -/
def Chan.chainFor (x : Chan) (k : Nat) (e : QCar) (r : TileRec) (outs : List (Nat × Nat)) : Chain :=
  if Car.starts e.car then freshChain x.mem k e.car r outs
  else ((x.run.cluster k).chain? (Car.eng e.car)).getD (freshChain x.mem k e.car r outs)

/-- The exit of a finished matrix product: the output bytes, the values stored, and the counts (03 R73 to R75). -/
def Chan.tileOut (x : Chan) (k : Nat) (e : QCar) (r : TileRec) (ch : Chain) : Exit :=
  exitTile (x.draw x.run.leg) r (activeOuts r e.car) (x.gradShift r.layer r.grad)
    (tensorScale x.mem k (Car.cAddr e.car) r.tso) (fun i j => Tab.get 0 ch.acc (i * 32 + j))
    (x.mem.read (tenderAt k (Car.cAddr e.car)) (tileBlockOf r.go))

/-! ### Shunt cars -/

/-- A MOVE `e` with the descriptor `d` stands ready at the head of the shunter's queue: nothing stops reading, the cluster may issue, the
common wait is satisfied, no cause has stopped the channel, no rule makes the car invalid, its descriptor is not poisoned, fewer than
eight moves are active and its staging area clashes with none of theirs. -/
def State.moveReady (s : State) (w : At) (e : QCar) (d : Nat) : Prop :=
  let x := s.seen w
  let k := w.cl.val
  let cl := x.run.cluster k
  s.readStop w.ch k = none ∧ (s.ahead w).headCar w.ch k 5 = some e ∧ (s.ch w.ch).run.stops = [] ∧
  shuntInvalid e = none ∧ Car.func e.car = 0 ∧ moveIndex e < x.descTable.2 ∧
  x.mem.poisonIn (x.descTable.1 + 64 * moveIndex e) 64 = none ∧ d = x.mem.nat (x.descTable.1 + 64 * moveIndex e) 64 ∧
  moveInvalid x k e d = none ∧ cl.moves.length < 8 ∧ cl.moves.any (fun m => stagesClash m.desc d) = false

/-- The move that a MOVE car becomes. -/
def State.newMove (s : State) (w : At) (e : QCar) (d : Nat) : Move :=
  { q := e, id := (s.ch w.ch).run.nextId, desc := d, blocks := (s.seen w).moveBlocks w.cl.val d, staged := [], started := false
    demandAt := 0 }

/-- The machine once a MOVE car has left its queue and become active. -/
def State.activated (s : State) (w : At) (e : QCar) (d : Nat) : State :=
  ((s.ahead w).onRun w.ch (fun r => { r with nextId := r.nextId + 1, activeAt := s.count, firstIssued := true })).onCluster w.ch w.cl.val
    (fun _ => { s.popped w 5 with moves := (s.popped w 5).moves ++ [s.newMove w e d] })

/-- Everything the move `m` needs is at hand in the state `a`: no byte it reads or writes is unmapped, nothing is still to be fetched, no
granule it consumes or carries is poisoned, and every destination is the channel's own memory. -/
def State.moveAtHand (a : State) (w : At) (m : Move) : Prop :=
  a.moveFault w.ch m = none ∧ a.moveNeeds w.ch m = [] ∧
  a.moveEats w.ch m ((a.moveUnits w.ch m).1.map (·.1)) = none ∧
  ∀ u ∈ (a.moveUnits w.ch m).1, ownMemory u.1.dst = true ∧ (dMode m.desc = 0 → a.badUnits w.ch m.staged u.1.src u.1.srcN = [])

/-- The memory once a move has written every one of its destination ranges, in order (08 R210, R211). -/
def State.moved (a : State) (w : At) (m : Move) : Memory :=
  (a.moveUnits w.ch m).1.foldl (fun mem u => mem.write u.1.dst u.2) (a.ch w.ch).mem

/-- A doorbell write stands ready: the move `m`, active in the state `a`, writes the doorbell `kind` with its destination wait satisfied;
either it was active already, or it is the car at the head of the shunter's queue. Its 32 bytes `bs` are at hand and not poisoned. -/
def State.ringReady (s : State) (w : At) (kind : Nat) (m : Move) (a : State) (bs : List Byte) : Prop :=
  let x := s.ch w.ch
  let k := w.cl.val
  let rings := fun (m : Move) => doorbellOf (dDst m.desc) == some kind && x.waitMet k m.q.dst
  x.ctl.st = .running ∧ (x.sup.region (regionOf k)).st = .on ∧ x.run.stops = [] ∧
  ((((x.run.cluster k).moves.find? rings) = some m ∧ a = s) ∨
   (((x.run.cluster k).moves.find? rings) = none ∧ ∃ e d, s.moveReady w e d ∧ doorbellOf (dDst d) = some kind ∧
      x.waitMet k e.dst = true ∧ (∀ n ∈ (s.ahead w).cluster w.ch k |>.moves, n.id ≠ (s.ch w.ch).run.nextId) ∧
      m = s.newMove w e d ∧ a = s.activated w e d)) ∧
  a.moveFault w.ch m = none ∧ a.moveNeeds w.ch m = [] ∧ a.srcPoisonIn w.ch m.staged (dSrc m.desc) 32 = none ∧
  bs = a.srcBytes w.ch m.staged (dSrc m.desc) 32

/-- What a doorbell write leaves of the machine `a` in which its move was active: the move has left the shunter and its post is pending;
channel memory, the vector registers, the other channels, the clock and the station master are as they were before, in `s`. -/
def State.rung (s t a : State) (w : At) (m : Move) : Prop :=
  let c := w.ch
  let k := w.cl.val
  let cl := t.cluster c k
  t.besides c = s.besides c ∧ t.clock = s.clock ∧ t.m = s.m ∧ t.data w = s.data w ∧ (t.ch c).mem.restW = (s.ch c).mem.restW ∧
  cl = { a.cluster c k with moves := (a.cluster c k).moves.filter (fun n => n.id != m.id), lastNz := cl.lastNz } ∧
  (t.ch c).run = { (a.ch c).run with clusters := (t.ch c).run.clusters, posts := (s.ch c).run.posts ++ postOf m.id k m.q.car
                                     progressAt := s.count, activeAt := s.count } ∧
  (∀ j, j ≠ k → (t.ch c).run.cluster j = (s.ch c).run.cluster j) ∧
  t.ch c = { s.ch c with run := (t.ch c).run, hub := (t.ch c).hub, mem := (t.ch c).mem, host := (t.ch c).host } ∧
  ((s.ch c).mem.depotSize = 0 → (t.ch c).host = (s.ch c).host)

/-! ### World operations -/

/-- A world operation `op` with the record `v` and the ring record `ring` stands ready at the head of the shunter's queue (07 R176,
R177). -/
def State.worldReady (s : State) (w : At) (op : Nat) (e : QCar) (i : Image) (v ring : Nat) : Prop :=
  let x := s.seen w
  let k := w.cl.val
  let a := tenderAt k (Car.get e.car 70 55 * 32)
  let uses := i.hasWorld && woOp v != 2 && decide (woRing v < i.rings)
  s.readStop w.ch k = none ∧ (s.ahead w).headCar w.ch k 5 = some e ∧ (s.ch w.ch).run.stops = [] ∧
  shuntInvalid e = none ∧ Car.func e.car = 1 ∧ x.run.image = some i ∧ v = x.mem.nat a 32 ∧
  ring = (if uses then x.mem.nat (i.ringAt (woRing v)) 32 else 0) ∧
  x.mem.poisonAmong ((a, 32) :: (if uses then [(i.ringAt (woRing v), 32)] else [])) = none ∧
  spanOk e x k none = true ∧ (s.ahead w).worldInvalid w.ch i v ring = none ∧ woOp v = op

/-- As `carDone`, but that the shunter counts and the world counts of the memory may have changed; and where the channel has a depot
cache, its lines and counts, the depot's write-backs to the host among them. -/
def State.ran (s t : State) (w : At) (e : QCar) : Prop :=
  let c := w.ch
  let b := (s.ch c).run
  let r := (t.ch c).run
  t.besides c = s.besides c ∧ t.clock = s.clock ∧ t.m = s.m ∧
  ((s.ch c).mem.depotSize = 0 → t.out = s.out ∧ (t.ch c).host = (s.ch c).host) ∧
  t.ch c = { s.ch c with run := r, watch := (t.ch c).watch, mem := (t.ch c).mem, host := (t.ch c).host } ∧
  r = { b with clusters := r.clusters, posts := b.posts ++ postOf b.nextId w.cl.val e.car, nextId := b.nextId + 1,
               progressAt := s.count, activeAt := s.count, firstIssued := true } ∧
  (∀ j, j ≠ w.cl.val → r.cluster j = b.cluster j) ∧ (t.ch c).mem.restW = (s.ch c).mem.restW

/-- What a world operation that has run leaves beside memory: it has left the shunter's queue and its post is pending. -/
def State.worldRun (s t : State) (w : At) (e : QCar) : Prop :=
  s.ran t w e ∧ t.cluster w.ch w.cl.val = s.popped w 5 ∧ (t.ch w.ch).watch = (s.ch w.ch).watch

/-! ### The read point -/

/-- The read point of a consist stands at `car`: nothing ends reading before it, the cluster may go on, and no cause has stopped the
channel (06 R159). -/
def State.pointAt (s : State) (w : At) (car : Car) : Prop :=
  s.readStop w.ch w.cl.val = none ∧ (s.withRead w.ch w.cl.val).2 = .at car ∧ (s.ch w.ch).clusterOn w.cl.val = true ∧
  (s.ch w.ch).run.stops = []

/-- The cluster as read, with the wait target of the car at its read point raised, and the target formed (06 R156). -/
def State.waits (s : State) (w : At) (car : Car) : Cluster × Option (Nat × W16) :=
  ((s.ahead w).cluster w.ch w.cl.val).raise (Car.waitSig car) (Car.waitStep car)

/-- The car at the read point may be handled: its common wait is satisfied. -/
def State.carReady (s : State) (w : At) (car : Car) : Prop :=
  s.pointAt w car ∧ (s.seen w).waitMet w.cl.val (s.waits w car).2 = true

/-- Nothing of the machine but the channel has changed, and of the channel nothing but the run; of the run, no other cluster. -/
def State.onlyRun (s t : State) (w : At) : Prop :=
  t.elsewhere w.ch = s.elsewhere w.ch ∧ t.ch w.ch = { s.ch w.ch with run := (t.ch w.ch).run } ∧
  ∀ j, j ≠ w.cl.val → (t.ch w.ch).run.cluster j = (s.ch w.ch).run.cluster j

/-- What a completed car at the read point changes of the run beside its cluster and the signals: the post that is pending, the car
number and the notes of progress. -/
def State.runDone (s t : State) (w : At) (car : Car) : Prop :=
  let b := (s.ch w.ch).run
  let r := (t.ch w.ch).run
  r = { b with clusters := r.clusters, sigs := r.sigs, posts := b.posts ++ postOf b.nextId w.cl.val car, nextId := b.nextId + 1,
               progressAt := s.count, activeAt := s.count, firstIssued := true }

/-- As `runDone`, where the car has started messages of the yard first, each under a car number of its own. -/
def State.runDoneLater (s t : State) (w : At) (car : Car) : Prop :=
  let b := (s.ch w.ch).run
  let r := (t.ch w.ch).run
  ∃ n, b.nextId ≤ n ∧
    r = { b with clusters := r.clusters, sigs := r.sigs, posts := b.posts ++ postOf n w.cl.val car, nextId := n + 1
                 progressAt := s.count, activeAt := s.count, firstIssued := true }

/-- What a control car changes of the run beside its cluster: the note of activity. -/
def State.runPassed (s t : State) (w : At) (first : Bool) : Prop :=
  let b := (s.ch w.ch).run
  let r := (t.ch w.ch).run
  r = { b with clusters := r.clusters, activeAt := s.count, firstIssued := b.firstIssued || first }

/-- The first cause that has stopped the channel, or for which it holds, is `code`. -/
def Chan.stoppedFor (x : Chan) (code : Nat) : Prop :=
  (x.ctl.st = .running ∧ x.run.stops.map (·.cause) = [code]) ∨ (x.ctl.st = .hold ∧ x.run.holdStatus = code)

/-- The channel's log has taken one new entry, with the code and the count of the moment (16 R371, R372). -/
def State.logged (s t : State) (c : Ch) (code : Nat) : Prop :=
  (t.ch c).ctl.logNext = ((s.ch c).ctl.logNext + 1) % 2 ^ 32 ∧
  ∃ e, (t.ch c).ctl.log = lastN 4096 (logPlace e (s.ch c).ctl.log) ∧ e.code = code ∧ e.count = s.count

/-- The READ_POINT entry of a cluster: its number, the consist offset of its read point and the signal it waits on (06 R160, 16 R373). -/
def readPointEntry (x : Chan) (now k : Nat) : LogEntry :=
  { count := now, source := 0x0200 + k, code := 0x0602, order := 0x0200 + k
    param := paramBytes [(2, k), (4, (x.readAhead k).1.pos), (2, x.waitedSignal k)] }

/-! ### The yard -/

/-- A yard car of FUNC and AMODE stands ready at the read point: its wait is satisfied, it is valid, and the yard holds fewer than 64
cars (10 R255, R257). -/
def State.yardReady (s : State) (w : At) (func amode : Nat) (car : Car) (i : Image) : Prop :=
  s.carReady w car ∧ Car.cls car = 5 ∧ (s.ch w.ch).run.image = some i ∧
  yardInvalid i ((s.ahead w).cluster w.ch w.cl.val) car = none ∧ Car.func car = func ∧ Car.amode car = amode ∧
  (s.ch w.ch).yard.cars.length < 64

/-- The read point has passed the car. -/
def State.pastCar (s t : State) (w : At) (car : Car) : Prop :=
  let cl := (s.waits w car).1
  t.cluster w.ch w.cl.val = { cl with pos := cl.pos + 1, inst := cl.inst + 1 }

/-- The car number the yard gives a car that it holds. -/
def State.heldCar (s : State) (w : At) (car : Car) : YardCar :=
  { id := (s.ch w.ch).run.nextId, cl := w.cl.val, func := Car.func car, seg := Car.segNo car
    post := if Car.postEn car then some (Car.postSig car) else none }

/-- Channel memory may have been written through the depot: where the channel has one, its lines, its counts and the write-backs to the
host may have changed too. -/
def State.depotOnly (s t : State) (c : Ch) : Prop :=
  (t.ch c).mem.restW = (s.ch c).mem.restW ∧ ((s.ch c).mem.depotSize = 0 → t.out = s.out ∧ (t.ch c).host = (s.ch c).host)

/-- A data message of a kind has come whole and unpoisoned against the credit `q` to a yard that works (10 R260, R261). -/
def State.yardComes (s : State) (c : Ch) (kind : Nat) (m : YardMsg) (i : Image) (q : YardCredit) : Prop :=
  let x := s.ch c
  x.serves = true ∧ x.run.image = some i ∧ i.hasYard = true ∧ m.queue = i.yq ∧ x.yard.dropped.find? (fun q => q.isFor kind m) = none ∧
  x.yard.issued.find? (fun q => q.isFor kind m) = some q ∧ m.poisoned = false ∧ x.run.stops = []

/-- What taking a data message leaves beside what it does with the data: its credit is used; the run but for the note of activity and the
numbers of messages sent on, the watch, the other channels, the station master and the clock are as they were. -/
def State.yardTaken (s t : State) (c : Ch) (q : YardCredit) : Prop :=
  let x := s.ch c
  t.besides c = s.besides c ∧ t.clock = s.clock ∧ t.m = s.m ∧ (t.ch c).run = { x.run with activeAt := s.count, nextId := (t.ch c).run.nextId } ∧
  (t.ch c).watch = x.watch ∧ (t.ch c).ctl = x.ctl ∧ (t.ch c).yard.issued = x.yard.issued.erase q

/-! ### Writes of entries -/

/-- A write of an entry is heard and passes every check, and no transaction of the requester is open (12 R288 to R293, R306, R307). -/
def State.granted (s : State) (via : Via) (index sub offset : Nat) (value : List Byte) : Prop :=
  s.hears via = true ∧ (s.check via (writeReq index sub offset value)).1 = 0 ∧
  ∀ t, s.m.txn? via = some t → t.tstate ≠ 1

/-- A write of an entry is heard and stands next to be carried out, but for the state of what it acts on: its form is right and its sender
may write the entry (12 R288 to R293). -/
def State.admitted (s : State) (via : Via) (index sub : Nat) (value : List Byte) : Prop :=
  s.hears via = true ∧ s.keeperBusy via index = false ∧ s.roleOf via ≠ 0 ∧ (∀ t, s.m.txn? via = some t → t.tstate ≠ 1) ∧
  ∃ e, entry? index sub = some e ∧ s.mayWrite via index e = true ∧ e.acc = .wo ∧ e.cmd = true ∧ e.formStatus s 0 value = 0

/-- A command is carried out and answered with ST_OK: `u` is the machine before the answer is sent. -/
def State.answered (s : State) (via : Via) (i : Instr) (u : State) : Prop := exec i s = .next (u.send (.answer via 0 []))

/-- Nothing has changed but the channel `c`: the other channels, the station master and the clock are as they were. -/
def State.onlyCh (s t : State) (c : Ch) : Prop := t.besides c = s.besides c ∧ t.m = s.m ∧ t.clock = s.clock

/-- The module log has taken one new entry, with the code and the count of the moment (16 R372). -/
def State.loggedM (s t : State) (code : Nat) : Prop :=
  ∃ e, t.m.log = lastN 1024 (logPlace e s.m.log) ∧ e.code = code ∧ e.count = s.count

/-- A command was turned away with a status: the answer says so, and the clock and every channel's memory and run are as they were. -/
def State.turnedAway (s : State) (via : Via) (i : Instr) (status : Nat) (keeps : State → Prop) : Prop :=
  ∃ t, exec i s = .next t ∧ t.out = s.out ++ [.answer via status []] ∧ t.clock = s.clock ∧
    (∀ c, (t.ch c).mem = (s.ch c).mem ∧ (t.ch c).run = (s.ch c).run) ∧ keeps t

/-! ### The junction -/

/-- A train may arrive on a port: the channel serves its ports, and the port is up in junction mode (09 R224). -/
def State.portOpen (s : State) (c : Ch) (p : Pt) : Prop :=
  (s.ch c).serves = true ∧ (s.ch c).hub.ports[p].linkState = 2 ∧ (s.ch c).hub.ports[p].mode = 0

/-- Operations of a pair are applied as they come: nothing waits behind a round, and no round holds an atomic of the pair (09 R237). -/
def Hub.flowing (h : Hub) (rank port : Nat) : Prop := (∀ e ∈ h.peers, e.behind = []) ∧ ∀ r ∈ h.rounds, r.holds rank port = false

/-- A train that carries a DETOUR to this rank arrives on a port: the channel serves its ports, and the port is up in either mode (09 R239,
R245). -/
def State.detourOpen (s : State) (c : Ch) (q : Pt) (g : MailHead) : Prop :=
  g.dstRank = (s.ch c).rank ∧ (s.ch c).serves = true ∧ (s.ch c).hub.ports[q].linkState = 2

/-- The members of a round in the order in which they are applied (09 R237). -/
def Round.inOrder (l : List Held) : List Held := l.foldl (fun m x => Held.insert x m) []

/-- The value that the members of a round leave, applied in order to an old one: `f` is what one atomic of `n` bytes stores. -/
def Round.outcome (f : Nat → Nat → Nat → Option Nat) (n : Nat) (l : List Held) (old : Nat) : Nat :=
  (Round.inOrder l).foldl (fun o x => (f o (x.head.a % 2 ^ (8 * n)) (x.head.b % 2 ^ (8 * n))).getD o) old

/-- The `n` bytes at `a` hold a value, and the memory is as it was everywhere else. -/
def Memory.tookValue (m m' : Memory) (a n v : Nat) : Prop := m'.nat a n = v ∧ ∀ b, b < a ∨ a + n ≤ b → m'.byte b = m.byte b

/-- The memory holds the bytes `bs` at `a` and is as it was everywhere else. -/
def Memory.tookBytes (m m' : Memory) (a : Nat) (bs : List Byte) : Prop :=
  (∀ i, i < bs.length → m'.byte (a + i) = bs.getD i 0) ∧ ∀ b, b < a ∨ a + bs.length ≤ b → m'.byte b = m.byte b

/-- The atomic commands: the command, OP, and the value stored from the old value, A and B, none where nothing is stored (09 R233). -/
def atomicRows : List ((Ch → Pt → AtomHead → Instr) × Nat × Nat × (Nat → Nat → Nat → Option Nat)) :=
  let smin := fun (w old a : Nat) => if signedOf w old ≤ signedOf w a then old else a
  let smax := fun (w old a : Nat) => if signedOf w old ≤ signedOf w a then a else old
  [(.atomicAdd64, 0x10, 8, fun o a _ => some ((o + a) % 2 ^ 64)), (.atomicUmin64, 0x11, 8, fun o a _ => some (min o a)),
   (.atomicUmax64, 0x12, 8, fun o a _ => some (max o a)), (.atomicSmin64, 0x13, 8, fun o a _ => some (smin 64 o a)),
   (.atomicSmax64, 0x14, 8, fun o a _ => some (smax 64 o a)), (.atomicSwap64, 0x15, 8, fun _ a _ => some a),
   (.atomicCas64, 0x16, 8, fun o a b => if o = a then some b else none),
   (.atomicAdd32, 0x18, 4, fun o a _ => some ((o + a) % 2 ^ 32)), (.atomicUmin32, 0x19, 4, fun o a _ => some (min o a)),
   (.atomicUmax32, 0x1a, 4, fun o a _ => some (max o a)), (.atomicSmin32, 0x1b, 4, fun o a _ => some (smin 32 o a)),
   (.atomicSmax32, 0x1c, 4, fun o a _ => some (smax 32 o a)), (.atomicSwap32, 0x1d, 4, fun _ a _ => some a),
   (.atomicCas32, 0x1e, 4, fun o a b => if o = a then some b else none)]

/-! ### Reefing -/

/-- Nothing has changed but the supplies of the channels and the station master: the clock, what was sent, the free values drawn and the
rest of every channel are as they were. -/
def State.onlySup (s t : State) : Prop :=
  t.clock = s.clock ∧ t.out = s.out ∧ t.freeNo = s.freeNo ∧ ∀ c, t.ch c = { s.ch c with sup := (t.ch c).sup }

/-- The channel has decided its reef step: `u` is its supply before the decision, `t` the machine after it. REEF_CAUSE names the sources
that set the present step, and where no change was pending, none is pending when the sources require the present step; a slower one is
announced for the first multiple of 1,024 counts at least 4,096 counts away; a faster one, one step up, for that same count, unless it
is less than 1 ms after the last upward change: then none is pending (13 R315, 14 R337). -/
def State.decided (t : State) (c : Ch) (u : Supply) : Prop :=
  let n := t.required c
  let g := (t.ch c).sup.change
  let d := (t.count + 4096 + 1023) / 1024 * 1024
  (t.ch c).sup.cause = t.reefCause c ∧
  (u.change = none →
    (n = u.step → g = none) ∧
    (u.step < n → g = some { due := d, target := n, up := false, raised := false, after := none }) ∧
    (n < u.step → g = if u.lastUp = 0 ∨ u.lastUp + 118750 ≤ d
      then some { due := d, target := u.step - 1, up := true, raised := false, after := none } else none))

/-- The supply but for what deciding a reef step changes: the pending change, REEF_CAUSE and the voltages of the regions. -/
def Supply.steady (u : Supply) : Supply :=
  { u with change := none, cause := 0, regions := u.regions.map (fun r => { r with mv := 0 }) }

/-- A region but for its voltage. -/
def Region.steady (r : Region) : Region := { r with mv := 0 }

/-- The channel holds for a cause from which it cannot be resumed. -/
def Chan.heldFor (x : Chan) (code : Nat) : Prop := x.ctl.st = .hold ∧ x.run.holdStatus = code ∧ x.run.resumable = false

/-- Every byte outside the tenders is as it was. -/
def Memory.keptOutside (m m0 : Memory) : Prop :=
  ∀ a, a < tenderBase ∨ tenderBase + 384 * tenderBytes ≤ a → m.byte a = m0.byte a

/-- The module has entered SAFE: every region of every channel that is not OFF is off, unless it is lost, no frequency change is pending
there and its GDDR7 is in self refresh; a RUNNING or HOLD channel holds with SAFE_STOP; memory is kept, but that a tile car that has
started on a RUNNING channel leaves its output granules partly written, in a tender (15 R355, 03 R76). -/
def State.safeNow (s t : State) (cause : Nat) : Prop :=
  t.clock = s.clock ∧ t.m.st = .safe ∧ t.m.safeCause = cause ∧ t.m.safeAt = s.count ∧
  ∀ c, ((s.ch c).ctl.st ≠ .running → (t.ch c).mem.store = (s.ch c).mem.store) ∧ (t.ch c).mem.keptOutside (s.ch c).mem ∧
    ((s.ch c).ctl.st ≠ .off →
      (∀ r : Rg, ((t.ch c).sup.regions[r]).st = if ((s.ch c).sup.regions[r]).st = .lost then RegionSt.lost else .off) ∧
      (t.ch c).sup.change = none ∧ (t.ch c).sup.refresh = true ∧
      if (s.ch c).ctl.st = .running ∨ (s.ch c).ctl.st = .hold then (t.ch c).heldFor 0x114 else (t.ch c).ctl.st = (s.ch c).ctl.st)

/-- A channel whose rails have gone off: it is OFF, has no image and no link, every region that is not lost is off, and its memory below
the far tier is lost, with what the depot held (18 R405, Table 18-5). -/
def Chan.darkOff (x y : Chan) : Prop :=
  y.ctl.st = .off ∧ y.run.image = none ∧ y.host.link = 0 ∧
  (∀ r : Rg, (y.sup.regions[r]).st = if (x.sup.regions[r]).st = .lost then RegionSt.lost else .off) ∧
  (x.mem.wf → (∀ a, a < farBase → y.mem.byte a = Memory.unwritten) ∧ ∀ a, farBase ≤ a → y.mem.byte a = x.mem.discardDepot.byte a)

/-- A channel whose containment reset has begun with a cause: in BOOT, with no image and no run, its counter of resets one higher, its
region memory and tenders cleared, and its board and far memory as they were, but for what the depot held (16 R367, Table 16-4). -/
def Chan.contained (x y : Chan) (cause : Nat) : Prop :=
  y.ctl.st = .boot ∧ y.ctl.boot.phase = .reset ∧ y.ctl.boot.cause = cause ∧ y.ctl.resets = x.ctl.resets + 1 ∧ y.run.image = none ∧
  y.run.clusters = [] ∧ y.run.sigs = [] ∧ y.ctl.downtime = x.ctl.downtime ∧
  (x.mem.wf → (∀ a, a < 0x230000000 → y.mem.byte a = Memory.unwritten) ∧ ∀ a, 0x230000000 ≤ a → y.mem.byte a = x.mem.discardDepot.byte a)

end Sys2Proof.Machine
end

