-- ==== Sys2Proof/Certificates/Slice0/Obligations.lean ====
section
/-! DEFINITION. The statements about the machine, for the provers. A car's command names the memory errors that its reads meet; its
statement speaks of `s`, the machine once they have been met, which is the machine itself where the command names none. -/

open Sys2Proof Sys2Proof.Machine

/-- A step runs the command at the front of the queue: For every command and every machine, one step of the machine with the command at the
front of its queue is the command's effect on the machine with the rest of the queue. -/
def Obligations.a_step_runs_the_command_at_the_front : Prop :=
  ∀ (i : Instr) (cs : List Instr) (s : State), step { s with pending := i :: cs } = exec i { s with pending := cs }

/-- What reset leaves: After reset no command waits, the count stands at 0 and is not running, the module is in BOOT with the station master
off, POWER_ALLOWANCE is 4,800, SHED_STEP 6 and SHED_POWER 1,500; every channel is OFF with TENANT_SLOT 255, LOAD_RESULT 0xFFFE,
STALL_LIMIT 0x4000_0000, rate 10 for the crow's nest, every region off and no port up; and the machine is safe. What the spec gives no
reset value for is not stated here. Rests on R305, R319, R321, R395. -/
def Obligations.reset_leaves_the_values_of_the_spec : Prop :=
  let s := State.reset
  s.pending = [] ∧ s.out = [] ∧ s.count = 0 ∧ s.counting = false ∧ s.m.st = .boot ∧ s.m.sm = .off ∧ s.m.allowance = 4800 ∧
    s.m.shedStep = 6 ∧ s.m.shedPower = 1500 ∧ s.m.log = [] ∧ s.m.sessions = [] ∧
    (∀ c, let x := s.ch c
      x.ctl.st = .off ∧ x.ctl.tenantSlot = 255 ∧ x.run.loadResult = 0xfffe ∧ x.run.stallLimit = 0x40000000 ∧ x.run.image = none ∧
      x.run.leg = 0 ∧ x.run.iteration = 0 ∧ (∀ r : Rg, (x.sup.regions[r]).st = .off) ∧ ∀ p : Pt, (x.hub.ports[p]).linkState = 0) ∧
    s.safe

/-- Every step keeps every memory in its canonical form: From every machine whose four memories are in their canonical form (addresses
rising, no entry equal to what an unlisted address reads as, and the same for the poison marks), every step, by whichever of the 241
commands or by the tick, leads to such a machine; equal memories are equal data. -/
def Obligations.every_step_keeps_memory_canonical : Prop :=
  ∀ (s t : State), s.memOk → step s = .next t → t.memOk

/-- The departure count counts up, and only power and a root's lock restart it: From every machine whose count stands at 0 until its
release, every step leads to such a machine. A step on an empty queue is one count (the model's choice, log entry 2): the count rises by
1 once released and the queue stays empty. Every command but POWER_UP, ROOT_LOCK, INPUT_LOSS and MODULE_RESET_N leaves the count and the
rest of the queue as they are, and ROOT_LOCK never changes a running count. Rests on R341. -/
def Obligations.the_count_never_steps_back : Prop :=
  ∀ (s t : State), s.countOk → step s = .next t →
    t.countOk ∧
    (s.pending = [] → t.pending = [] ∧ t.counting = s.counting ∧ t.count = s.count + if s.counting then 1 else 0) ∧
    ∀ i cs, s.pending = i :: cs → t.pending = cs ∧
      ((i ≠ .powerUp ∧ i ≠ .moduleResetN ∧ (∀ c, i ≠ .rootLock c) ∧ ∀ v, i ≠ .inputLoss v) → t.counting = s.counting ∧ t.count = s.count) ∧
      (∀ c, i = .rootLock c → s.counting = true → t.counting = true ∧ t.count = s.count)

/-- What a command of one channel cannot touch: For each of the 171 commands that act on one channel (every car, signal, yard, watch,
junction, memory and fault command and the supply commands of a channel): whatever the state, the other three channels are, in every
field, as they were. The channel is the unit of containment. Rests on R21, R22. -/
def Obligations.a_command_of_one_channel_leaves_the_others : Prop :=
  ∀ (i : Instr) (c : Ch) (s t : State), channelOf i = some c → exec i s = .next t → ∀ d, d ≠ c → t.ch d = s.ch d

/-- Q4i codes: Codes 0x0 to 0x7 decode as 0 to +7 and codes 0x8 to 0xF as −8 to −1, and every one of the 16 codes is produced: narrowing the
value of a code under scale 2^0 gives that code, to nearest, upward and by every 16-bit ticket value. States R38. -/
def Obligations.q4i_codes_are_two_s_complement : Prop :=
  (∀ n, n < 8 → decodeCode .q4i n = .fin false n 0) ∧ (∀ n, 8 ≤ n → n < 16 → decodeCode .q4i n = .fin true (16 - n) 0) ∧
    ∀ (n : Nat) (r : Rounding), n < 16 → (∀ u, r = .sr u → u < 2 ^ 16) → narrowCode .q4i 0 r (decodeCode .q4i n) = (n, false)

/-- The end of a run: When the boundary after the last leg of iteration ITERATIONS − 1 is complete, with no divergence to hold for, the
channel has logged RUN_COMPLETE with the iteration count and is READY with the image still loaded; a START that is then granted runs
from START_LEG, with ITERATION as it stands. States R151. -/
def Obligations.the_run_ends_after_its_last_iteration : Prop :=
  ∀ (c : Ch) (s : State) (i : Image),
    let x := s.ch c
    x.run.image = some i → x.legDone = true → x.run.leg + 1 = i.legCount → i.iterations ≠ 0 → i.iterations < 2 ^ 32 →
    x.run.iteration + 1 = i.iterations → x.yard.diverged = [] →
    ∃ t, exec (.legBoundary c) s = .next t ∧ (t.ch c).ctl.st = .ready ∧ (t.ch c).run.image = some i ∧
      (t.ch c).run.iteration = i.iterations ∧
      (∃ l e, (t.ch c).ctl.log = lastN 4096 (logPlace e l) ∧ e.code = 0x0601 ∧ e.count = s.count ∧
        e.param = paramBytes [(4, i.iterations)] ∧ ∀ y ∈ l, y ∈ x.ctl.log ∨ y.count = s.count) ∧
      ∀ via, t.granted via (baseP c) 3 0 [1] → ∃ u, t.answered via (.start via c) u ∧ (u.ch c).ctl.st = .running ∧
        (u.ch c).run.leg = (t.ch c).run.startLeg ∧ (u.ch c).run.iteration = (t.ch c).run.iteration

/-- Element-wise vector cars store their operation of every element: For each of the 27 element-wise operations of Table 04-3 (CONVERT among
them): when its car stands ready at the head of the vector queue, the command answers a next state in which D holds, element by element,
the operation of s1, s2, s3 with canonical NaN, narrowed by 04 R97; the car has left the queue with its post pending, and nothing else
but the watch counts and cycle counts has changed. Storing the results of a car in D (the operation the vector statements name): a
register D leaves every byte of memory and every register word outside registers D to D + COUNT − 1, and at LW = 0 holds the result
words; a tender D leaves every register and every byte outside D's extent. Rests on R96, R97, R99, R104. -/
def Obligations.elementwise_cars_store_their_results : Prop :=
  (∀ row ∈ elementwiseRows, ∀ (w : At) (s0 : State) (e : QCar) (r : VecRec), let s := s0.meet w; s.vecReady w row.2.1 row.2.2.1 e r →
    let x := s.seen w
    let k := w.cl.val
    let n := vecN e.car r
    ∃ t, exec (row.1 w) s0 = .next t ∧ s.vecDone t w e ∧ (t.cluster w.ch k).oor = (s.cluster w.ch k).oor ∧
      t.data w = s.stored w e r (tab n (fun i =>
        canon32 (row.2.2.2 r (x.vecSrc k e.car r 1 i) (x.vecSrc k e.car r 2 i) (x.vecSrc k e.car r 3 i))))) ∧
  (∀ (s : State) (c : Ch) (k : Nat) (car : Car) (r : VecRec) (ws : List W32), ws.length = vecN car r →
    let t := (s.vecStore c k car r ws).1
    let d := tenderAt k (Car.vd car * 32)
    (Car.dr car = true →
      (t.ch c).mem = (s.ch c).mem ∧
      (∀ j, j < 64 * Car.vd car ∨ 64 * (Car.vd car + Car.count car) ≤ j →
        Tab.get 0 (t.cluster c k).vregs j = Tab.get 0 (s.cluster c k).vregs j) ∧
      (r.lw = false → ∀ i, i < ws.length → Tab.get 0 (t.cluster c k).vregs (64 * Car.vd car + i) = ws.getD i 0)) ∧
    (Car.dr car = false →
      (t.cluster c k).vregs = (s.cluster c k).vregs ∧
      ∀ a, a < d ∨ d + spanOf r.gd ws.length ≤ a → (t.ch c).mem.byte a = (s.ch c).mem.byte a))

/-- GATHER reads the table, SCATTER_ADD adds into it in element order: GATHER of a ready car stores the table word at each index of S2, +0
for an index at or beyond TBL_LEN, and adds the number of those to OOR. SCATTER_ADD of a ready car leaves in every table word the
sequential FP32 sum, in rising element order, of the elements that name it, skips indices at or beyond TBL_LEN, counts them in OOR,
writes no other byte and no register. Rests on R103. -/
def Obligations.gather_and_scatter_follow_their_indices : Prop :=
  (∀ (w : At) (s0 : State) (e : QCar) (r : VecRec), let s := s0.meet w; s.vecReady w 4 0 e r →
    let x := s.seen w
    let k := w.cl.val
    let n := vecN e.car r
    ∃ t, exec (.gather w) s0 = .next t ∧ s.vecDone t w e ∧
      (t.cluster w.ch k).oor = (s.cluster w.ch k).oor + ((List.range n).filter (fun i => r.tblLen ≤ (x.vecSrc k e.car r 2 i).toNat)).length ∧
      t.data w = s.stored w e r (tab n (fun i =>
        let j := (x.vecSrc k e.car r 2 i).toNat
        if j < r.tblLen then canon32 (BitVec.ofNat 32 (x.mem.nat (tenderAt k (Car.vs1 e.car * 32 + 4 * j)) 4)) else 0))) ∧
  (∀ (w : At) (s0 : State) (e : QCar) (r : VecRec), let s := s0.meet w; s.vecReady w 4 1 e r →
    let x := s.seen w
    let k := w.cl.val
    let n := vecN e.car r
    ∃ t, exec (.scatterAdd w) s0 = .next t ∧ s.vecDone t w e ∧
      (t.cluster w.ch k).oor = (s.cluster w.ch k).oor + ((List.range n).filter (fun i => r.tblLen ≤ (x.vecSrc k e.car r 2 i).toNat)).length ∧
      (t.cluster w.ch k).vregs = (s.cluster w.ch k).vregs ∧
      (∀ j, j < r.tblLen → (t.ch w.ch).mem.nat (tenderAt k (Car.vd e.car * 32) + 4 * j) 4 =
        (((List.range n).filter (fun i => (x.vecSrc k e.car r 2 i).toNat = j)).foldl (fun v i => add32 v (x.vecSrc k e.car r 1 i))
          (BitVec.ofNat 32 (x.mem.nat (tenderAt k (Car.vd e.car * 32) + 4 * j) 4))).toNat) ∧
      (∀ a, a < tenderAt k (Car.vd e.car * 32) ∨ tenderAt k (Car.vd e.car * 32) + 4 * r.tblLen ≤ a →
        (t.ch w.ch).mem.byte a = (s.ch w.ch).mem.byte a))

/-- The scans follow their recurrences lane by lane: SCAN_SUM, SCAN_XSUM and SCAN_MAX of a ready car store, for lane l and step i, the
segmented forward scan of lane l from S3's carry; DISC_REV stores the reverse discounted sum. Rests on R101. -/
def Obligations.scans_follow_their_recurrences : Prop :=
  (∀ row ∈ [(Instr.scanSum, 0), (.scanXsum, 1), (.scanMax, 2)], ∀ (w : At) (s0 : State) (e : QCar) (r : VecRec), let s := s0.meet w; s.vecReady w 5 row.2 e r →
    let x := s.seen w
    let k := w.cl.val
    let n := vecN e.car r
    ∃ t, exec (row.1 w) s0 = .next t ∧ s.vecDone t w e ∧ (t.cluster w.ch k).oor = (s.cluster w.ch k).oor ∧
      t.data w = s.stored w e r (tab n (fun q => canon32 (scanOut row.2 (vecElem x.mem (x.run.vreg k) k e.car r 3 64 (q % 64))
        (fun i => x.vecSrc k e.car r 1 (64 * i + q % 64)) (fun i => !isZero32 (x.vecSrc k e.car r 2 (64 * i + q % 64))) (q / 64))))) ∧
  ∀ (w : At) (s0 : State) (e : QCar) (r : VecRec), let s := s0.meet w; s.vecReady w 5 3 e r →
    let x := s.seen w
    let k := w.cl.val
    let n := vecN e.car r
    ∃ t, exec (.discRev w) s0 = .next t ∧ s.vecDone t w e ∧ (t.cluster w.ch k).oor = (s.cluster w.ch k).oor ∧
      t.data w = s.stored w e r (tab n (fun q =>
        let m := Car.count e.car
        canon32 (discOut r.a (vecElem x.mem (x.run.vreg k) k e.car r 3 64 (q % 64))
          (fun i => x.vecSrc k e.car r 1 (64 * i + q % 64)) (fun i => !isZero32 (x.vecSrc k e.car r 2 (64 * i + q % 64)))
          m (m - 1 - q / 64))))

/-- SORT orders its keys stably and moves the payload with them: SORT of a ready car stores its keys in an order p of their indices in which
no later key comes strictly before an earlier one and equal keys keep their input order (ascending or descending, FP32 with NaN last, or
U32), and moves the payload in the same order when PAYLOAD is set. Rests on R102. -/
def Obligations.sort_is_stable : Prop :=
  ∀ (w : At) (s0 : State) (e : QCar) (r : VecRec), let s := s0.meet w; s.vecReady w 6 0 e r →
    let x := s.seen w
    let k := w.cl.val
    let key := fun i => vecElem x.mem (x.run.vreg k) k e.car r 1 r.sortN i
    let pay := fun i => vecElem x.mem (x.run.vreg k) k e.car r 2 r.sortN i
    ∃ (t : State) (p : List Nat), exec (.sort w) s0 = .next t ∧ s.vecDone t w e ∧ (t.cluster w.ch k).oor = (s.cluster w.ch k).oor ∧
      p.Perm (List.range r.sortN) ∧
      p.Pairwise (fun i j => keyBefore r.keyU32 r.desc (key j) (key i) = false ∧
        (keyBefore r.keyU32 r.desc (key i) (key j) = false → i < j)) ∧
      let a := if r.keyU32 then (s.ahead w).putWords w.ch k false (Car.vd e.car) (p.map key)
        else ((s.ahead w).vecStore w.ch k e.car r (p.map (fun i => canon32 (key i)))).1
      t.data w = ((if r.payload then a.putWords w.ch k r.s3r r.s3 (p.map pay) else a).data w)

/-- SCALEGEN writes one scale byte for each block of 32: SCALEGEN of a ready car stores at D one block-scale byte for each 32-element block
of S1, by 02 R44 for the gauge GD under the D tensor scale, or nothing when a pass has widened GD (05 R127 step 4); no register and no
other byte changes. Rests on R100, R127. -/
def Obligations.scalegen_writes_block_scales : Prop :=
  ∀ (w : At) (s0 : State) (e : QCar) (r : VecRec), let s := s0.meet w; s.vecReady w 7 1 e r →
    let x := s.seen w
    let k := w.cl.val
    let n := vecN e.car r
    ∀ g, Gauge.ofCode r.gd = some g →
    let d := tenderAt k (Car.vd e.car * 32)
    let m := if r.drop then 0 else ceilDiv n 32
    ∃ t, exec (.scalegen w) s0 = .next t ∧ s.vecDone t w e ∧ (t.cluster w.ch k).oor = (s.cluster w.ch k).oor ∧
      (t.cluster w.ch k).vregs = (s.cluster w.ch k).vregs ∧
      (∀ b, b < m → (t.ch w.ch).mem.byte (d + b) = BitVec.ofNat 8 (blockScale g
        ((((List.range n).map (fun i => x.vecSrc k e.car r 1 i)).drop (32 * b)).take 32 |>.map (fun v =>
          scaled (decode32 v) (tensorScale x.mem k (Car.vd e.car * 32) r.tsd))))) ∧
      (∀ a, a < d ∨ d + m ≤ a → (t.ch w.ch).mem.byte a = (s.ch w.ch).mem.byte a)

/-- Ticket fills draw each element by its position: UNIFORM, NORMAL, BERNOULLI and DROPOUT of a ready car store their function of the ticket
of each element; RAW writes the 16 ticket bytes of each element at D. Rests on R109, R110, R111. -/
def Obligations.ticket_fills_draw_by_position : Prop :=
  (∀ row ∈ fillRows, ∀ (w : At) (s0 : State) (e : QCar) (r : VecRec), let s := s0.meet w; s.vecReady w 8 row.2.1 e r →
    let x := s.seen w
    let k := w.cl.val
    let n := vecN e.car r
    ∃ t, exec (row.1 w) s0 = .next t ∧ s.vecDone t w e ∧ (t.cluster w.ch k).oor = (s.cluster w.ch k).oor ∧
      t.data w = s.stored w e r (tab n (fun i => canon32 (row.2.2 r (x.elemTicket k e.car r i) (x.vecSrc k e.car r 1 i))))) ∧
  ∀ (w : At) (s0 : State) (e : QCar) (r : VecRec), let s := s0.meet w; s.vecReady w 8 0 e r →
    let x := s.seen w
    let k := w.cl.val
    let n := vecN e.car r
    ∃ t, exec (.raw w) s0 = .next t ∧ s.vecDone t w e ∧ (t.cluster w.ch k).oor = (s.cluster w.ch k).oor ∧
      t.data w = (((s.ahead w).store w.ch (tenderAt k (Car.vd e.car * 32)) ((List.range n).flatMap (fun i =>
        let q := x.elemTicket k e.car r i
        [q.x0, q.x1, q.x2, q.x3].flatMap (fun v => bytesOfNat 4 v.toNat)))).data w)

/-- ADAMW, LION and SGDM update weights and moments in place: An optimiser car that is ready stores, for every element, the updated weight
at D and the updated moments at S2 (in tender or registers; v after m for ADAMW), by the element step of 04 R106, each read times and
stored divided by its tensor scale where TSD or TS2 is set (a reading of R96, log entry 63), and with COPY_EN the narrowed weight copy at
COPY_ADDR. Rests on R96, R105, R106. -/
def Obligations.optimisers_update_weights_and_moments : Prop :=
  ∀ row ∈ [(Instr.adamw, 0), (.lion, 1), (.sgdm, 2)], ∀ (w : At) (s0 : State) (e : QCar) (r : VecRec), let s := s0.meet w; s.vecReady w 9 row.2 e r →
    let x := s.seen w
    let k := w.cl.val
    let n := vecN e.car r
    let raw := optRec x.mem k r
    let word := fun a => BitVec.ofNat 32 (x.mem.nat (tenderAt k a) 4)
    let td := tensorScale x.mem k (Car.vd e.car * 32) r.tsd
    let tm := tensorScale x.mem k (Car.vs2 e.car * 32) (r.ts2 && !Car.s2r e.car)
    let mom := fun off i => underScale tm <| if Car.s2r e.car then x.run.vreg k ((Car.vs2 e.car + off) * 64 + i)
      else word (Car.vs2 e.car * 32 + 256 * off + 4 * i)
    let out := tab n (fun i => optStep row.2 (optOf x raw r.layer (row.2 == 0)) (x.vecSrc k e.car r 1 i)
      (underScale td (word (Car.vd e.car * 32 + 4 * i))) (mom 0 i) (mom (if row.2 = 0 then Car.count e.car else 0) i))
    let a := ((s.ahead w).putWords w.ch k false (Car.vd e.car) (overScale td (out.map (·.1))).1).putWords w.ch k (Car.s2r e.car)
      (Car.vs2 e.car) (overScale tm (out.map (·.2.1))).1
    let b := if row.2 = 0 then a.putWords w.ch k (Car.s2r e.car)
      (Car.vs2 e.car + (if Car.s2r e.car then 1 else 8) * Car.count e.car) (overScale tm (out.map (·.2.2))).1 else a
    ∃ t, exec (row.1 w) s0 = .next t ∧ s.vecDone t w e ∧ (t.cluster w.ch k).oor = (s.cluster w.ch k).oor ∧
      t.data w = (match (if raw.testBit 297 then Gauge.ofCode (bits raw 301 298) else none) with
        | some g => (b.onMem w.ch (fun m => m.writeMask (tenderAt k (bits raw 319 304 * 32))
            (narrowExtent g none true (fun _ => 0) (fun _ => 0) (out.map (fun q => (decode32 q.1, Rounding.rne)))).bytes)).data w
        | none => b.data w)

/-- Reductions combine lane partials in a fixed tree: A reduction of a ready car writes one FP32, the six-level tree of the 64 lane
partials, into bytes 0 to 3 of granule D and zero into bytes 4 to 31; no register and no other byte changes. Rests on R100. -/
def Obligations.reductions_combine_lanes_in_a_tree : Prop :=
  ∀ row ∈ reduceRows, ∀ (w : At) (s0 : State) (e : QCar) (r : VecRec), let s := s0.meet w; s.vecReady w 10 row.2.1 e r →
    let x := s.seen w
    let k := w.cl.val
    let d := tenderAt k (Car.vd e.car * 32)
    let lane := fun l => laneValue row.2.2.1 row.2.2.2.2.1 (fun i => row.2.2.2.2.2 (x.vecSrc k e.car r 1 (64 * i + l))) (Car.count e.car)
    ∃ t, exec (row.1 w) s0 = .next t ∧ s.vecDone t w e ∧ (t.cluster w.ch k).oor = (s.cluster w.ch k).oor ∧
      (t.cluster w.ch k).vregs = (s.cluster w.ch k).vregs ∧
      (t.ch w.ch).mem.nat d 4 = (treeAt row.2.2.2.1 lane 6 0).toNat ∧
      (∀ a, d + 4 ≤ a ∧ a < d + 32 → (t.ch w.ch).mem.byte a = 0) ∧
      (∀ a, a < d ∨ d + 32 ≤ a → (t.ch w.ch).mem.byte a = (s.ch w.ch).mem.byte a)

/-- An invalid vector car stops its cluster: A vector car at the head of its queue that meets a condition of Table 04-6 is not executed:
memory and vector registers keep their contents, its cluster issues and reads no further car, and while another consist can still act
CAR_INVALID stands as a cause that will hold the channel. Rests on R107, R89. -/
def Obligations.an_invalid_vector_car_is_not_executed : Prop :=
  ∀ cmd ∈ vectorCmds, ∀ (w : At) (s0 : State) (e : QCar) (r : VecRec) (n : Nat), let s := s0.meet w; s.vecHead w e r →
    vecInvalid (s.seen w).mem (s.seen w).run.ticketStep e.car r e (s.seen w) w.cl.val = some n →
    ((s.ahead w).carInvalid w.ch w.cl.val e.car e.pos n |>.ch w.ch).quiet = false →
    ∃ t, exec (cmd w) s0 = .next t ∧ t.data w = s.data w ∧ t.elsewhere w.ch = s.elsewhere w.ch ∧
      (t.cluster w.ch w.cl.val).deadCars = true ∧ ((t.ch w.ch).run.stops.map (·.cause)) = [0x102] ∧
      (t.ch w.ch).ctl = (s.ch w.ch).ctl

/-- MATMUL accumulates its runs and writes at the end of a chain: A MATMUL that stands ready and is not mispredicted adds, run by run, its
included blocks to every active accumulator of its chain and to no other; a car inside a chain writes no memory and leaves the chain on
the engine; a car that ends one writes its exit to the output extent (and its zero-map bit with NZOUT, and under speculation the true
half of the zero map over the prediction half) and frees the engine. Rests on R65, R69, R71, R73, R83, R84. -/
def Obligations.a_matrix_product_accumulates_and_writes : Prop :=
  ∀ (w : At) (eng : Fin 4) (faults : List MemFault) (s0 : State) (e : QCar) (r : TileRec) (blocks : List Nat),
    let s := s0.meet w
    s.tileReady w eng 0 faults e r blocks →
    let x := s.seen w
    let k := w.cl.val
    let c0 := x.chainFor k e r (activeOuts r e.car)
    (speculates x e.car r = true → missedBlocks x.mem k r (Car.kBlocks e.car) = []) →
    ∃ (t : State) (ch : Chain), exec (.matmul w eng faults) s0 = .next t ∧ s.tileDone t w eng e ∧
      (t.cluster w.ch k).vregs = (s.cluster w.ch k).vregs ∧
      ch.blocks = c0.blocks + Car.kBlocks e.car ∧
      (∀ o ∈ activeOuts r e.car, Tab.get 0 ch.acc (o.1 * 32 + o.2) =
        accumulate (x.draw x.run.leg) r o.1 o.2
          (operandOf x.mem k (Car.aAddr e.car) r.ga r.ora (tensorScale x.mem k (Car.aAddr e.car) r.tsa) o.1)
          (operandOf x.mem k (Car.bAddr e.car) r.gb r.orb (tensorScale x.mem k (Car.bAddr e.car) r.tsb) o.2)
          (runsOf r.step c0.blocks blocks) (Tab.get 0 c0.acc (o.1 * 32 + o.2))) ∧
      (∀ n, (∀ o ∈ activeOuts r e.car, n ≠ o.1 * 32 + o.2) → Tab.get 0 ch.acc n = Tab.get 0 c0.acc n) ∧
      (Car.ends e.car = false → (t.cluster w.ch k).chain? (Car.eng e.car) = some ch ∧ (t.ch w.ch).mem = (s.ch w.ch).mem) ∧
      (Car.ends e.car = true → (t.cluster w.ch k).chain? (Car.eng e.car) = none ∧
        let out := x.tileOut k e r ch
        let a := x.mem.writeMask (tenderAt k (Car.cAddr e.car)) out.bytes
        let z := tenderAt k (r.nzoAddr + r.nzoBit / 8)
        let b := if r.nzout then a.write z [BitVec.ofNat 8 (setBits (a.nat z 1) (r.nzoBit % 8) 1
            (if out.ff || out.vals.any (fun v => isNan32 v || !isZero32 v) then 1 else 0))] else a
        (t.ch w.ch).mem = if speculates x e.car r then b.write (tenderAt k r.nzAddr) (b.read (tenderAt k (r.nzAddr + 512)) 512) else b)

/-- A mispredicted MATMUL asks for the missing blocks: A speculating MATMUL that stands ready, with a block true in the map and predicted
zero, leaves memory and the chains alone, stays out of its queue as the refetch of its engine with exactly the missed blocks, and counts
one misprediction. Rests on R84. -/
def Obligations.a_misprediction_asks_for_the_missing_blocks : Prop :=
  ∀ (w : At) (eng : Fin 4) (faults : List MemFault) (s0 : State) (e : QCar) (r : TileRec) (blocks : List Nat),
    let s := s0.meet w
    s.tileReady w eng 0 faults e r blocks →
    let x := s.seen w
    let k := w.cl.val
    speculates x e.car r = true → missedBlocks x.mem k r (Car.kBlocks e.car) ≠ [] →
    ∃ t, exec (.matmul w eng faults) s0 = .next t ∧ t.elsewhere w.ch = s.elsewhere w.ch ∧ (t.ch w.ch).mem = (s.ch w.ch).mem ∧
      let cl := t.cluster w.ch k
      cl = { s.popped w eng with refetch := cl.refetch, zsPred := cl.zsPred, zsMis := (s.cluster w.ch k).zsMis + 1 } ∧
      (∀ j, j ≠ eng.val → Tab.get none cl.refetch j = Tab.get none (s.cluster w.ch k).refetch j) ∧
      Tab.get none cl.refetch eng = some { q := e, blocks := missedBlocks x.mem k r (Car.kBlocks e.car),
                                           id := (s.ch w.ch).run.nextId, staged := [] }

/-- SUM, MAXABS and TOPK reduce rows and write at the end of a chain: A SUM, MAXABS or TOPK car that stands ready adds its blocks to the row
reductions of its chain; inside a chain it writes no memory, at the end of one it writes the reduction's output extent (nothing when a
scale pass was widened) and frees the engine. Rests on R80, R81, R82, R127. -/
def Obligations.row_reductions_gather_rows_and_write : Prop :=
  ∀ row ∈ [(fun w g => Instr.sum w g, 1), (fun w g => .maxabs w g, 2), (fun w g => .topk w g, 3)],
    ∀ (w : At) (eng : Fin 4) (s0 : State) (e : QCar) (r : TileRec) (blocks : List Nat), let s := s0.meet w; s.tileReady w eng row.2 [] e r blocks →
    let x := s.seen w
    let k := w.cl.val
    let ch := reduceChain x k e.car r blocks (x.chainFor k e r ((activeIdx r (Car.mAct e.car)).map (fun i => (i, 0))))
    ∃ t, exec (row.1 w eng) s0 = .next t ∧ s.tileDone t w eng e ∧ (t.cluster w.ch k).vregs = (s.cluster w.ch k).vregs ∧
      (Car.ends e.car = false → (t.cluster w.ch k).chain? (Car.eng e.car) = some ch ∧ (t.ch w.ch).mem = (s.ch w.ch).mem) ∧
      (Car.ends e.car = true → (t.cluster w.ch k).chain? (Car.eng e.car) = none ∧
        (t.ch w.ch).mem = if r.drop then (s.ch w.ch).mem
          else (s.ch w.ch).mem.writeMask (tenderAt k (Car.cAddr e.car)) (reduceOut x k e.car r ch))

/-- A MOVE with its data at hand writes its destination: For each MODE: a MOVE that stands ready, has no destination wait and rings no
doorbell, whose data is at hand and whose destinations are the channel's own memory, writes exactly its destination ranges, leaves the
shunter and has its post pending; its cluster keeps everything else. The destination of a linear COPY between ranges of the channel's
own memory holds, after it has written, the bytes the source held before, and every byte outside the destination is unchanged. Rests on
R208, R209, R210, R211, R212. -/
def Obligations.a_move_writes_its_destination : Prop :=
  (∀ row ∈ [(Instr.copy, 0), (.compress, 1), (.decompress, 2), (.narrowE4m3, 3), (.widenE4m3, 4)], ∀ (w : At) (ahead : List Nat) (faults : List MemFault) (s0 : State) (e : QCar) (d : Nat),
    let s := s0.meet w
    s.moveReady w e d → dMode d = row.2 → e.dst = none → doorbellOf (dDst d) = none → (dKib d = 0 ∨ ahead = []) →
    let m := s.newMove w e d
    (∀ f ∈ faults, ∀ q ∈ moveRanges d m.blocks, overlaps q.1 q.2 (f.addr / 256 * 256) 256 = false) →
    (s.ahead w).moveAtHand w m → (∀ n ∈ (s.ahead w).cluster w.ch w.cl.val |>.moves, n.id ≠ m.id) →
    ∃ t, exec (row.1 w ahead faults) s0 = .next t ∧ s.ran t w e ∧ (t.ch w.ch).mem.store = ((s.ahead w).moved w m).store ∧
      (let cl := t.cluster w.ch w.cl.val; cl = { s.popped w 5 with lastNz := cl.lastNz }) ∧
      (dMode d = 0 → (t.ch w.ch).watch = (s.ch w.ch).watch)) ∧
  (∀ (a : State) (w : At) (m : Move), dMode m.desc = 0 → dRow m.desc = 0 → dNzEn m.desc = false → m.staged = [] →
    ownMemory (dSrc m.desc) = true → ownMemory (dSrc m.desc + dLen m.desc - 1) = true →
    (∀ i, i < dLen m.desc → (a.moved w m).byte (dDst m.desc + i) = (a.ch w.ch).mem.byte (dSrc m.desc + i)) ∧
    (∀ b, b < dDst m.desc ∨ dDst m.desc + dLen m.desc ≤ b → (a.moved w m).byte b = (a.ch w.ch).mem.byte b))

/-- A MOVE with a destination wait writes nothing until its DEMAND_POINT: For each MODE: a MOVE that stands ready and has a destination wait
leaves its queue and joins the active moves of its shunter, not started; no memory byte, register, count of signals or post changes.
When the destination wait of an active move is satisfied and its data is at hand, DEMAND_POINT writes exactly its destination ranges,
takes it from the shunter and leaves its post pending. Rests on R208, R212, R219. -/
def Obligations.a_waiting_move_writes_at_its_demand_point : Prop :=
  (∀ row ∈ [(Instr.copy, 0), (.compress, 1), (.decompress, 2), (.narrowE4m3, 3), (.widenE4m3, 4)], ∀ (w : At) (ahead : List Nat) (faults : List MemFault) (s0 : State) (e : QCar) (d : Nat),
    let s := s0.meet w
    s.moveReady w e d → dMode d = row.2 → e.dst ≠ none → (dKib d = 0 ∨ ahead = []) →
    ∃ t, exec (row.1 w ahead faults) s0 = .next t ∧ t = s.activated w e d) ∧
  (∀ (w : At) (slot : Nat) (faults : List MemFault) (s0 : State) (m : Move),
    let s := s0.meet w
    let x := s.ch w.ch
    let k := w.cl.val
    x.ctl.st = .running → (x.sup.region (regionOf k)).st = .on → x.run.stops = [] →
    (x.run.cluster k).moves[slot]? = some m → m.started = false → x.waitMet k m.q.dst = true → doorbellOf (dDst m.desc) = none →
    (∀ g ∈ m.staged, g.stale = false) → s.moveAtHand w m → ((x.run.cluster k).moves.map (·.id)).Nodup →
    (∀ f ∈ faults, ∀ q ∈ moveRanges m.desc m.blocks, overlaps q.1 q.2 (f.addr / 256 * 256) 256 = false) →
    ∃ t, exec (.demandPoint w slot faults) s0 = .next t ∧ t.besides w.ch = s.besides w.ch ∧ t.clock = s.clock ∧ t.m = s.m ∧
      (t.ch w.ch).mem.store = (s.moved w m).store ∧ (t.ch w.ch).mem.restW = x.mem.restW ∧
      (let cl := t.cluster w.ch k
       cl = { x.run.cluster k with moves := (x.run.cluster k).moves.filter (fun n => n.id != m.id), lastNz := cl.lastNz }) ∧
      (t.ch w.ch).run = { x.run with clusters := (t.ch w.ch).run.clusters, posts := x.run.posts ++ postOf m.id k m.q.car
                                     progressAt := s.count, activeAt := s.count } ∧
      (∀ j, j ≠ k → (t.ch w.ch).run.cluster j = x.run.cluster j) ∧
      t.ch w.ch = { x with run := (t.ch w.ch).run, watch := (t.ch w.ch).watch, mem := (t.ch w.ch).mem, host := (t.ch w.ch).host } ∧
      (x.mem.depotSize = 0 → t.out = s.out ∧ (t.ch w.ch).host = x.host))

/-- SEND starts a message: A SEND whose descriptor obeys Table 09-9, whose source may be read and holds no poison, with fewer than 64
messages outstanding, adds one message with the descriptor's fields and the current epoch; it is sent as far as 4 MiB when its rank has
a route, and not at all when it has none. Rests on R231, R240, R241. -/
def Obligations.send_starts_a_message : Prop :=
  ∀ (w : At) (s0 : State) (m : Move) (a : State) (bs : List Byte), let s := s0.meet w; s.ringReady w 0 m a bs →
    let h := (s.ch w.ch).hub
    let d := natOfBytes bs
    let src := bits d 255 208
    let len := bits d 207 176
    bits d 75 0 = 0 → src % 32 = 0 → len % 32 = 0 → 32 ≤ len → len ≤ 2 ^ 26 → ownMemory src = true → ownMemory (src + len - 1) = true →
    a.firstBad w.ch src len false = none → (s.ch w.ch).mem.poisonIn src len = none →
    (h.msgsOut.filter (fun q => q.yard.isNone)).length < 64 → (∀ q ∈ h.msgsOut, q.id ≠ m.id) →
    ∃ t, exec (.send w) s0 = .next t ∧ s.rung t a w m ∧
      ∃ q, (t.ch w.ch).hub.msgsOut = h.msgsOut ++ [q] ∧ q.id = m.id ∧ q.src = src ∧ q.epoch = h.epoch ∧ q.acked = 0 ∧ q.yard = none ∧
        q.head = { dstRank := bits d 111 96, srcRank := (s.ch w.ch).rank, queue := bits d 95 90, hops := 8, dstLeg := bits d 89 84,
                   dstIter := bits d 83 76, msg := bits d 175 144, length := len, fragFirst := 0, tag := bits d 143 112 } ∧
        q.sent = if (h.routePort (bits d 111 96)).isSome then min (ceilDiv len 256) 16384 else 0

/-- ATOMIC starts an operation on its partner, FENCE closes the epoch: An ATOMIC whose descriptor obeys Table 09-7, whose target page may be
read and written and whose result may be written, adds one outstanding operation with the descriptor's fields, the next sequence number
of the port and the current epoch. A FENCE that would not open a 256th epoch closes the current epoch and opens the next; its car's post
waits while anything of that epoch or an earlier one is outstanding, and not otherwise. Rests on R231, R233, R235, R238. -/
def Obligations.atomic_starts_an_operation_and_fence_closes_an_epoch : Prop :=
  (∀ (w : At) (s0 : State) (m : Move) (a : State) (bs : List Byte) (p : Pt), let s := s0.meet w; s.ringReady w 1 m a bs →
    let h := (s.ch w.ch).hub
    let d := natOfBytes bs
    let target := bits d 255 208
    atomicDescOk d = true → a.carMay w.ch target false = true → a.carMay w.ch target true = true →
    a.carMay w.ch (bits d 207 160) true = true → zoneOf target = .partner p →
    (∀ o ∈ h.ops, o.port ≠ p.val ∨ o.seq ≠ h.ports[p].seq) →
    ∃ t, exec (.atomic w) s0 = .next t ∧ s.rung t a w m ∧ (t.ch w.ch).hub.ports[p].seq = (h.ports[p].seq + 1) % 2 ^ 32 ∧
      ∃ o, (t.ch w.ch).hub.ops = h.ops ++ [o] ∧ o.id = m.id ∧ o.port = p.val ∧ o.seq = h.ports[p].seq ∧ o.epoch = h.epoch ∧
        o.op = bits d 31 24 ∧ o.addr = s.target w.ch target ∧ o.a = bits d 159 96 ∧ o.b = bits d 95 32 ∧ o.round = bits d 23 8 ∧
        o.members = bits d 7 0 ∧ o.dst = bits d 207 160) ∧
  (∀ (w : At) (s0 : State) (m : Move) (a : State) (bs : List Byte), let s := s0.meet w; s.ringReady w 2 m a bs →
    let h := (s.ch w.ch).hub
    natOfBytes bs = 1 → h.fenceWaits = false →
    ∃ t, exec (.fence w) s0 = .next t ∧ s.rung t a w m ∧ (t.ch w.ch).hub.epoch = h.epoch + 1 ∧ (t.ch w.ch).hub.ops = h.ops ∧
      (t.ch w.ch).hub.msgsOut = h.msgsOut ∧ t.out = s.out ∧
      ((m.id, h.epoch) ∈ (t.ch w.ch).hub.fences ↔ ∃ e ∈ h.openEpochs, e ≤ h.epoch))

/-- END and RESET run over their slots in order, END by its slot table: An END that stands ready, with no done word or slot record poisoned,
its slot table apart from its ring and from its done words, completes: each of its slots takes the record that the slot operation gives
and the ring's words 0 and 1 of the slot at HEAD take its END and TERM masks, no other byte changes, and the world counts rise by the
slots they name. A RESET whose selected slots pass their checks resets each in rising order and completes: a slot that is not active, or
neither has RESET set nor is forced, is passed over; a selected one's state bytes become its template with each parameter's word at
its offset, later entries over earlier ones, EPISODE rises by 1, STEP and RESET become 0, the other fields and every other byte stay,
and the count of resets rises. END on one slot: an inactive slot is left alone and gives 0 masks; a slot with RESET set keeps its record
and gives END with TERM as TERM_LAST; otherwise STEP rises by 1, a non-zero or NaN done word sets RESET and TERM_LAST and both masks, a
slot at its step limit sets RESET and gives END without TERM, and any other slot gives 0 masks. Rests on R176, R178, R179, R184, R187. -/
def Obligations.world_end_and_reset_run_over_their_slots : Prop :=
  (∀ (w : At) (s0 : State) (e : QCar) (i : Image) (v ring : Nat),
    let s := s0.meet w
    let k := w.cl.val
    (s.worldReady w 1 e i v ring →
      let m := (s.ch w.ch).mem
      let words := tenderAt k (woTaddr v)
      m.poisonAmong [(words, woGroups v * 256)] = none → (∀ n ∈ woSlots v, m.poisonAmong [(i.slotAt n, 32)] = none) →
      (∀ n ∈ woSlots v, (i.slotAt n + 32 ≤ rgBase ring ∨ rgBase ring + rgBytes ring ≤ i.slotAt n) ∧
        (i.slotAt n + 32 ≤ words ∨ words + woGroups v * 256 ≤ i.slotAt n)) →
      let old := fun n => m.nat (i.slotAt n) 32
      let done := fun n => BitVec.ofNat 32 (m.nat (words + 4 * (n - woFirst v)) 4)
      let fin := fun n => isNan32 (done n) || !isZero32 (done n)
      let open' := fun n => slActive (old n) && !slReset (old n)
      let word := fun j n => ringAddr ring j ((n - rgFirst ring) / 64) (rgHead ring) (n % 64)
      let number := fun (p : Nat → Bool) => ((woSlots v).filter p).length
      ∃ t, exec (.worldEnd w) s0 = .next t ∧ s.worldRun t w e ∧
        let m' := (t.ch w.ch).mem
        (∀ n ∈ woSlots v, let r := endSlot (old n) (done n)
          m'.nat (i.slotAt n) 32 = r.1 ∧ m'.nat (word 0 n) 4 = r.2.1.toNat ∧ m'.nat (word 1 n) 4 = r.2.2.1.toNat) ∧
        (∀ a, (∀ n ∈ woSlots v, (a < i.slotAt n ∨ i.slotAt n + 32 ≤ a) ∧ (a < word 0 n ∨ word 0 n + 4 ≤ a) ∧
          (a < word 1 n ∨ word 1 n + 4 ≤ a)) → m'.byte a = m.byte a) ∧
        m'.lateEnds = m.lateEnds + number (fun n => slActive (old n) && slReset (old n)) ∧
        m'.epTerminal = m.epTerminal + number (fun n => open' n && fin n) ∧
        m'.doneNan = m.doneNan + number (fun n => open' n && isNan32 (done n)) ∧
        m'.epTruncated = m.epTruncated + number (fun n =>
          open' n && !fin n && decide (slLimit (old n) ≠ 0 ∧ slLimit (old n) ≤ slStep (old n) + 1))) ∧
    (s.worldReady w 2 e i v ring → ((s.ahead w).resetSlots w.ch i v (woSlots v)).2 = none →
      ∃ t, exec (.worldReset w) s0 = .next t ∧ s.worldRun t w e ∧
        (t.ch w.ch).mem = (((s.ahead w).resetSlots w.ch i v (woSlots v)).1.ch w.ch).mem)) ∧
  (∀ (c : Ch) (s : State) (i : Image) (v n : Nat) (ns : List Nat),
    let m := (s.ch c).mem
    let old := m.nat (i.slotAt n) 32
    let d := m.nat (i.rdescAt (slRdesc old)) 32
    let param := fun j => m.nat (rdParamAddr d + 16 * j) 16
    let ep := (slEpisode old + 1) % 2 ^ 32
    let holds := fun (j a : Nat) => j < rdParams d ∧ paOff (param j) ≤ a ∧ a < paOff (param j) + 4
    let selected := slActive old = true ∧ (slReset old || woForce v) = true
    m.poisonAmong [(i.slotAt n, 32)] = none →
    (¬selected → s.resetSlots c i v (n :: ns) = s.resetSlots c i v ns) ∧
    (selected → s.resetCheck c i n = none →
      let t := s.resetSlot c i n
      let m' := (t.ch c).mem
      let new := m'.nat (i.slotAt n) 32
      s.resetSlots c i v (n :: ns) = t.resetSlots c i v ns ∧
      (slAddr old + slLen old ≤ i.slotAt n ∨ i.slotAt n + 32 ≤ slAddr old →
        slEpisode new = ep ∧ slStep new = 0 ∧ slReset new = false ∧ bits new 255 224 = bits old 255 224 ∧
        bits new 159 103 = bits old 159 103 ∧ bits new 101 0 = bits old 101 0 ∧
        (∀ a, a < slLen old →
          ((∀ j, ¬holds j a) → m'.byte (slAddr old + a) = m.byte (rdTemplate d + a)) ∧
          ∀ j, holds j a → (∀ j', j < j' → ¬holds j' a) →
            m'.byte (slAddr old + a) = (bytesOfNat 4 (paramWord (param j)
              (((s.ch c).draw (s.ch c).run.leg).at (slStream old) (paramPos ep (slRdesc old) j))).toNat).getD (a - paOff (param j)) 0) ∧
        (∀ a, (a < i.slotAt n ∨ i.slotAt n + 32 ≤ a) → (a < slAddr old ∨ slAddr old + slLen old ≤ a) → m'.byte a = m.byte a) ∧
        m'.worldResets = m.worldResets + 1))) ∧
  (∀ (v : Nat) (done : W32), v < 2 ^ 256 →
    let r := endSlot v done
    let fin := isNan32 done = true ∨ isZero32 done = false
    (slActive v = false → r.1 = v ∧ r.2.1 = 0 ∧ r.2.2.1 = 0) ∧
    (slActive v = true → slReset v = true → r.1 = v ∧ r.2.1 = one32 ∧ r.2.2.1 = if slTermLast v then one32 else 0) ∧
    (slActive v = true → slReset v = false →
      slStep r.1 = (slStep v + 1) % 2 ^ 32 ∧ bits r.1 255 192 = bits v 255 192 ∧ bits r.1 159 103 = bits v 159 103 ∧
        bits r.1 100 0 = bits v 100 0 ∧
      (fin → slReset r.1 = true ∧ slTermLast r.1 = true ∧ r.2.1 = one32 ∧ r.2.2.1 = one32) ∧
      (¬fin → slLimit v ≠ 0 → slLimit v ≤ slStep v + 1 →
        slReset r.1 = true ∧ slTermLast r.1 = false ∧ r.2.1 = one32 ∧ r.2.2.1 = 0) ∧
      (¬fin → slLimit v = 0 ∨ slStep v + 1 < slLimit v →
        slReset r.1 = false ∧ slTermLast r.1 = slTermLast v ∧ r.2.1 = 0 ∧ r.2.2.1 = 0)))

/-- RECORD copies into the ring and ADVANCE moves its HEAD: A RECORD that stands ready with unpoisoned source copies, for every group and
word, 64 lanes (256 bytes) from tender into the ring at the ring's HEAD, and writes no other byte. An ADVANCE that stands ready moves
HEAD one step round DEPTH, raises FILL by 1 up to DEPTH, raises WRAPS by 1 when HEAD returns to 0, and changes no other field of the
ring record and no byte outside it. Rests on R180, R181, R185. -/
def Obligations.record_and_advance_keep_the_ring : Prop :=
  (∀ (w : At) (s0 : State) (e : QCar) (i : Image) (v ring : Nat), let s := s0.meet w; s.worldReady w 3 e i v ring →
    let k := w.cl.val
    let src := tenderAt k (woTaddr v)
    let n := woGroups v * woCount v
    let dst := fun j => ringAddr ring (woFirstWord v + j % woCount v) ((woFirst v - rgFirst ring) / 64 + j / woCount v) (rgHead ring) 0
    (s.ch w.ch).mem.poisonAmong [(src, n * 256)] = none →
    ∃ t, exec (.record w) s0 = .next t ∧ s.worldRun t w e ∧
      (∀ j b, j < n → b < 256 → (t.ch w.ch).mem.byte (dst j + b) = (s.ch w.ch).mem.byte (src + 256 * j + b)) ∧
      (∀ a, (∀ j, j < n → a < dst j ∨ dst j + 256 ≤ a) → (t.ch w.ch).mem.byte a = (s.ch w.ch).mem.byte a)) ∧
  (∀ (w : At) (s0 : State) (e : QCar) (i : Image) (v ring : Nat), let s := s0.meet w; s.worldReady w 4 e i v ring →
    let a := i.ringAt (woRing v)
    ∃ t, exec (.advance w) s0 = .next t ∧ s.worldRun t w e ∧
      (let r := (t.ch w.ch).mem.nat a 32
       rgHead r = (rgHead ring + 1) % rgDepth ring ∧ rgFill r = min (rgFill ring + 1) (rgDepth ring) ∧
       rgWraps r = (if (rgHead ring + 1) % rgDepth ring = 0 then (rgWraps ring + 1) % 2 ^ 32 else rgWraps ring) ∧
       bits r 255 96 = bits ring 255 96) ∧
      (∀ b, b < a ∨ a + 32 ≤ b → (t.ch w.ch).mem.byte b = (s.ch w.ch).mem.byte b))

/-- REFETCH_DONE repeats the MOVE and runs the matrix product: A refetch whose repeated MOVE has its data at hand writes the destination of
that MOVE for the missed blocks and then runs the matrix product with the true half of its map; the refetch of the engine is over. With
no MOVE to repeat (a reading, log entry 63), the product runs on memory as it stands. Rests on R84, R85, R216. -/
def Obligations.a_refetch_runs_the_matrix_product : Prop :=
  ∀ (w : At) (eng : Fin 4) (s0 : State) (f : Refetch),
    let s := s0.meet w
    let x := s.ch w.ch
    let k := w.cl.val
    let r := tileRecOf (x.mem.nat (tenderAt k (Car.setAddr f.q.car)) 32) (Car.op f.q.car) (x.substOf f.q)
    let runs := fun (m : Memory) => let blocks := includedBlocks m k r 0 (Car.kBlocks f.q.car)
      m.poisonAmong (tileReads k f.q.car r blocks) = none →
      ∃ t, exec (.refetchDone w eng) s0 = .next t ∧ t.besides w.ch = s.besides w.ch ∧ t.clock = s.clock ∧ t.m = s.m ∧
        (let cl := t.cluster w.ch k
         cl = { x.run.cluster k with refetch := Tab.put none (x.run.cluster k).refetch eng.val none, chains := cl.chains
                                     cycles := cl.cycles, zsPred := cl.zsPred, zsLost := cl.zsLost }) ∧
        (∀ j, j ≠ k → (t.ch w.ch).run.cluster j = x.run.cluster j) ∧
        (t.ch w.ch).run = { x.run with clusters := (t.ch w.ch).run.clusters, posts := x.run.posts ++ postOf x.run.nextId k f.q.car
                                       nextId := x.run.nextId + 1, progressAt := s.count, activeAt := s.count, firstIssued := true } ∧
        t.ch w.ch = { x with run := (t.ch w.ch).run, watch := (t.ch w.ch).watch, mem := (t.ch w.ch).mem, host := (t.ch w.ch).host } ∧
        (x.mem.depotSize = 0 → t.out = s.out ∧ (t.ch w.ch).host = x.host) ∧ (t.ch w.ch).mem.restW = x.mem.restW ∧
        t.data w = ((s.onMem w.ch (fun _ => m)).runMatmul w.ch k f.q r blocks).data w
    x.ctl.st = .running → (x.sup.region (regionOf k)).st = .on → x.run.stops = [] →
    Tab.get none (x.run.cluster k).refetch eng.val = some f →
    (Tab.get none (x.run.cluster k).lastNz r.nzAddr = none → runs x.mem) ∧
    ∀ d, dMode d.1 = 0 → Tab.get none (x.run.cluster k).lastNz r.nzAddr = some d → s.moveAtHand w (f.move d) →
      runs (s.moved w (f.move d))

/-- CROWSNEST_CHECK compares the oldest check: The oldest check leaves the list with its uncounted cells counted, and memory keeps its
contents; with no cell in mismatch nothing else of the watch changes and nothing is logged; with one, the mismatch is recorded against
both engines with the training step, and the occurrence of a span has cause C and the pair of engines, its entry to come with the
verdict; a mismatch outside a span is logged at once (0x0503). Rests on R135, R136. -/
def Obligations.the_crows_nest_compares_the_oldest_check : Prop :=
  ∀ (c : Ch) (wrong : List (Nat × W32)) (s : State) (q : Check) (rest : List Check),
    let x := s.ch c
    let acc := fun i => match wrong.find? (fun p => p.1 == i) with | some p => p.2 | none => Tab.get 0 q.acc i
    let bad := ∃ i ∈ q.cells, i ∉ q.free ∧ crowMismatch (acc i) (Tab.get 0 q.ref i) (Tab.get 0 q.limit i) = true
    x.watch.checks = q :: rest → x.run.stops = [] →
    ∃ t, exec (.crowsnestCheck c wrong) s = .next t ∧ t.besides c = s.besides c ∧ t.clock = s.clock ∧
      (t.ch c).watch.checks = rest ∧ (t.ch c).watch.unchecked = (x.watch.unchecked + q.free.length) % 2 ^ 32 ∧
      (t.ch c).mem = x.mem ∧
      (¬bad → t.m = s.m ∧ t.freeNo = s.freeNo ∧
        t.ch c = { x with run := { x.run with activeAt := s.count },
                          watch := { x.watch with checks := rest, unchecked := (t.ch c).watch.unchecked } }) ∧
      (bad →
        let marked := (x.watch.against q.sampled x.run.ticketStep).against q.checker x.run.ticketStep
        (t.ch c).watch.suspect = marked.suspect ∧ (q.occ = none → s.logged t c 0x0503) ∧
        (q.occ ≠ none → t.m = s.m ∧ t.freeNo = s.freeNo ∧ t.ch c = { x with
          run := { x.run with activeAt := s.count }, watch := (t.ch c).watch }) ∧
        ∀ n o, q.occ = some n → x.watch.occ? q.layer n = some o →
          (t.ch c).watch.occ? q.layer n = some { o with
            causeC := true, mismatched := o.mismatched ++ [(q.sampled, q.checker)]
            suspect := o.suspect || decide (2 ≤ (Tab.get (0, 0) marked.suspect q.sampled).2) ||
              decide (2 ≤ (Tab.get (0, 0) marked.suspect q.checker).2) })

/-- SIGNAL_ADD and SIGNAL_WAIT: A valid ADD at the read point, its common wait satisfied, adds AMOUNT to TARGET_SIG modulo 2^16 and to no
other signal, is passed, and has its post pending. A WAIT raises the target of its signal by AMOUNT; it is passed, with its post pending
and no count changed, when that target is satisfied, and stays, changing nothing, while it is not. Rests on R153, R156, R157, R159. -/
def Obligations.signal_cars_add_and_wait : Prop :=
  ∀ (w : At) (s0 : State) (car : Car), let s := s0.meet w; s.carReady w car → Car.cls car = 4 →
    signalInvalid ((s.ahead w).cluster w.ch w.cl.val) car = none →
    let k := w.cl.val
    let sig := Car.get car 90 79
    let amount := Car.get car 78 67
    let cl := (s.waits w car).1
    (Car.func car = 0 →
      ∃ t, exec (.signalAdd w) s0 = .next t ∧ s.onlyRun t w ∧ s.runDone t w car ∧
        t.cluster w.ch k = { cl with pos := cl.pos + 1, inst := cl.inst + 1, sigs := (t.cluster w.ch k).sigs } ∧
        ∀ n, (t.ch w.ch).sigCount k n = (s.ch w.ch).sigCount k n + if n = sig then BitVec.ofNat 16 amount else 0) ∧
    (Car.func car = 1 →
      let r := cl.raise sig amount
      ((s.seen w).waitMet k r.2 = true →
        ∃ t, exec (.signalWait w) s0 = .next t ∧ s.onlyRun t w ∧ s.runDone t w car ∧
          (t.ch w.ch).run.sigs = (s.ch w.ch).run.sigs ∧
          t.cluster w.ch k = { r.1 with pos := r.1.pos + 1, inst := r.1.inst + 1 }) ∧
      ((s.seen w).waitMet k r.2 = false → exec (.signalWait w) s0 = .next s))

/-- LEG, LOOP, ENDLOOP and NOP move the read point: At the read point, a LEG of the current leg and a NOP are passed; a LOOP opens a loop
whose body starts after it; an ENDLOOP goes back to the body of the innermost loop until it has been read ITER + 1 times and then leaves
the loop. Of the run only the position, loop counters and the note of activity change. A LEG of another leg stops the read point. Rests
on R154, R155, R159. -/
def Obligations.control_cars_move_the_read_point : Prop :=
  ∀ (w : At) (s0 : State) (car : Car), let s := s0.meet w; s.pointAt w car → Car.cls car = 6 →
    let cl := (s.ahead w).cluster w.ch w.cl.val
    let done := fun (i : Instr) (cl' : Cluster) (first : Bool) =>
      ∃ t, exec i s0 = .next t ∧ s.onlyRun t w ∧ s.runPassed t w first ∧ t.cluster w.ch w.cl.val = cl'
    (Car.func car = 0 → Car.get car 90 85 = (s.ch w.ch).run.leg →
      done (.leg w) { cl with pos := cl.pos + 1, inst := cl.inst + 1 } true) ∧
    (Car.func car = 0 → Car.get car 90 85 ≠ (s.ch w.ch).run.leg → exec (.leg w) s0 = .next s) ∧
    (Car.func car = 1 →
      done (.loop w) { cl with pos := cl.pos + 1,
                               loops := { body := cl.pos + 1, last := Car.get car 90 67, iter := 0 } :: cl.loops } false) ∧
    (Car.func car = 2 → ∀ f l, cl.loops = f :: l →
      (f.iter < f.last → done (.endloop w) { cl with pos := f.body, loops := { f with iter := f.iter + 1 } :: l } false) ∧
      (f.last ≤ f.iter → done (.endloop w) { cl with pos := cl.pos + 1, loops := l } false)) ∧
    (Car.func car = 4 → done (.nop w) { cl with pos := cl.pos + 1, inst := cl.inst + 1 } false)

/-- MARK opens a span: A MARK whose occurrence is not yet known to the watch, with a COMMIT ahead and fewer than 64 occurrences, opens the
occurrence named by that COMMIT at the layer's rung with the counts of the signal range recorded, and the consist stands in the span,
past the MARK. Rests on R165, R166, R126. -/
def Obligations.a_mark_opens_its_span : Prop :=
  ∀ (w : At) (s0 : State) (car : Car) (cp : Nat), let s := s0.meet w; s.pointAt w car → Car.cls car = 6 → Car.func car = 3 →
    let x := s.seen w
    let k := w.cl.val
    let cl := (s.ahead w).cluster w.ch k
    let layer := Car.get car 90 79
    let lo := Car.get car 78 67
    let hi := Car.get car 66 55
    let occ := (Car.get (x.carAt k cp) 78 63 + Tab.get 0 cl.issued cp) % 2 ^ 16
    commitAhead x k ((x.consist k).2 - cl.pos) (cl.pos + 1) = some cp → x.watch.occ? layer occ = none → x.watch.occs.length < 64 →
    ∃ t, exec (.mark w) s0 = .next t ∧ t.elsewhere w.ch = s.elsewhere w.ch ∧
      t.ch w.ch = { s.ch w.ch with run := (t.ch w.ch).run, watch := (t.ch w.ch).watch } ∧ s.runPassed t w false ∧
      (∀ j, j ≠ k → (t.ch w.ch).run.cluster j = (s.ch w.ch).run.cluster j) ∧
      (∃ o, (t.ch w.ch).watch = { x.watch with occs := x.watch.occs ++ [o] } ∧ o.layer = layer ∧ o.occ = occ ∧ o.pass = 0 ∧
        o.rung = (x.watch.layer layer).rung ∧ o.sigLo = lo ∧ o.sigHi = hi ∧ o.reports = [] ∧
        o.saved = x.run.sigs.filter (fun p => decide (lo ≤ p.1 ∧ p.1 ≤ hi)) ∧
        o.savedLocal = [(k, cl.sigs.filter (fun p => decide (lo ≤ p.1 ∧ p.1 ≤ hi)))]) ∧
      ∃ sp, t.cluster w.ch k = { cl with pos := cl.pos + 1, inst := cl.inst + 1, span := some sp } ∧ sp.markPos = cl.pos ∧
        sp.ref.layer = layer ∧ sp.ref.occ = occ ∧ sp.ref.pass = 0 ∧ sp.ref.rung = (x.watch.layer layer).rung ∧
        sp.sigLo = lo ∧ sp.sigHi = hi ∧ sp.loops = cl.loops

/-- COMMIT reports once its span is done: A valid COMMIT at the read point of a span in its first pass, with no earlier COMMIT of the
consist waiting, leaves the span and counts an issue of its car; it reports to the watch when every earlier car of the span has
completed, and waits among the COMMITs of its cluster when not. Rests on R114, R117. -/
def Obligations.a_commit_reports_when_its_span_is_done : Prop :=
  ∀ (w : At) (s0 : State) (car : Car) (p : OpenSpan) (o : Occ), let s := s0.meet w; s.carReady w car → Car.cls car = 7 →
    let x := s.seen w
    let k := w.cl.val
    let cl := (s.ahead w).cluster w.ch k
    let report : Report := { cl := k, car := car, span := p }
    let done := (s.waits w car).1.spanDone k (s.ch w.ch).run.posts p
    cl.span = some p → x.watch.occ? p.ref.layer p.ref.occ = some o → watchInvalid cl car (some o) (x.reportsDue p) = none →
    p.ref.pass = 0 → cl.replays = [] → cl.commits = [] →
    ∃ t, exec (.commit w) s0 = .next t ∧ t.elsewhere w.ch = s.elsewhere w.ch ∧ s.runPassed t w false ∧
      (∀ j, j ≠ k → (t.ch w.ch).run.cluster j = (s.ch w.ch).run.cluster j) ∧
      (let c' := t.cluster w.ch k
       let c0 := (s.waits w car).1
       c' = { c0 with pos := c0.pos + 1, span := none, issued := c'.issued,
                      commits := if done then [] else [{ car := car, pos := c0.pos, span := p }] } ∧
       Tab.get 0 c'.issued cl.pos = Tab.get 0 cl.issued cl.pos + 1 ∧
       ∀ n, n ≠ cl.pos → Tab.get 0 c'.issued n = Tab.get 0 cl.issued n) ∧
      (t.ch w.ch).watch.occ? p.ref.layer p.ref.occ = some { o with parts := some (Car.get car 62 54),
                                                                   reports := o.reports ++ if done then [report] else [] }

/-- POST adds 1 to its signal: On a RUNNING channel that nothing has stopped, a pending post whose car's effects are all complete and
visible adds 1 to its signal modulo 2^16 and to no other, and leaves the pending posts; while anything of its car is outstanding it
changes nothing. Rests on R156, R158. -/
def Obligations.a_post_adds_one_to_its_signal : Prop :=
  ∀ (c : Ch) (slot : Nat) (s : State) (p : PendPost),
    let x := s.ch c
    x.ctl.st = .running → x.run.stops = [] → x.run.posts[slot]? = some p →
    (x.postReady p.id = true →
      ∃ t, exec (.post c slot) s = .next t ∧ t.elsewhere c = s.elsewhere c ∧
        t.ch c = { x with run := (t.ch c).run, mem := { x.mem with farOps := (t.ch c).mem.farOps } } ∧
        (t.ch c).run = { x.run with posts := x.run.posts.take slot ++ x.run.posts.drop (slot + 1), clusters := (t.ch c).run.clusters,
                                    sigs := (t.ch c).run.sigs, progressAt := s.count, activeAt := s.count } ∧
        (∀ n, (t.ch c).sigCount p.cl n = x.sigCount p.cl n + if n = p.sig then 1 else 0) ∧
        (∀ j n, j ≠ p.cl → n < 256 → (t.ch c).sigCount j n = x.sigCount j n) ∧
        (∀ j, (t.ch c).run.cluster j = { x.run.cluster j with sigs := ((t.ch c).run.cluster j).sigs })) ∧
    (x.postReady p.id = false → exec (.post c slot) s = .next s)

/-- LEG_BOUNDARY starts the next leg: When the leg of a loaded image is done, the boundary sets the leg to the next one, or to 0 with every
read point at the start and one more iteration after the last; every signal, target and loop counter is cleared; the leg's time is
recorded; TSTEP rises by 1 exactly after a leg marked as a step end; and the committed occurrences and the yard's comparison copies of
delivered segments, their sums complete, are gone. With DIVERGENCE_HOLD set, a divergence of a delivered segment holds the channel with
YARD_DIVERGENCE, not resumable. Otherwise a channel that has finished its last iteration is READY, one asked to hold is in HOLD with
HOLD_REQUESTED, and any other RUNNING. Rests on R123, R149, R162, R263. -/
def Obligations.a_leg_boundary_starts_the_next_leg : Prop :=
  ∀ (c : Ch) (s : State) (i : Image),
    let x := s.ch c
    let last := x.run.leg + 1 = i.legCount
    let n := (x.run.iteration + 1) % 2 ^ 32
    x.run.image = some i → x.legDone = true →
    ∃ t, exec (.legBoundary c) s = .next t ∧ t.besides c = s.besides c ∧ t.clock = s.clock ∧
      (t.ch c).run.image = some i ∧ (t.ch c).run.leg = (if last then 0 else x.run.leg + 1) ∧
      (t.ch c).run.iteration = (if last then n else x.run.iteration) ∧
      (t.ch c).run.legElapsed = x.run.legElapsed.set x.run.leg (s.count - x.run.legStart) ∧ (t.ch c).run.legStart = s.count ∧
      (t.ch c).run.ticketStep = (if i.stepEnd.testBit x.run.leg then x.run.ticketStep + 1 else x.run.ticketStep) ∧
      (∀ j sig, (t.ch c).sigCount j sig = 0) ∧
      (∀ j, ((t.ch c).run.cluster j).targets = [] ∧ ((t.ch c).run.cluster j).loops = []) ∧
      (last → ∀ j, ((t.ch c).run.cluster j).pos = 0) ∧
      (t.ch c).watch.committed = [] ∧
      (∀ q ∈ (t.ch c).yard.chunks, x.yard.ends q.seg q.owner q.chunk = false) ∧
      (∀ q ∈ (t.ch c).yard.quads, x.yard.ends q.seg q.owner q.chunk = false) ∧
      (x.yard.divergenceHold = true → x.yard.diverged.any (fun e => x.yard.delivered.contains e.1) = true →
        (t.ch c).heldFor 0x110) ∧
      (x.yard.divergenceHold = false ∨ x.yard.diverged = [] →
        ((last ∧ i.iterations ≠ 0 ∧ n = i.iterations) → (t.ch c).ctl.st = .ready) ∧
        (¬(last ∧ i.iterations ≠ 0 ∧ n = i.iterations) → x.run.holdRequested = true →
          (t.ch c).ctl.st = .hold ∧ (t.ch c).run.holdStatus = 0x101 ∧ (t.ch c).run.resumable = true) ∧
        (¬(last ∧ i.iterations ≠ 0 ∧ n = i.iterations) → x.run.holdRequested = false → (t.ch c).ctl.st = .running))

/-- SIGNAL_DEADLOCK and SIGNAL_STALL hold the channel: A RUNNING channel that has stood still for 1,024 counts, not at a leg boundary and
with nothing in its yard, is held with SIGNAL_DEADLOCK; one that has completed no car for STALL_LIMIT counts, STALL_LIMIT non-zero, is
held with SIGNAL_STALL. The entry of the cause and then, in increasing cluster number, one 0x0602 entry for every consist that is not
empty, with its cluster, the offset of its read point and the signal waited on, are logged. Neither hold is resumable; the rest of the run
and memory stand as they were. Before the time has passed nothing changes. Rests on R160, R373. -/
def Obligations.a_channel_that_stands_still_holds : Prop :=
  ∀ (c : Ch) (s : State),
    let x := s.ch c
    let held := fun (i : Instr) (code : Nat) =>
      ∃ t, exec i s = .next t ∧ t.besides c = s.besides c ∧ t.clock = s.clock ∧ t.m = s.m ∧ (t.ch c).ctl.st = .hold ∧
        (t.ch c).run = { x.run with holdStatus := code, resumable := false, stops := [], holdRequested := false } ∧
        (t.ch c).mem.store = x.mem.store ∧ (t.ch c).ctl.logNext = (x.ctl.logNext + 1 + x.live.length) % 2 ^ 32 ∧
        (t.ch c).ctl.log = (x.live.map (readPointEntry x s.count)).foldl (fun l e => lastN 4096 (logPlace e l))
          (lastN 4096 (logPlace { count := s.count, source := 0, code := code, param := paramBytes [], order := 0 } x.ctl.log))
    (x.ctl.st = .running → x.run.stops = [] → x.quiet = true → x.yardIdle = true → x.legDone = false →
      (x.run.activeAt + 1024 ≤ s.count → held (.signalDeadlock c) 0x108) ∧
      (s.counting = true → s.count < x.run.activeAt + 1024 → exec (.signalDeadlock c) s = .next s)) ∧
    (x.ctl.st = .running → x.run.stallLimit ≠ 0 →
      (x.run.progressAt + x.run.stallLimit ≤ s.count → held (.signalStall c) 0x109) ∧
      (s.counting = true → s.count < x.run.progressAt + x.run.stallLimit → exec (.signalStall c) s = .next s))

/-- VERDICT follows Table 05-5: On an occurrence of a RUNNING channel with all its reports and checks in, with r its rung and CEIL the
layer's ceiling, the first row of Table 05-5 that matches decides: suspect holds with ENGINE_SUSPECT; cause T on a replay that an
earlier cause T ordered holds with TELLTALE_REPEAT; cause O or T holds with LAYER_CEILING at CEIL and replays at r + 1 below it; cause C
alone replays relocated, at r + 1 below CEIL and at r at it; no cause commits. First 0x0503 is logged for each mismatch of the pass. A
replay then logs 0x0501 and starts the next pass with its reports and counts cleared, marked when cause T ordered it; a hold logs 0x0502,
removes the occurrence and stops the channel; either entry records every cause of the pass; a commit removes the occurrence, notes it for
the leg's averages, leaves the posts of its COMMIT cars to be made and logs nothing more. Memory, the clock and the other channels are as
they were. States R124. -/
def Obligations.the_verdict_follows_its_table : Prop :=
  ∀ (c : Ch) (layer occ : Nat) (s : State) (o : Occ),
    let x := s.ch c
    let r := o.rung
    let ceil := recCeil (x.layerRec layer)
    let sat := o.counts.overflow ≠ 0
    let tell := (telltales x o).1 ≠ 0
    let causes := (if sat then 1 else 0) + (if tell then 2 else 0) + (if o.causeC then 4 else 0) + (telltales x o).1
    x.watch.occ? layer occ = some o → o.ready x.watch = true → x.ctl.st = .running → x.run.stops = [] →
    ∃ t, exec (.verdict c layer occ) s = .next t ∧ t.besides c = s.besides c ∧ t.clock = s.clock ∧ (t.ch c).mem.store = x.mem.store ∧
      (let first := ((s.logMismatches c o (gaugeNow o x.run.ticketStep)).ch c).ctl
       let entered := fun (l : List LogEntry) (code : Nat) => ∃ e, l = lastN 4096 (logPlace e first.log) ∧ e.code = code ∧
         e.count = s.count ∧ e.param.getD 12 0 = BitVec.ofNat 8 causes
       let mismatches := first.logNext = (x.ctl.logNext + o.mismatched.length) % 2 ^ 32 ∧
         ∀ y ∈ first.log, y ∈ x.ctl.log ∨ (y.code = 0x0503 ∧ y.count = s.count)
       let holds := fun (code : Nat) => (t.ch c).watch.occ? layer occ = none ∧ (t.ch c).stoppedFor code ∧
         ∃ l, entered l 0x0502 ∧ ((t.ch c).ctl.log = l ∨ ∃ f, (t.ch c).ctl.log = lastN 4096 (logPlace f l) ∧ f.code = code)
       let replays := fun (rung : Nat) (relocated : Bool) => entered (t.ch c).ctl.log 0x0501 ∧ (t.ch c).run.posts = x.run.posts ∧
         ∃ p, (t.ch c).watch.occ? layer occ = some p ∧ p.pass = o.pass + 1 ∧ p.rung = rung ∧ p.startRung = o.startRung ∧
           p.reports = [] ∧ p.contribs = [] ∧ p.counts = {} ∧ p.causeC = false ∧ (p.toldT = true ↔ tell) ∧
           p.moved = (if relocated then o.moved ++ o.mismatched else o.moved)
       let commits := t.freeNo = s.freeNo ∧ (t.ch c).ctl = first ∧ (o.mismatched = [] → t.m = s.m ∧ first = x.ctl) ∧
         (t.ch c).watch.occ? layer occ = none ∧
         (t.ch c).run.clusters = x.run.clusters ∧
         (t.ch c).run.posts.map (fun p => (p.cl, p.sig)) = x.run.posts.map (fun p => (p.cl, p.sig)) ++
           (o.reports.filter (fun p => Car.postEn p.car)).map (fun p => (p.cl, Car.postSig p.car)) ∧
         (t.ch c).watch.committed.length = x.watch.committed.length + 1
       (x.ctl.logNext < 2 ^ 32 → mismatches) ∧
       (o.suspect = true → holds 0x105) ∧
       (o.suspect = false → tell → o.toldT = true → holds 0x104) ∧
       (o.suspect = false → ¬(tell ∧ o.toldT = true) →
         (sat ∨ tell → r = ceil → holds 0x103) ∧
         (sat ∨ tell → r < ceil → replays (r + 1) false) ∧
         (¬(sat ∨ tell) → o.causeC = true → r < ceil → replays (r + 1) true) ∧
         (¬(sat ∨ tell) → o.causeC = true → r = ceil → replays r true) ∧
         (¬(sat ∨ tell) → o.causeC = false → commits)))

/-- CONTRIBUTE writes the accumulator and enters the leaves: A ready CONTRIBUTE of AMODE START sets every accumulator element to the widened
gradient, and one of AMODE ADD to its FP32 sum with it; every byte outside the accumulator and every register keeps its value, and the
car is passed with its post pending. A ready CONTRIBUTE of AMODE FINAL or ONLY forms the leaf of every element, the gradient (FINAL: its
sum with the accumulator) narrowed to BF16 by SR with the ticket of its position; with more than one rank, the leaves of every slice
whose level-1 node is on this channel stand in the yard at level 0, the LEAF, PAIR and QUAD credits of the segment join those to be
issued in the order of consumption, memory is unchanged, and the car is passed with its post pending. Rests on R252, R253, R256, R261. -/
def Obligations.contribute_accumulates_and_enters_leaves : Prop :=
  (∀ row ∈ [(Instr.contributeStart, 1, false), (.contributeAdd, 2, true)], ∀ (w : At) (s0 : State) (car : Car) (i : Image),
    let s := s0.meet w
    s.yardReady w 0 row.2.1 car i →
    let m := (s.ch w.ch).mem
    let v := i.seg (Car.segNo car)
    contributePoison m v row.2.2 = none →
    ∃ t, exec (row.1 w) s0 = .next t ∧ t.besides w.ch = s.besides w.ch ∧ t.clock = s.clock ∧ t.m = s.m ∧ t.freeNo = s.freeNo ∧
      s.depotOnly t w.ch ∧ s.runDone t w car ∧ s.pastCar t w car ∧
      (∀ j, j ≠ w.cl.val → (t.ch w.ch).run.cluster j = (s.ch w.ch).run.cluster j) ∧
      t.ch w.ch = { s.ch w.ch with run := (t.ch w.ch).run, mem := (t.ch w.ch).mem, host := (t.ch w.ch).host } ∧
      (∀ j, j < sgElems v → accAt (t.ch w.ch).mem v j = if row.2.2 then add32 (accAt m v j) (gradAt m v j) else gradAt m v j) ∧
      (∀ a, a < sgAcc v ∨ sgAcc v + 4 * sgElems v ≤ a → (t.ch w.ch).mem.byte a = m.byte a)) ∧
  (∀ row ∈ [(Instr.contributeFinal, 3, true), (.contributeOnly, 0, false)], ∀ (w : At) (s0 : State) (car : Car) (i : Image),
    let s := s0.meet w
    s.yardReady w 0 row.2.1 car i → i.height ≠ 0 →
    let x := s.ch w.ch
    let n := Car.segNo car
    let v := i.seg n
    let g := fun j => if row.2.2 then add32 (accAt x.mem v j) (gradAt x.mem v j) else gradAt x.mem v j
    contributePoison x.mem v row.2.2 = none →
    ∃ t, exec (row.1 w) s0 = .next t ∧ t.besides w.ch = s.besides w.ch ∧ t.clock = s.clock ∧ t.m = s.m ∧ s.runDoneLater t w car ∧
      s.pastCar t w car ∧ (∀ j, j ≠ w.cl.val → (t.ch w.ch).run.cluster j = x.run.cluster j) ∧
      t.ch w.ch = { x with run := (t.ch w.ch).run, yard := (t.ch w.ch).yard, watch := (t.ch w.ch).watch, hub := (t.ch w.ch).hub } ∧
      (t.ch w.ch).yard.toCredit = (i.creditsFor x.rank n [1, 2, 3]).foldl i.placeCredit x.yard.toCredit ∧
      ∀ o ∈ i.owners, ∀ ch ∈ i.chunks n, ch ≠ statsChunk → chanOf x.rank = leafCh (chanOf x.rank) (chanOf o) →
        ∃ u ∈ (t.ch w.ch).yard.vals, u.seg = n ∧ u.owner = o ∧ u.chunk = ch ∧ u.level = 0 ∧ u.pos = i.leafRank x.rank ∧
          ∀ q, q < i.chunkElems n ch →
            let j := i.ownerIndex o * i.sliceLen n + ch * i.chunkLen + q
            j < sgElems v → u.vals.getD q 0 =
              BitVec.ofNat 32 ((narrowOne .bf16 (.sr ((x.draw x.run.leg).u16 0x10000002 (i.leafRank x.rank * 2 ^ 40 + (sgOffset v + j))))
                (decode32 (g j))).1 * 65536))

/-- DELIVER, PUBLISH and AWAIT act and complete: With no other such car held: a ready DELIVER asks for its ROOT credits; with its root sums
all there it writes each chunk at its place in SUM_ADDR and has its post pending, and it is held without a write while one is missing. A
ready PUBLISH of a rank that leads its own leaf, its OWN_ADDR unpoisoned, notes each chunk as written, and each is sent, or waits for its
credit to be sent, to the head of every other module; on a backup rank it changes nothing but its own completion. A ready AWAIT of a
segment without the statistics record asks for its COPY and SPREAD credits; it has its post pending once every slice has been written, and
is held while one is missing. Rests on R254, R256, R260, R261. -/
def Obligations.deliver_publish_and_await_complete : Prop :=
  ∀ (w : At) (s0 : State) (car : Car) (i : Image),
    let s := s0.meet w
    let x := s.ch w.ch
    let n := Car.segNo car
    let v := i.seg n
    let owner := i.leafRank x.rank
    let roots := x.yard.roots.filter (fun u => u.seg == n && u.owner == owner)
    let asked := fun (kinds : List Nat) =>
      { x.yard with toCredit := (i.creditsFor x.rank n kinds).foldl i.placeCredit x.yard.toCredit
                    progressAt := if x.yard.waits then x.yard.progressAt else s.count }
    let held := fun (t : State) (kinds : List Nat) => t.elsewhere w.ch = s.elsewhere w.ch ∧ s.pastCar t w car ∧
      (t.ch w.ch).yard = { asked kinds with cars := x.yard.cars ++ [s.heldCar w car] } ∧ (t.ch w.ch).run.posts = x.run.posts ∧
      (t.ch w.ch).mem = x.mem
    (s.yardReady w 1 0 car i → (∀ q ∈ x.yard.cars, q.func ≠ 1 ∧ q.id ≠ x.run.nextId) →
      let all := (i.chunks n).all (fun ch => roots.any (fun u => u.chunk == ch))
      ∃ t, exec (.deliver w) s0 = .next t ∧
        (all = false → held t [4]) ∧
        (all = true → t.besides w.ch = s.besides w.ch ∧ t.clock = s.clock ∧ t.m = s.m ∧ s.depotOnly t w.ch ∧ s.runDone t w car ∧
          s.pastCar t w car ∧
          (t.ch w.ch).yard = { asked [4] with roots := x.yard.roots.filter (fun u => !(u.seg == n && u.owner == owner))
                                              delivered := x.yard.delivered ++ [n] } ∧
          ((∀ u ∈ roots, u.vals.length ≤ i.chunkLen) → (roots.map (·.chunk)).Nodup →
            (∀ u ∈ roots, ∀ q, q < u.vals.length →
              (t.ch w.ch).mem.nat (sgSum v + 4 * u.chunk * i.chunkLen + 4 * q) 4 = (u.vals.getD q 0).toNat) ∧
            ∀ a, (∀ u ∈ roots, a < sgSum v + 4 * u.chunk * i.chunkLen ∨ sgSum v + 4 * u.chunk * i.chunkLen + 4 * u.vals.length ≤ a) →
              (t.ch w.ch).mem.byte a = x.mem.byte a))) ∧
    (s.yardReady w 2 0 car i → (∀ q ∈ x.yard.cars, q.func ≠ 3) →
      (owner ≠ x.rank → ∃ t, exec (.publish w) s0 = .next t ∧ s.onlyRun t w ∧ s.runDone t w car ∧ s.pastCar t w car) ∧
      (owner = x.rank → ownPoison x.mem i n = none → (∀ ch ∈ i.chunks n, ch ≠ statsChunk) →
        ∃ t, exec (.publish w) s0 = .next t ∧ t.besides w.ch = s.besides w.ch ∧ t.clock = s.clock ∧ t.m = s.m ∧
          s.runDoneLater t w car ∧ s.pastCar t w car ∧
          (t.ch w.ch).yard.slices = x.yard.slices ++ (i.chunks n).map (fun ch => (n, (x.rank, ch))) ∧
          ∀ ch ∈ i.chunks n, ∀ m, m < i.modules → m ≠ x.rank / 4 →
            let dst := 4 * m + chanOf x.rank
            let data := ownChunk x.mem i n ch
            (∃ o ∈ (t.ch w.ch).yard.outbox, o.dst = dst ∧ o.kind = 5 ∧ o.seg = n ∧ o.owner = x.rank ∧ o.chunk = ch ∧ o.data = data) ∨
            (∃ g ∈ (t.ch w.ch).hub.msgsOut, g.yard = some data ∧ g.head.dstRank = dst ∧ g.head.tag = yardTag 5 x.rank ∧
              ∃ slot, g.head.msg = yardMsg n ch slot))) ∧
    (s.yardReady w 3 0 car i → (∀ q ∈ x.yard.cars, q.func ≠ 3 ∧ q.id ≠ x.run.nextId) → i.statsSeg ≠ n →
      let all := i.owners.all (fun o => (i.chunks n).all (fun ch => x.yard.written n o ch))
      ∃ t, exec (.await w) s0 = .next t ∧ (all = false → held t [5, 6]) ∧
        (all = true → t.elsewhere w.ch = s.elsewhere w.ch ∧ s.runDone t w car ∧ s.pastCar t w car ∧ (t.ch w.ch).mem = x.mem ∧
          (t.ch w.ch).yard = { asked [5, 6] with slices := x.yard.slices.filter (fun e => e.1 != n)
                                                 exchanges := (t.ch w.ch).yard.exchanges }))

/-- Yard messages bring their values: A data message that comes whole against its credit uses the credit and: LEAF and PAIR keep its words
in the yard at level 0 and level 1 in the message's slot; QUAD of a leaf module with no backup, in bit-exact mode, keeps its words at
level 2 and starts the chunk's deadline clock if it does not run; ROOT keeps the sums for DELIVER; COPY and SPREAD note the chunk as
written and write the bytes of an FP32 chunk at its place in PCOPY_ADDR. A CREDIT, with nothing waiting to be sent, adds the right to
send one message. Rests on R254, R260, R261, R262. -/
def Obligations.yard_messages_bring_their_values : Prop :=
  ∀ (c : Ch) (m : YardMsg) (s : State) (i : Image) (q : YardCredit),
    let x := s.ch c
    let val := fun level pos vals slot =>
      ({ seg := m.seg, owner := m.owner, chunk := m.chunk, level := level, pos := pos, vals := vals, slot := slot } : NodeVal)
    (s.yardComes c 1 m i q → ∃ t, exec (.leaf c m) s = .next t ∧ s.yardTaken t c q ∧ (t.ch c).mem = x.mem ∧
      (t.ch c).yard.vals = x.yard.vals ++
        [val 0 (i.leafRank m.srcRank) (if m.chunk = statsChunk then words32 m.data else words16 m.data) (some m.slot)]) ∧
    (s.yardComes c 2 m i q → ∃ t, exec (.pair c m) s = .next t ∧ s.yardTaken t c q ∧ (t.ch c).mem = x.mem ∧
      (t.ch c).yard.vals = x.yard.vals ++ [val 1 (i.leafRank m.srcRank / 2) (words32 m.data) (some m.slot)]) ∧
    (s.yardComes c 3 m i q → i.backupOf (i.leafMod (m.srcRank / 4)) = none → x.watch.detMode = 0 → m.owner = x.rank →
      ∃ t, exec (.quad c m) s = .next t ∧ s.yardTaken t c q ∧ (t.ch c).mem = x.mem ∧
        (t.ch c).yard.vals = x.yard.vals ++ [val 2 (i.leafMod (m.srcRank / 4)) (words32 m.data) (some m.slot)] ∧
        ((t.ch c).yard.chunk? m.seg m.owner m.chunk).bind (·.due) =
          some ((((x.yard.chunk? m.seg m.owner m.chunk).bind (·.due))).getD (s.count + x.yard.deadline))) ∧
    (s.yardComes c 4 m i q → x.yard.cars = [] → ∃ t, exec (.root c m) s = .next t ∧ s.yardTaken t c q ∧ (t.ch c).mem = x.mem ∧
      (t.ch c).yard.roots = x.yard.roots ++ [val i.height 0 (words32 m.data) none]) ∧
    (∀ row ∈ [(Instr.yardCopy, 5), (.spread, 6)], s.yardComes c row.2 m i q → x.yard.cars = [] → m.chunk ≠ statsChunk →
      ∃ t, exec (row.1 c m) s = .next t ∧ s.yardTaken t c q ∧
        (t.ch c).yard.slices = x.yard.slices ++ [(m.seg, (m.owner, m.chunk))] ∧
        (sgGC (i.seg m.seg) = .fp32 → m.data.length = 4 * i.chunkElems m.seg m.chunk →
          (t.ch c).mem.store = (x.mem.write (sgCopy (i.seg m.seg) +
            4 * (i.ownerIndex m.owner * i.sliceLen m.seg + m.chunk * i.chunkLen)) m.data).store)) ∧
    (∀ kind, x.serves = true → x.run.image = some i → i.hasYard = true → m.queue = i.yq → m.poisoned = false →
      i.kindTo x.rank m.srcRank m.owner = some kind → x.yard.outbox = [] →
      ∃ t, exec (.credit c m) s = .next t ∧ t.besides c = s.besides c ∧ t.clock = s.clock ∧ t.m = s.m ∧ (t.ch c).run = x.run ∧
        (t.ch c).yard = { x.yard with held := x.yard.held ++ [{ peer := m.srcRank, kind := kind, seg := m.seg, owner := m.owner,
                                                                 chunk := m.chunk, slot := m.slot }], progressAt := s.count })

/-- Node evaluation, credits, the deadline and the yard's timeout: NODE_EVALUATION of a node below the root that stays in this yard takes
its two inputs and keeps their element-wise FP32 sum, or the one input whose sibling is absent. YARD_CREDIT issues the next credit in the
order of consumption with the lowest free slot, as a message of 32 zero bytes, while more than 12 slots are free and the head rule lets it,
and otherwise changes nothing. DEADLINE, once both the deadline and the count of the backup copy have passed with no copy used, uses the
backup copy and counts and logs it; not before. YARD_TIMEOUT after YARD_TIMEOUT counts without progress while the yard awaits something
holds a RUNNING channel with RANK_LOST. Rests on R251, R253, R261,
R262, R264. -/
def Obligations.the_yard_combines_credits_and_times_out : Prop :=
  ∀ (c : Ch) (s : State) (i : Image),
    let x := s.ch c
    let y := x.yard
    (x.serves = true → x.run.image = some i → i.hasYard = true → x.run.stops = [] →
      (∀ seg owner chunk level pos, x.evaluates i owner level pos = true → level < i.height →
        (level = 1 ∧ chanOf x.rank = chanOf owner ∨ 3 ≤ level) →
        let a := y.val? seg owner chunk (level - 1) (2 * pos)
        let b := y.val? seg owner chunk (level - 1) (2 * pos + 1)
        ∀ ws, ((∃ u v, a = some u ∧ b = some v ∧ ws = addNode chunk u.vals v.vals) ∨
            (∃ u, 3 ≤ level ∧ a = some u ∧ b = none ∧ i.present (level - 1) (2 * pos) = true ∧
              i.present (level - 1) (2 * pos + 1) = false ∧ ws = u.vals)) →
          ∃ t, exec (.nodeEvaluation c seg owner chunk level pos) s = .next t ∧ t.elsewhere c = s.elsewhere c ∧ (t.ch c).mem = x.mem ∧
            (t.ch c).yard.val? seg owner chunk (level - 1) (2 * pos) = none ∧
            (t.ch c).yard.val? seg owner chunk (level - 1) (2 * pos + 1) = none ∧
            ∃ u ∈ (t.ch c).yard.vals, u.seg = seg ∧ u.owner = owner ∧ u.chunk = chunk ∧ u.level = level ∧ u.pos = pos ∧ u.vals = ws) ∧
      (∀ seg chunk m d, (y.chunk? seg x.rank chunk).bind (·.due) = some d → s.count ≤ d →
        exec (.deadline c seg x.rank chunk m) s = .next (s.touch c)) ∧
      (∀ seg chunk m d q, (y.chunk? seg x.rank chunk).bind (·.due) = some d →
        (∀ u ∈ y.quads, u.isOf seg x.rank chunk m = true → u.used = false) →
        (y.quads.filter (fun u => u.isOf seg x.rank chunk m)).find? (fun u =>
          u.fromMod != m && decide (d < s.count ∧ u.doneAt < s.count)) = some q →
        x.watch.detMode = 0 →
        ∃ t, exec (.deadline c seg x.rank chunk m) s = .next t ∧ t.besides c = s.besides c ∧ t.clock = s.clock ∧
          (t.ch c).yard.backupsUsed = y.backupsUsed + 1 ∧ s.logged t c 0x0a01 ∧ (t.ch c).mem = x.mem ∧
          ∃ u ∈ (t.ch c).yard.vals, u.seg = q.seg ∧ u.owner = x.rank ∧ u.chunk = q.chunk ∧ u.level = 2 ∧ u.pos = q.leafMod ∧
            u.vals = words32 q.data)) ∧
    (x.serves = true → x.run.image = some i → i.hasYard = true → ∀ q rest n, y.toCredit = q :: rest → y.freeSlot = some n →
      let may := 12 < 64 - y.slots.length ∧ y.mayCredit x.rank q = true ∧ x.hub.yardRoom = true
      (¬may → exec (.yardCredit c) s = .next s) ∧
      (may → (∀ g ∈ x.hub.msgsOut, g.id ≠ x.run.nextId) →
        ∃ t g, exec (.yardCredit c) s = .next t ∧ t.besides c = s.besides c ∧ t.clock = s.clock ∧ t.m = s.m ∧ (t.ch c).mem = x.mem ∧
          (t.ch c).yard = { y with toCredit := rest, slots := n :: y.slots, issued := y.issued ++ [{ q with slot := n }]
                                   dropped := y.dropped.filter (· != { q with slot := n }), progressAt := (t.ch c).yard.progressAt } ∧
          (t.ch c).hub.msgsOut = x.hub.msgsOut ++ [g] ∧ g.yard = some (zeros 32) ∧ g.head.dstRank = q.peer ∧ g.head.queue = i.yq ∧
          g.head.tag = yardTag 7 q.owner ∧ g.head.msg = yardMsg q.seg q.chunk n)) ∧
    (x.ctl.st = .running → x.run.image = some i → y.timeout ≠ 0 → y.progressAt + y.timeout ≤ s.count → y.awaited i ≠ [] →
      ∃ t, exec (.yardTimeout c) s = .next t ∧ t.besides c = s.besides c ∧ t.clock = s.clock ∧ (t.ch c).heldFor 0x111 ∧ (t.ch c).yard = { y with progressAt := s.count } ∧
        (t.ch c).ctl.logNext = (x.ctl.logNext + 2) % 2 ^ 32)

/-- START, RESUME and HOLD_REQUEST: A granted START makes the channel RUNNING at START_LEG with every signal, wait target, loop counter and
vector register 0, every consist with cars at its LEG car of START_LEG and nothing pending; memory, ITERATION and TSTEP are kept. A
granted RESUME makes it RUNNING with the leg, counts and consists as they stood. A granted HOLD_REQUEST of 1 only notes the request.
Admitted but for the state, START is refused with ST_VALUE when START_LEG lies beyond the image's legs, and else with ST_STATE unless
the channel is READY with a loaded image, LOAD_RESULT 0 and the module not in SAFE; RESUME with ST_STATE unless the channel holds
with HOLD_REQUESTED and may be resumed; HOLD_REQUEST with ST_STATE unless it is RUNNING. Rests on R149, R151, R162, R308. -/
def Obligations.launch_commands_start_and_continue_the_run : Prop :=
  ∀ (via : Via) (c : Ch) (s : State),
    let x := s.ch c
    (s.granted via (baseP c) 3 0 [1] →
      x.ctl.st = .ready ∧ x.run.loadResult = 0 ∧ x.run.image.isSome = true ∧ s.m.st ≠ .safe ∧
      ∃ u, s.answered via (.start via c) u ∧ s.onlyCh u c ∧ (u.ch c).mem = { x.mem with farOps := [] } ∧
        (u.ch c).ctl.st = .running ∧ (u.ch c).yard.cars = [] ∧ (u.ch c).watch.occs = [] ∧
        let r := (u.ch c).run
        r = { x.run with clusters := r.clusters, sigs := [], leg := x.run.startLeg, posts := [], stops := [], holdRequested := false
                         firstIssued := false, vregsFree := none, resumable := false, legStart := s.count, progressAt := s.count
                         activeAt := s.count } ∧
        (∀ k, (r.cluster k).sigs = [] ∧ (r.cluster k).targets = [] ∧ (r.cluster k).loops = [] ∧ (r.cluster k).vregs = [] ∧
          (r.cluster k).queues = [] ∧ (r.cluster k).moves = [] ∧ (r.cluster k).deadCars = false) ∧
        ∀ k ∈ x.live, (r.cluster k).pos = x.legPos k x.run.startLeg) ∧
    (s.granted via (baseP c) 3 0 [2] →
      x.ctl.st = .hold ∧ x.run.holdStatus = 0x101 ∧ x.run.resumable = true ∧
      ∃ u, s.answered via (.resume via c) u ∧ s.onlyCh u c ∧ (u.ch c).mem = x.mem ∧ (u.ch c).ctl.st = .running ∧
        (u.ch c).run = { x.run with firstIssued := false, resumable := false, holdRequested := false, legStart := s.count
                                    progressAt := s.count, activeAt := s.count }) ∧
    (s.granted via (baseP c) 8 0 [1] → x.ctl.st = .running ∧
      ∃ u, s.answered via (.holdRequest via c) u ∧ s.onlyCh u c ∧ u.ch c = { x with run := { x.run with holdRequested := true } }) ∧
    (s.admitted via (baseP c) 3 [1] →
      (x.startBeyond = true → s.m.secState ≠ 1 → s.turnedAway via (.start via c) 4 (fun t => (t.ch c).ctl.st = x.ctl.st)) ∧
      (x.startBeyond = false → ¬(x.ctl.st = .ready ∧ x.run.loadResult = 0 ∧ x.run.image.isSome = true ∧ s.m.st ≠ .safe) →
        s.turnedAway via (.start via c) 0x11 (fun t => (t.ch c).ctl.st = x.ctl.st))) ∧
    (s.admitted via (baseP c) 3 [2] →
      ¬(x.ctl.st = .hold ∧ x.run.holdStatus = 0x101 ∧ x.run.resumable = true ∧ x.run.image.isSome = true ∧ s.m.st ≠ .safe) →
      s.turnedAway via (.resume via c) 0x11 (fun t => (t.ch c).ctl.st = x.ctl.st)) ∧
    (s.admitted via (baseP c) 8 [1] → x.ctl.st ≠ .running →
      s.turnedAway via (.holdRequest via c) 0x11 (fun t => (t.ch c).ctl.st = x.ctl.st))

/-- TT_LOAD and LOAD_END: A granted TT_LOAD discards the image and the run, sets LOAD_RESULT to 0xFFFF and starts the load of the address;
memory bytes are kept. LOAD_END of an image that passes every check writes its contents, sets LOAD_RESULT to 0 and puts it in force; of
one that fails a check it sets LOAD_RESULT to the code of the first failing check and leaves no image, and the memory as it was (but that
the rings and resets of a world section are judged once the contents are written); either way the channel is READY. An address that is
no multiple of 4,096 or lies outside board memory fails with 9, LOAD_STAGING. The image is read unpoisoned. Rests on R139, R148. -/
def Obligations.a_load_puts_the_image_in_force : Prop :=
  ∀ (via : Via) (c : Ch) (s : State),
    let x := s.ch c
    (∀ addr, s.granted via (baseP c) 2 0 (bytesOfNat 8 addr) →
      ∃ u, s.answered via (.ttLoad via c addr) u ∧ u.besides c = s.besides c ∧ u.clock = s.clock ∧ (u.ch c).mem.store = x.mem.store ∧
        (u.ch c).ctl = x.ctl ∧ (u.ch c).run.image = none ∧ (u.ch c).run.loadResult = 0xffff ∧
        (u.ch c).run.loading = some (addr % 2 ^ 64) ∧ (u.ch c).run.ttLoad = addr % 2 ^ 64 ∧ (u.ch c).run.clusters = [] ∧
        (u.ch c).run.sigs = []) ∧
    (∀ a, x.run.loading = some a → x.ctl.st = .ready ∨ x.ctl.st = .hold →
      let g : Staging := { mem := x.mem, base := a }
      let written := g.writes g.image x.mem
      let worldOk := ((s.placed c g g.image).onRun c (fun r => { r with image := some g.image })).worldOk c g.image
      let failed := fun (code : Nat) (m : Memory) => ∃ t, exec (.loadEnd c) s = .next t ∧ t.besides c = s.besides c ∧ t.clock = s.clock ∧
        (t.ch c).ctl.st = .ready ∧ (t.ch c).run.loadResult = code ∧ (t.ch c).run.image = none ∧ (t.ch c).run.loading = none ∧
        (t.ch c).mem = m
      (a % 4096 ≠ 0 ∨ inBoard a 256 = false → failed 9 x.mem) ∧
      (a % 4096 = 0 → inBoard a 256 = true → x.mem.poisonIn a 256 = none → x.mem.poisonIn a (g.readOf (s.loadCheck c g)) = none →
        (s.loadCheck c g ≠ 0 → failed (s.loadCheck c g) x.mem) ∧
        (s.loadCheck c g = 0 → g.depotOk g.image written = false → failed 8 x.mem) ∧
        (s.loadCheck c g = 0 → g.depotOk g.image written = true → written.worldPoison g.image = none →
          (worldOk = false → failed 8 written) ∧
          (worldOk = true → ∃ t, exec (.loadEnd c) s = .next t ∧ t.besides c = s.besides c ∧ t.clock = s.clock ∧
            (t.ch c).ctl.st = .ready ∧ (t.ch c).run.loadResult = 0 ∧ (t.ch c).run.image = some g.image ∧
            (t.ch c).run.loading = none ∧ (t.ch c).watch.layers = g.image.layerStates ∧ (t.ch c).mem = written))))

/-- The channel commands and CLEAR_SAFE: Granted, STANDBY writes back the depot and leaves the channel in STANDBY with every region not lost
off, its arrays at 500 mV, and GDDR7 in self refresh; WAKE ends self refresh and, with every region on that the image requires, makes it
READY and is answered; else the regions are waiting to be switched on and the answer waits; RELEASE makes it READY with the yard's and
the watch's work discarded and the image kept unless it requires a lost region; RESET starts a containment reset with cause 5; POWER_OFF
leaves it OFF with no image and every region not lost off; POWER_ON puts it in BOOT. CLEAR_SAFE makes the module NORMAL, releases TRIP_N
and has the regions of images in READY and HOLD switched on. Each, admitted but for the state, is refused with ST_STATE in any other
state than R305, R306 and R357 name. Rests on R305, R306, R357, R402, R403, R405. -/
def Obligations.channel_commands_change_the_channels_state : Prop :=
  ∀ (via : Via) (c : Ch) (s : State),
    let x := s.ch c
    let st := x.ctl.st
    let off := fun (u : State) => ∀ r : Rg, let a := (u.ch c).sup.regions[r]
      a.st = (if (x.sup.regions[r]).st = .lost then RegionSt.lost else .off) ∧ ((x.sup.regions[r]).st ≠ .lost → a.mv = 500)
    let needs := fun (r : Rg) => ∃ i, x.run.image = some i ∧ i.regionMask.testBit r.val = true
    (s.granted via (baseP c) 0xf 0 [1] →
      ∃ u, s.answered via (.standby via c) u ∧ s.onlyCh u c ∧ (u.ch c).ctl.st = .standby ∧ off u ∧ (u.ch c).sup.refresh = true ∧
        (u.ch c).run = x.run ∧ (u.ch c).mem = { x.mem with lines := x.mem.lines.map DepotLine.clean }) ∧
    (s.granted via (baseP c) 0xf 0 [2] →
      ((∀ r, needs r → (x.sup.regions[r]).st = .on) → x.ctl.waking = [] →
        ∃ u, s.answered via (.wake via c) u ∧ s.onlyCh u c ∧ (u.ch c).sup.refresh = false ∧ (u.ch c).run = x.run ∧
          (u.ch c).mem = x.mem ∧ (u.ch c).ctl.st = .ready) ∧
      ((∃ r, needs r ∧ (x.sup.regions[r]).st ≠ .on) →
        ∃ t, exec (.wake via c) s = .next t ∧ s.onlyCh t c ∧ t.out = s.out ∧ (t.ch c).sup.refresh = false ∧ (t.ch c).run = x.run ∧
          (t.ch c).mem = x.mem ∧ (t.ch c).ctl.st = .standby ∧ (t.ch c).ctl.waking = x.ctl.waking ++ [.plain via] ∧
          ∀ r, needs r → (x.sup.regions[r]).st = .off → s.m.pins.tripN = true → ((t.ch c).sup.regions[r]).st = .waiting)) ∧
    (s.granted via (baseP c) 0xf 0 [3] →
      ∃ u, s.answered via (.release via c) u ∧ s.onlyCh u c ∧ (u.ch c).ctl.st = .ready ∧
        (u.ch c).mem = (if x.needsLost then { x.mem with lines := [] } else x.mem) ∧
        (u.ch c).watch.occs = [] ∧ (u.ch c).watch.checks = [] ∧ (u.ch c).yard.cars = [] ∧ (u.ch c).run.resumable = false ∧
        (u.ch c).run.image = if x.needsLost then none else x.run.image) ∧
    (s.granted via (baseP c) 0xf 0 [4] →
      ∃ u, s.answered via (.reset via c) u ∧ u.besides c = s.besides c ∧ u.clock = s.clock ∧ x.contained (u.ch c) 5 ∧
        s.logged u c 0x1005) ∧
    (s.granted via (baseP c) 0xf 0 [5] →
      ∃ u, s.answered via (.powerOff via c) u ∧ u.besides c = s.besides c ∧ u.clock = s.clock ∧ x.darkOff (u.ch c)) ∧
    (s.granted via (baseP c) 0xf 0 [6] →
      ∃ u, s.answered via (.powerOn via c) u ∧ u.besides c = s.besides c ∧ u.clock = s.clock ∧ (u.ch c).ctl.st = .boot ∧
        (u.ch c).ctl.boot.phase = .rails ∧ (u.ch c).ctl.boot.powerOn = true ∧ (u.ch c).ctl.log = x.ctl.log ∧
        (u.ch c).ctl.tenantSlot = x.ctl.tenantSlot ∧ (u.ch c).ctl.config = x.ctl.config ∧ (u.ch c).run.image = none) ∧
    (s.granted via 0x1002 0 0 [1] →
      ∃ u, s.answered via (.clearSafe via) u ∧ u.clock = s.clock ∧ u.m.st = .normal ∧ u.m.pins.tripN = true ∧ u.m.safeCause = 0 ∧
        ∀ d, (u.ch d).mem = (s.ch d).mem ∧ (u.ch d).run = (s.ch d).run ∧ (u.ch d).ctl.st = (s.ch d).ctl.st ∧
          ((u.ch d).sup.refresh = true ↔ (s.ch d).ctl.st = .standby) ∧
          ∀ i (r : Rg), (s.ch d).run.image = some i → (s.ch d).ctl.st = .ready ∨ (s.ch d).ctl.st = .hold →
            i.regionMask.testBit r.val = true → ((s.ch d).sup.regions[r]).st = .off → ((u.ch d).sup.regions[r]).st = .waiting) ∧
    (∀ row ∈ [((Instr.standby via c, 1), st = ChState.ready), ((.wake via c, 2), st = .standby ∧ s.m.st ≠ .safe ∧ s.m.secState = 0),
        ((.release via c, 3), st = .hold), ((.reset via c, 4), st ≠ .off ∧ st ≠ .boot),
        ((.powerOff via c, 5), st = .standby ∨ st = .ready ∨ st = .hold ∨ st = .fault),
        ((.powerOn via c, 6), st = .off ∧ s.m.st ≠ .safe ∧ s.m.secState = 0 ∧ s.m.sm = .ready)],
      s.admitted via (baseP c) 0xf [BitVec.ofNat 8 row.1.2] → ¬row.2 →
        s.turnedAway via row.1.1 0x11 (fun t => ∀ d, (t.ch d).ctl.st = (s.ch d).ctl.st)) ∧
    (s.admitted via 0x1002 0 [1] → s.mayClearSafe = false → s.turnedAway via (.clearSafe via) 0x11 (fun t => t.m.st = s.m.st))

/-- BEGIN, COMMIT, ROLLBACK, the commit count and the timeout: A heard BEGIN that passes its checks opens the requester's transaction,
empty, at the present count; ROLLBACK and the timeout after 10 s end it, reported rolled back, with nothing applied, and before its time
the timeout changes nothing; COMMIT of a transaction with no offending write schedules its writes for the first multiple of 2^16 at
least 4,096 counts away and answers that count; one with an offending write is answered with the status of the first, reported refused,
and applies nothing. At the commit count a sole due transaction whose writes still pass is applied together and reported applied, and
one with a write that no longer passes applies nothing and is reported refused with ST_STATE. Rests on R298, R300, R301, R302, R303. -/
def Obligations.transactions_open_close_and_commit : Prop :=
  ∀ (via : Via) (s : State),
    let kept := fun (u : State) => u.clock = s.clock ∧ ∀ c, (u.ch c).mem = (s.ch c).mem ∧ (u.ch c).run = (s.ch c).run ∧
      (u.ch c).ctl.st = (s.ch c).ctl.st ∧ (u.ch c).watch = (s.ch c).watch ∧ (u.ch c).hub = (s.ch c).hub ∧
      (u.ch c).sup = (s.ch c).sup ∧ (u.ch c).yard = (s.ch c).yard
    let reported := fun (u : State) (v : Via) (tstate code : Nat) => ∃ r, u.m.txn? v = some r ∧ r.tstate = tstate ∧ r.code = code
    (s.hears via = true → (s.check via (writeReq 0xf000 1 0 [1])).1 = 0 →
      ∃ u, s.answered via (.begin via) u ∧ u = { s with m := u.m } ∧ (u.m = { s.m with txns := u.m.txns }) ∧
        ∃ t, u.m.txn? via = some t ∧ t.tstate = 1 ∧ t.staged = [] ∧ t.openedAt = s.count) ∧
    (∀ t, s.m.txn? via = some t → t.tstate = 1 →
      (s.hears via = true → (s.check via (writeReq 0xf000 3 0 [1])).1 = 0 →
        ∃ u, s.answered via (.rollback via) u ∧ kept u ∧ u.m.commits = s.m.commits ∧ reported u via 5 0) ∧
      (t.openedAt + 1187500000 ≤ s.count →
        ∃ u, exec (.txnTimeout via) s = .next u ∧ kept u ∧ u.out = s.out ∧ u.m.commits = s.m.commits ∧ reported u via 5 0xb) ∧
      (s.counting = true → s.count < t.openedAt + 1187500000 → exec (.txnTimeout via) s = .next s) ∧
      (s.hears via = true → (s.check via (writeReq 0xf000 2 0 [1])).1 = 0 →
        (s.offending via t.staged = none →
          let n := (s.count + 4096 + 65535) / 65536 * 65536
          ∃ u : State, exec (.txnCommit via) s = .next (u.send (.answer via 0 (bytesOfNat 8 n))) ∧ u = { s with m := u.m } ∧
            u.m = { s.m with txns := u.m.txns, commits := u.m.commits } ∧
            (∃ r, u.m.txn? via = some r ∧ r.tstate = 2 ∧ r.count = n) ∧
            u.m.commits = s.m.commits ++ [{ via := via, count := n, acceptedAt := s.count, writes := t.staged }]) ∧
        ∀ e, s.offending via t.staged = some e →
          ∃ u, exec (.txnCommit via) s = .next u ∧ kept u ∧ u.out = s.out ++ [.answer via e.2 []] ∧ u.m.commits = s.m.commits ∧
            reported u via 4 e.2)) ∧
    (∀ p, s.m.commits.filter (fun q => decide (q.count ≤ s.count)) = [p] →
      let later := s.m.commits.filter (fun q => !decide (q.count ≤ s.count))
      let a := s.onM (fun m => { m with commits := later })
      (∀ e, a.offending p.via p.writes = some e →
        ∃ u, exec .commitCount s = .next u ∧ kept u ∧ u.m.commits = later ∧
          ∀ x, a.m.pendingTxn? p = some x → reported u p.via 4 0x11) ∧
      (a.offending p.via p.writes = none →
        let b := a.applyAll p.via p.writes
        ∃ u, exec .commitCount s = .next u ∧ u.clock = s.clock ∧
          (∀ c, (u.ch c).mem = (b.ch c).mem ∧ (u.ch c).run = (b.ch c).run ∧ (u.ch c).ctl.st = (b.ch c).ctl.st ∧
            (u.ch c).watch = (b.ch c).watch ∧ (u.ch c).hub = (b.ch c).hub ∧ (u.ch c).sup = (b.ch c).sup ∧
            (u.ch c).yard = (b.ch c).yard) ∧
          (∀ x, b.m.pendingTxn? p = some x → reported u p.via 3 0) ∧
          ∀ w, p.writes = [{ index := baseB 0 + 0x10, sub := 0, offset := 0, value := w }] →
            (u.ch 0).watch.telltales = decide (natOfBytes w ≠ 0)))

/-- FLOOR_CERT, FW_PENDING, OWNER_KEY, OWNER_TRANSFER and the configuration blocks: A piece of a block, granted, that leaves more to come is
kept and answered ST_OK, and one that cannot belong to its block is answered ST_VALUE (how pieces join is log entry 39's); the last piece
is judged. A floor certificate is accepted exactly when it is owner-signed with a greater sequence and floors at least the stored and
the mask ROM's, sets the floors, logs FLOOR_RAISED and makes an UNOWNED module NORMAL; a valid firmware block is staged, in RECOVERY
installed at once in the other bank with the station master restarting, and one that is not valid is refused, each logged; in UNOWNED
the last piece of a raw key becomes the owner key, and the module is NORMAL exactly when a valid floor certificate is stored; an owner
transfer signed by the present key in NORMAL replaces the key, keeps the floor certificate and closes the sessions of the old key, and
any other write to OWNER_KEY that starts no such block is refused with ST_STATE; a valid configuration block is stored. What is not
valid is answered ST_VALUE and leaves what is stored as it was. Rests on R380, R381, R383, R385, R386, R400. -/
def Obligations.signed_blocks_are_judged_when_whole : Prop :=
  ∀ (via : Via) (o : Nat) (v : List Byte) (s : State),
    let counted := fun (t : State) => t.m = { s.m with refusals := s.m.refusals + 1 }
    (∀ row ∈ [((Instr.floorCert via o v, 0x8011, 3), s.m.partFloor, fun b (m : Module) => { m with partFloor := b }),
        ((.fwPending via o v, 0x8013, 1), if s.m.fwState = 0 then s.m.fwPending else [], fun b m => { m with fwPending := b, fwState := 0 }),
        ((.configModule via o v, 0x8015, 2), s.m.partConfig, fun b m => { m with partConfig := b })],
      s.granted via row.1.2.1 0 o v →
        (∀ b, blockPart row.1.2.2 row.2.1 o v = .more b → s.answered via row.1.1 (s.onM (row.2.2 b))) ∧
        (blockPart row.1.2.2 row.2.1 o v = .bad → s.turnedAway via row.1.1 4 counted)) ∧
    (∀ b, s.granted via 0x8011 0 o v → blockPart 3 s.m.partFloor o v = .whole b →
      let f := field (sbBody b) 0 4
      let g := field (sbBody b) 4 4
      let ok := s.m.hasOwner = true ∧ sbSigned b 3 [s.m.ownerKey] = true ∧ sbLength b = 16 ∧ field (sbBody b) 8 8 = 0 ∧
        s.m.floorSeq < sbVersion b ∧ s.m.fwFloor ≤ f ∧ s.m.cfgFloor ≤ g ∧ Config.romFloor ≤ f ∧ Config.romFloor ≤ g
      (ok → ∃ u, s.answered via (.floorCert via o v) u ∧ u.clock = s.clock ∧ u.m.fwFloor = f ∧ u.m.cfgFloor = g ∧
        u.m.floorSeq = sbVersion b ∧ u.m.floorCert = b ∧ u.m.secState = 0 ∧ (s.m.secState = 0 → s.loggedM u 0x1105)) ∧
      (¬ok → s.turnedAway via (.floorCert via o v) 4 counted)) ∧
    (∀ b, s.granted via 0x8013 0 o v → blockPart 1 (if s.m.fwState = 0 then s.m.fwPending else []) o v = .whole b →
      let ok := s.m.bundleSigned b 1 (s.m.secState == 0) = true ∧ s.m.firmwareFloor ≤ sbVersion b
      (ok → s.m.secState ≠ 1 → ∃ u, s.answered via (.fwPending via o v) u ∧ u.clock = s.clock ∧ u.m.fwPending = b ∧ u.m.fwState = 1 ∧
        u.m.banks = s.m.banks ∧ s.loggedM u 0x1104) ∧
      (ok → s.m.secState = 1 → s.m.activeBank ≤ 1 → ∃ u, s.answered via (.fwPending via o v) u ∧ u.clock = s.clock ∧
        u.m.running = b ∧ u.m.activeBank = 1 - s.m.activeBank ∧ u.m.banks.getD s.m.activeBank { block := [] } =
          s.m.banks.getD s.m.activeBank { block := [] } ∧ u.m.fwPending = [] ∧ u.m.fwState = 0 ∧ u.m.sm = .restarting) ∧
      (¬ok → s.turnedAway via (.fwPending via o v) 4 (fun t => t.m.fwPending = [] ∧ t.m.fwState = 2 ∧ t.m.banks = s.m.banks ∧
        s.loggedM t 0x1104))) ∧
    (s.granted via 0x8010 0 o v → s.m.secState = 2 →
      (1793 < o + v.length ∨ joinPiece s.m.partKey o v = none → s.turnedAway via (.ownerKey via o v) 4 counted) ∧
      ∀ b, o + v.length ≤ 1793 → joinPiece s.m.partKey o v = some b →
        (b.length ≠ 1793 → s.answered via (.ownerKey via o v) (s.onM (fun m => { m with partKey := b }))) ∧
        (b.length = 1793 → ∃ u, s.answered via (.ownerKey via o v) u ∧ u.clock = s.clock ∧ u.m.ownerKey = b ∧
          u.m.secState = if b ≠ zeros 1793 ∧ sbSigned s.m.floorCert 3 [b] = true then 0 else 2)) ∧
    (s.granted via 0x8010 0 o v → s.m.secState = 0 →
      (∀ b, blockPart 4 s.m.partKey o v = .whole b →
        (sbSigned b 4 [s.m.ownerKey] = true → sbLength b = 1793 →
          ∃ u, s.answered via (.ownerTransfer via o v) u ∧ u.clock = s.clock ∧ u.m.ownerKey = sbBody b ∧
            u.m.floorCert = s.m.floorCert ∧
            ∀ x ∈ u.m.sessions, Tab.getAll 0 s.m.keyTable (2048 * x.slot) 1793 ≠ s.m.ownerKey) ∧
        (¬(sbSigned b 4 [s.m.ownerKey] = true ∧ sbLength b = 1793) →
          s.turnedAway via (.ownerTransfer via o v) 4 counted)) ∧
      (∀ b, blockPart 4 s.m.partKey o v = .more b →
        s.answered via (.ownerTransfer via o v) (s.onM (fun m => { m with partKey := b }))) ∧
      (blockPart 4 s.m.partKey o v = .bad →
        (∀ b, joinPiece s.m.partKey o v = some b → ¬(64 ≤ b.length ∧ field b 0 4 = 0x56545342 ∧ sbType b = 4) →
          s.turnedAway via (.ownerTransfer via o v) 0x11 (fun t => t.m.ownerKey = s.m.ownerKey ∧ t.m.partKey = s.m.partKey)) ∧
        ((∀ b, joinPiece s.m.partKey o v = some b → 64 ≤ b.length ∧ field b 0 4 = 0x56545342 ∧ sbType b = 4) →
          s.turnedAway via (.ownerTransfer via o v) 4 counted))) ∧
    (∀ b, s.granted via 0x8015 0 o v → blockPart 2 s.m.partConfig o v = .whole b →
      (s.cfgOk none b = true → ∃ u, s.answered via (.configModule via o v) u ∧ u.m.config = b ∧ u.ch = s.ch ∧ u.clock = s.clock) ∧
      (s.cfgOk none b = false → s.turnedAway via (.configModule via o v) 4 counted)) ∧
    (∀ c, s.granted via (baseK c) 7 o v →
      (∀ b, blockPart 2 (Tab.get [] s.m.partChan c.val) o v = .more b →
        s.answered via (.configChannel via c o v) (s.onM (fun m => { m with partChan := Tab.put [] m.partChan c.val b }))) ∧
      (blockPart 2 (Tab.get [] s.m.partChan c.val) o v = .bad →
        s.turnedAway via (.configChannel via c o v) 4 (fun t => t.m = s.m ∧ (t.ch c).ctl.config = (s.ch c).ctl.config))) ∧
    (∀ b c, s.granted via (baseK c) 7 o v → blockPart 2 (Tab.get [] s.m.partChan c.val) o v = .whole b →
      (s.cfgOk (some c) b = true →
        ∃ u, s.answered via (.configChannel via c o v) u ∧ u.besides c = s.besides c ∧ u.clock = s.clock ∧
          u.ch c = { s.ch c with ctl := { (s.ch c).ctl with config := b } }) ∧
      (s.cfgOk (some c) b = false →
        s.turnedAway via (.configChannel via c o v) 4 (fun t => t.m = s.m ∧ (t.ch c).ctl.config = (s.ch c).ctl.config)))

/-- LAYER_STATE, DEPOT_SIZE, FAR_ENABLE, LINK_ENABLE, POWER_ALLOWANCE, TENANT_SLOT, ATTEST_NONCE and other entries: A granted write takes
its effect and is answered ST_OK: LAYER_STATE restores the records of its piece and clears the interval statistics; DEPOT_SIZE empties
the depot, has every dirty sector of host memory written back, and sets the size; FAR_ENABLE of 1 starts training, or fails it with no
expander, and of 0 takes the far tier away; LINK_ENABLE of 1 starts training of a port that is not up, of 0 takes the port down;
POWER_ALLOWANCE takes the value; TENANT_SLOT of another value sets the slot, through a containment reset with cause 5 unless the channel
is OFF; a piece of a nonce is stored, and the one that ends it makes the report over it; any other entry takes what its own row says, or
is staged while the requester's transaction is open. A write that fails a check is answered with its status and only counted (and, for
ST_STATE and ST_PERMISSION, logged); one that is not heard changes nothing but the count of discarded requests. Rests on R139, R200,
R205, R224, R290, R298, R307, R319, R390, R393. -/
def Obligations.settings_take_their_values : Prop :=
  ∀ (via : Via) (c : Ch) (s : State),
    let x := s.ch c
    (∀ o v, s.granted via (baseB c + 0x30) 0 o v →
      ∃ u, s.answered via (.layerState via c o v) u ∧ s.onlyCh u c ∧
        u.ch c = { x with watch := { x.watch with layers := (u.ch c).watch.layers, stats := [], interval := none, combined := none } } ∧
        (∀ j, j < v.length / 16 → (u.ch c).watch.layer (o / 16 + j) = layerOf ((v.drop (16 * j)).take 16)) ∧
        ∀ l, l < o / 16 ∨ o / 16 + v.length / 16 ≤ l → (u.ch c).watch.layer l = x.watch.layer l) ∧
    (∀ n, s.granted via (baseM c) 0 0 [n] →
      ∃ u, s.answered via (.depotSize via c [n]) u ∧ s.onlyCh u c ∧
        u.ch c = { x with mem := { x.mem with depotSize := n.toNat, lines := [] }, host := (u.ch c).host } ∧
        (x.mem.lines = [] → u.out = s.out ∧ (u.ch c).host = x.host) ∧
        ∀ l ∈ x.mem.lines, l.host = true → ∀ q ∈ l.sectors, q.dirty = true →
          ∃ p ∈ (u.ch c).host.ops, p.read = false ∧ p.addr = l.addr + 256 * q.no ∧ p.data = q.bytes ∧ p.poisoned = q.poisoned) ∧
    (s.granted via (baseM c + 0x20) 1 0 [1] → ∃ u, s.answered via (.farEnable via c [1]) u ∧ s.onlyCh u c ∧
      u.ch c = { x with mem := { x.mem with
        farEnable := true, farStatus := if s.m.pins.cxlPrsntN.getD c.val false then 4 else if x.mem.farStatus = 2 then 2 else 1 } }) ∧
    (s.granted via (baseM c + 0x20) 1 0 [0] → ∃ u, s.answered via (.farEnable via c [0]) u ∧ s.onlyCh u c ∧
      u.ch c = { x with mem := { x.mem with farEnable := false, farStatus := 0, farLink := 0, farCapacity := 0 } }) ∧
    (∀ p : Pt, s.granted via (0x5000 + 0x100 * c.val + 0x10 * p.val) 3 0 [1] →
      ∃ u, s.answered via (.linkEnable via c p [1]) u ∧ s.onlyCh u c ∧
        u.ch c = { x with hub := (u.ch c).hub } ∧ (u.ch c).hub.ports[p] =
          { x.hub.ports[p] with linkEnable := true, linkState := if x.hub.ports[p].linkState = 2 then 2 else 1, trainFails := 0 }) ∧
    (∀ p : Pt, s.granted via (0x5000 + 0x100 * c.val + 0x10 * p.val) 3 0 [0] →
      ∃ u, s.answered via (.linkEnable via c p [0]) u ∧ (u.ch c).hub.ports[p].linkEnable = false ∧ (u.ch c).hub.ports[p].linkState = 0 ∧
        (x.hub.ports[p].linkState ≠ 2 → s.onlyCh u c ∧ u.ch c = { x with hub := (u.ch c).hub })) ∧
    (∀ w, s.granted via 0x2001 0 0 (bytesOfNat 4 w) → ∃ u, s.answered via (.powerAllowance via (bytesOfNat 4 w)) u ∧
      u.clock = s.clock ∧ u.m.allowance = w % 2 ^ 32 ∧ ∀ d, (u.ch d).mem = (s.ch d).mem ∧ (u.ch d).run = (s.ch d).run) ∧
    (∀ n, s.granted via (baseK c) 1 0 [n] →
      ∃ u, s.answered via (.tenantSlot via c [n]) u ∧ u.besides c = s.besides c ∧ u.clock = s.clock ∧
        (u.ch c).ctl.tenantSlot = n.toNat ∧ (x.ctl.tenantSlot = n.toNat → u = s) ∧
        (x.ctl.tenantSlot ≠ n.toNat →
          (x.ctl.st = .off → (u.ch c).ctl.st = .off ∧ (u.ch c).run = x.run ∧ (u.ch c).mem = x.mem) ∧
          (x.ctl.st ≠ .off → x.contained (u.ch c) 5))) ∧
    (∀ scope o v, s.granted via (match scope with | none => 0x8030 | some d => baseK d) (match scope with | none => 0 | some _ => 5) o v →
      (∀ a, s.m.attest? via scope = some a → a.nonce.length = 32) →
      ∃ u a, s.answered via (.attestNonce via scope o v) u ∧ u.ch = s.ch ∧ u.clock = s.clock ∧ u.m.attest? via scope = some a ∧
        a.report = (if o + v.length = 32 then s.attestReport scope a.nonce
          else match s.m.attest? via scope with | some b => b.report | none => []) ∧
        (∀ i, i < v.length → a.nonce.getD (o + i) 0 = v.getD i 0) ∧
        ∀ i, i < o ∨ o + v.length ≤ i → a.nonce.getD i 0 = match s.m.attest? via scope with | some b => b.nonce.getD i 0 | none => 0) ∧
    (∀ index sub o v e, let req := writeReq index sub o v
      s.granted via index sub o v → entry? index sub = some e → index ≠ 0xf000 →
      let w := e.set s via o v
      (w.1 = 0 → w.2.wakeWaits req 0 = none → s.answered via (.entryWrite via index sub o v) w.2) ∧
      (w.1 = 0 → ∀ d, w.2.wakeWaits req 0 = some d → exec (.entryWrite via index sub o v) s =
        .next (w.2.onCtl d (fun k => { k with waking := k.waking ++ [.plain via] }))) ∧
      (w.1 ≠ 0 → exec (.entryWrite via index sub o v) s = .next ((w.2.refuse via req w.1).send (.answer via w.1 [])))) ∧
    (∀ index sub o v e t, s.hears via = true → (s.check via (writeReq index sub o v)).1 = 0 → entry? index sub = some e → e.cmd = false →
      index ≠ 0xf000 → s.m.txn? via = some t → t.tstate = 1 →
      ∃ u, s.answered via (.entryWrite via index sub o v) u ∧ u = { s with m := { s.m with txns := u.m.txns } } ∧
        u.m.txn? via = some { t with staged := t.staged ++ [{ index := index, sub := sub, offset := o, value := v }]
                                     stagedNo := t.stagedNo + 1 }) ∧
    (∀ index sub o v, s.hears via = true → (s.check via (writeReq index sub o v)).1 ≠ 0 →
      s.turnedAway via (.entryWrite via index sub o v) (s.check via (writeReq index sub o v)).1 (fun t =>
        ∀ d, (t.ch d).ctl.st = (s.ch d).ctl.st ∧ (t.ch d).hub = (s.ch d).hub ∧ (t.ch d).watch = (s.ch d).watch ∧
          (t.ch d).sup = (s.ch d).sup ∧ (t.ch d).ctl.refusals = (s.ch d).ctl.refusals + if chanOfIndex index = some d then 1 else 0)) ∧
    (∀ index sub o v, s.hears via = false → ∃ t, exec (.entryWrite via index sub o v) s = .next t ∧
      t = { s with m := { s.m with authDiscards := t.m.authDiscards } })

/-- Management datagrams, session set-up and session end: With the station master running and the module NORMAL: OPEN that names a key slot,
with room, notes a set-up with the next session number; without room it is refused with ST_BUSY and without a slot with ST_AUTH, which is
logged; RESPONSE whose signature verifies opens a session with the role and slot of its key and logs SESSION_OPENED, one whose signature
fails opens none, one with eight sessions open neither, and one of no set-up changes nothing; SETUP_TIMEOUT drops a set-up 2 s old,
SESSION_CLOSED a session without a datagram for 60 s, and both leave younger ones. A datagram of an open session whose tag is right and
whose sequence number is new is carried out and answered, a repeated one gets the stored answer, and one with a wrong tag, an older
number or no session is discarded and counted; on I3C a datagram of session 0 is carried out without authentication. One answered only
when its WAKE is complete waits. DYNAMIC_ADDRESS_ASSIGNMENT gives the I3C target its address. Rests on R296, R297, R387, R388, R412. -/
def Obligations.management_sessions_open_serve_and_close : Prop :=
  ∀ (s : State),
    (s.m.sm = .ready → s.m.secState = 0 → ∀ (i3c : Bool) (n : Nat) (pay : List Byte),
      let others := s.m.setups.filter (fun y => !(y.number == n && y.i3c == i3c))
      let turned := fun (i : Instr) (logs : Bool) => ∃ t, exec i s = .next t ∧ t.clock = s.clock ∧ t.ch = s.ch ∧
        t.m.sessions = s.m.sessions ∧ t.m.setups = others ∧ t.m.setupsRefused = s.m.setupsRefused + 1 ∧
        (logs = true → s.loggedM t 0x1101) ∧ (logs = false → t.m.log = s.m.log)
      (8 ≤ s.m.sessions.length ∨ 4 ≤ others.length → turned (.openSession i3c n pay) false) ∧
      (s.m.sessions.length < 8 → others.length < 4 → (pay.length = 1608 → slotNamed s.m.keyTable (pay.take 8) = none) →
        turned (.openSession i3c n pay) true) ∧
      (∀ j, s.m.sessions.length < 8 → others.length < 4 → pay.length = 1608 →
        slotNamed s.m.keyTable (pay.take 8) = some j →
        ∃ t x, exec (.openSession i3c n pay) s = .next t ∧ t.clock = s.clock ∧ t.ch = s.ch ∧ t.m.sessions = s.m.sessions ∧
          t.m.setups = others ++ [x] ∧ x.number = n ∧ x.i3c = i3c ∧
          x.slot = j ∧ x.session = s.m.sessionNo + 1 ∧ x.since = s.count ∧ t.m.sessionNo = s.m.sessionNo + 1) ∧
      (s.m.setups.find? (fun y => y.number == n && y.i3c == i3c) = none → exec (.response i3c n pay) s = .next s) ∧
      (∀ x, s.m.setups.find? (fun y => y.number == n && y.i3c == i3c) = some x →
        let d2 := shake256 (x.openPay ++ x.challenge)
        let ok := pay.length = 2 + field pay 0 2 ∧ keyRole s.m.keyTable x.slot ≠ 0 ∧
          Config.falconVerify (keyOf s.m.keyTable x.slot) d2 (pay.drop 2) = true
        (ok → s.m.sessions.length < 8 → ∃ t y, exec (.response i3c n pay) s = .next t ∧ t.clock = s.clock ∧ t.ch = s.ch ∧
          t.m.setups = others ∧ s.loggedM t 0x1102 ∧ t.m.sessions = s.m.sessions ++ [y] ∧ y.number = x.session ∧ y.slot = x.slot ∧
          y.i3c = i3c ∧ y.role = keyRole s.m.keyTable x.slot ∧ y.kreq = kmac256 x.secret d2 customReq ∧
          y.krsp = kmac256 x.secret d2 customRsp ∧ y.lastAt = s.count) ∧
        (ok → 8 ≤ s.m.sessions.length → turned (.response i3c n pay) false) ∧
        (¬ok → turned (.response i3c n pay) true))) ∧
    (∀ n, ∃ t, exec (.setupTimeout n) s = .next t ∧ t = { s with m := { s.m with setups := t.m.setups } } ∧
      ∀ x ∈ s.m.setups, x ∈ t.m.setups ↔ ¬(x.number = n ∧ s.after x.since 237500000 = true)) ∧
    (∀ n, (s.m.sessions.find? (fun y => y.number == n) = none → exec (.sessionClosed n) s = .next s) ∧
      ∀ x, s.m.sessions.find? (fun y => y.number == n) = some x →
        (s.after x.lastAt 7125000000 = false → exec (.sessionClosed n) s = .next s) ∧
        (s.after x.lastAt 7125000000 = true → ∃ t, exec (.sessionClosed n) s = .next t ∧ t.clock = s.clock ∧
          t.m.sessions = s.m.sessions.filter (fun y => y.number != n) ∧ (∀ a ∈ t.m.attests, a.via ≠ x.via) ∧
          ∀ a ∈ t.m.txns, a.via ≠ x.via)) ∧
    (∀ (i3c : Bool) (d : List Byte), s.m.sm = .ready → field d 0 4 ≠ 0 →
      let i := Instr.managementDatagram i3c d
      let dropped := exec i s = .next (s.onM (fun m => { m with authDiscards := m.authDiscards + 1 }))
      let seq := field d 4 8
      let message := (d.take (d.length - 32)).drop 16
      (∀ x, s.m.sessions.find? (fun y => y.number == field d 0 4 && y.i3c == i3c) = some x →
        let right := 48 ≤ d.length ∧ kmac256 x.kreq (d.take (d.length - 32)) customTag = d.drop (d.length - 32)
        (¬right → dropped) ∧
        (right → s.answerDue x.number seq = true → exec i s = .next s) ∧
        (right → s.answerDue x.number seq = false →
          (x.lastRsp ≠ [] → x.seq = seq → exec i s = .next (s.sendDatagram i3c x.lastRsp)) ∧
          (seq < x.seq → dropped) ∧
          (x.seq < seq ∨ (x.seq = seq ∧ x.lastRsp = []) →
            let a := s.onM (fun m => { m with sessions := m.sessions.map (fun y =>
              if y.number = x.number then { y with seq := seq, lastAt := s.count } else y) })
            let req := datagramReq d message
            let r := a.request x.via req
            (∀ e, r.2.2.wakeWaits req r.1 = some e →
              exec i s = .next (r.2.2.onCtl e (fun k => { k with waking := k.waking ++ [.datagram x.number d] }))) ∧
            (r.2.2.wakeWaits req r.1 = none →
              (r.2.2.m.sessions.find? (fun y => y.number == x.number) = none → exec i s = .next r.2.2) ∧
              ∀ y, r.2.2.m.sessions.find? (fun y => y.number == x.number) = some y →
                let head := d.take 12 ++ zeros 4 ++ responseOf message r.1 r.2.1
                ∃ t, exec i s = .next t ∧ t.clock = r.2.2.clock ∧ t.ch = r.2.2.ch ∧
                  t.out = (r.2.2.sendDatagram y.i3c (head ++ kmac256 y.krsp head customTag)).out)))) ∧
      (s.m.sessions.find? (fun y => y.number == field d 0 4 && y.i3c == i3c) = none → dropped)) ∧
    (∀ d, field d 0 4 = 0 →
      exec (.managementDatagram false d) s = .next s ∧
      (s.hears (.i3c 0) = true → let r := s.request (.i3c 0) (datagramReq d (d.drop 16))
        exec (.managementDatagram true d) s =
          .next (r.2.2.sendDatagram true (d.take 12 ++ zeros 4 ++ responseOf (d.drop 16) r.1 r.2.1)))) ∧
    (∀ a b, s.live = true → exec (.dynamicAddressAssignment a b) s = .next (s.onM (fun m => { m with i3cAddr := some a })))

/-- READ, WRITE and DETOUR: A partner's WRITE that is next in its sequence and may reach its target stores its bytes, with the poison it
brings, and no other; one whose status refuses it, or that has been seen before, or that comes too early, stores nothing, and a refused
one that touches a doorbell is counted. A READ stores nothing and is answered with the bytes that stand there once the errors it meets
are taken, with status 3 where a granule is poisoned, or with the status that refuses it. An operation next in its sequence while a round
holds an atomic of its pair, or others wait, waits behind them. A DETOUR to this rank does the same as the operation it carries. Each
takes its place in the sequence of its (RANK, PORT) exactly once. Rests on R231, R234, R235, R237, R239. -/
def Obligations.partner_reads_and_writes_are_served_in_sequence : Prop :=
  ∀ (c : Ch) (h : ReqHead) (data : List Byte) (bad : List Nat) (s : State),
    let hub := (s.ch c).hub
    let m := (s.ch c).mem
    let next := fun (t : State) => ((t.ch c).hub.peer h.rank h.port).next
    let frame := fun (a t : State) => t.besides c = a.besides c ∧ t.clock = a.clock ∧ t.m = a.m ∧ (t.ch c).ctl.st = (a.ch c).ctl.st ∧
      (t.ch c).mem.restW = (a.ch c).mem.restW
    let quiet := fun (a t : State) => frame a t ∧ (t.ch c).mem.store = (a.ch c).mem.store ∧ (t.ch c).run = (a.ch c).run
    let waits := fun (i : Instr) (a : State) (x : Inner) => seqCase (next s) h.seq = 0 →
      (hub.peer h.rank h.port).behind ≠ [] ∨ hub.behindRound x = true →
      ∃ t n, exec i s = .next t ∧ quiet a t ∧ next t = (next s + 1) % 2 ^ 32 ∧
        ((t.ch c).hub.peer h.rank h.port).behind = (hub.peer h.rank h.port).behind ++ [{ inner := x, arrival := n }]
    let others := fun (i : Instr) (a : State) =>
      (seqCase (next s) h.seq = 1 → ∃ t, exec i s = .next t ∧ quiet a t ∧ next t = next s ∧ (t.ch c).hub.duplicates = hub.duplicates + 1) ∧
      (seqCase (next s) h.seq = 2 → ∃ t, exec i s = .next t ∧ quiet a t ∧ next t = next s)
    let written := fun (i : Instr) (p : Pt) =>
      (seqCase (next s) h.seq = 0 → hub.flowing h.rank h.port →
        (s.partnerStatus c p h.addr data.length true = 0 →
          ∃ t, exec i s = .next t ∧ frame s t ∧ m.tookBytes (t.ch c).mem h.addr data ∧ next t = (next s + 1) % 2 ^ 32 ∧
            ∀ j ∈ bad, (t.ch c).mem.poisoned? (h.addr / 256 + j) = true) ∧
        (s.partnerStatus c p h.addr data.length true ≠ 0 →
          ∃ t, exec i s = .next t ∧ quiet s t ∧ next t = (next s + 1) % 2 ^ 32 ∧
            (t.ch c).hub.doorbellRefused = hub.doorbellRefused + if touchesDoorbell h.addr data.length then 1 else 0)) ∧
      waits i s (.write h data bad) ∧ others i s
    let served := fun (i : Instr) (p : Pt) (came : Came) (a : State) =>
      let y := (a.ch c).mem
      let st := s.partnerStatus c p h.addr h.length false
      let list := y.poisonList h.addr h.length
      let head : RespHead := { seq := h.seq, status := st, epoch := h.epoch, rank := h.rank, result := 0, length := 0 }
      (seqCase (next s) h.seq = 0 → hub.flowing h.rank h.port →
        ∃ t u : State, exec i s = .next t ∧ quiet a t ∧ next t = (next s + 1) % 2 ^ 32 ∧ (m.depotSize = 0 → u.out = a.out) ∧
          t = if st = 0 then u.respond c came 0x81 h.rank { head with status := if list.isEmpty then 0 else 3, length := h.length }
                h.addr (y.read h.addr h.length) list
              else u.respond c came 0x81 h.rank head h.addr [] []) ∧
      waits i a (.read h) ∧ others i a
    (∀ p, s.portOpen c p → written (.write c p h data bad) p) ∧
    (∀ p faults, s.portOpen c p → served (.read c p ⟨h, faults⟩) p (.port p) (s.meetAll c faults)) ∧
    (∀ q g, s.detourOpen c q g → written (.detour c q g (.write h data bad)) (hub.arrivalPort h.rank h.port q)) ∧
    (∀ q g, s.detourOpen c q g → m.poisonList h.addr h.length = [] →
      served (.detour c q g (.read h)) (hub.arrivalPort h.rank h.port q) .detour s)

/-- The atomics: An atomic that is next in its sequence, may reach its target, and in bit-exact mode is outside a round, stores its new value
(CAS only when the old value equals A) and no other byte, and its old value is kept as the answer of its sequence number; one refused
stores nothing and keeps its status; in bit-exact mode one of a round is held while the round lacks members, and with the last of them
the members are applied in the order of RANK, PORT and SEQ; the same atomic seen again, or one too early, changes no memory. A DETOUR
to this rank does the same as the atomic it carries. ROUND_TIMEOUT closes a round that is due, applies the members it holds in that order
and logs ROUND_INCOMPLETE, and before its time changes nothing. Rests on R233, R235, R236, R237, R239. -/
def Obligations.atomics_are_applied_once : Prop :=
  ∀ row ∈ atomicRows, ∀ (c : Ch) (h : AtomHead) (s : State),
    let hub := (s.ch c).hub
    let m := (s.ch c).mem
    let op := row.2.1
    let n := row.2.2.1
    let old := m.nat h.addr n
    let pair := fun (t : State) => (t.ch c).hub.peer h.rank h.port
    let frame := fun (t : State) => t.besides c = s.besides c ∧ t.clock = s.clock ∧ t.m = s.m ∧ (t.ch c).ctl.st = (s.ch c).ctl.st ∧
      (t.ch c).mem.restW = m.restW
    let applied := fun (t : State) (l : List Held) => m.tookValue (t.ch c).mem h.addr n (Round.outcome row.2.2.2 n l old)
    let rest := fun (g : Hub) (addr round : Nat) => g.rounds.filter (fun q => !(q.addr == addr && q.round == round))
    let reaches := fun (l : List Held) => ∀ x ∈ l, x.op = op ∧ x.head.addr = h.addr ∧ s.partnerStatus c (ptOf x.arrival) h.addr n true = 0
    let taken := fun (i : Instr) (p : Pt) (arrival : Nat) =>
      let x : Held := { op := op, head := h, arrival := arrival }
      let r := (hub.rounds.find? (fun r => r.addr == h.addr && r.round == h.round)).getD
        { addr := h.addr, round := h.round, members := h.members, openedAt := s.count, held := [] }
      let st := s.partnerStatus c p h.addr n true
      (seqCase (pair s).next h.seq = 0 → hub.flowing h.rank h.port →
        ((s.ch c).watch.detMode = 0 → h.round = 0) →
        ∃ t, exec i s = .next t ∧ frame t ∧ (pair t).next = ((pair s).next + 1) % 2 ^ 32 ∧
          (pair t).table.head? = some (h.seq, (if st = 0 then old else 0, st)) ∧
          (st = 0 → applied t [x]) ∧ (st ≠ 0 → (t.ch c).mem = m)) ∧
      (seqCase (pair s).next h.seq = 0 → hub.flowing h.rank h.port → (s.ch c).watch.detMode = 0 → h.round ≠ 0 →
        (r.held.length + 1 < r.members →
          ∃ t, exec i s = .next t ∧ frame t ∧ (pair t).next = ((pair s).next + 1) % 2 ^ 32 ∧ (t.ch c).mem = m ∧
            (t.ch c).hub.rounds = rest hub h.addr h.round ++ [{ r with held := r.held ++ [x] }]) ∧
        (r.members ≤ r.held.length + 1 → reaches (r.held ++ [x]) →
          ∃ t, exec i s = .next t ∧ frame t ∧ (pair t).next = ((pair s).next + 1) % 2 ^ 32 ∧ applied t (r.held ++ [x]) ∧
            (t.ch c).hub.rounds = rest hub h.addr h.round)) ∧
      (seqCase (pair s).next h.seq ≠ 0 → ∃ t, exec i s = .next t ∧ frame t ∧ (pair t).next = (pair s).next ∧ (t.ch c).mem = m ∧
        (t.ch c).run = (s.ch c).run ∧
        (t.ch c).hub.duplicates = hub.duplicates + if seqCase (pair s).next h.seq = 1 then 1 else 0)
    (∀ p, s.portOpen c p → taken (row.1 c p h) p p.val) ∧
    (∀ q g, s.detourOpen c q g → let p := hub.arrivalPort h.rank h.port q
      taken (.detour c q g (.atomic op h)) p (5 + p.val)) ∧
    (∀ (r : Round), (s.ch c).serves = true → hub.rounds.find? (fun q => q.addr == r.addr && q.round == r.round) = some r → r.addr = h.addr →
      (s.after r.openedAt hub.roundTimeout = false → exec (.roundTimeout c r.addr r.round) s = .next s) ∧
      (s.after r.openedAt hub.roundTimeout = true → reaches r.held → (∀ e ∈ hub.peers, e.behind = []) →
        ∃ t, exec (.roundTimeout c r.addr r.round) s = .next t ∧ frame t ∧ (t.ch c).hub.rounds = rest hub r.addr r.round ∧
          applied t r.held ∧
          ∃ l e, (t.ch c).ctl.log = lastN 4096 (logPlace e l) ∧ e.code = 0x0907 ∧ e.count = s.count))

/-- READ_DATA, WRITE_ACK, ATOMIC_RESULT, MAIL and MAIL_ACK: A response to an outstanding operation takes it from those outstanding, with
none that may have overtaken it: READ_DATA stages its bytes for the move that asked and writes no memory, WRITE_ACK writes nothing,
ATOMIC_RESULT writes RESULT, STATUS and zeros to the 32 bytes of the result record, and with status 4 holds the channel with
ATOMIC_REPLAY; a refusing status writes nothing and holds a RUNNING channel with PARTNER_REFUSED. A MAIL train of a message that its
queue accepts, or that is in progress, writes its fragments from NEXT_FRAG on to the slot; with the last of them the completion record
is written and SIGNAL posted; a train that does not continue the message writes nothing, and a message not accepted is answered with its
status. A MAIL_ACK with STATUS 0 ends a message whose fragments have all been taken, and sets the acknowledged fragments of one that has
more; MAIL_BUSY and MAIL_NOT_DUE wait for a retry; MAIL_LENGTH and MAIL_QUEUE end the message and hold the channel with
MAIL_UNDELIVERABLE, but not for the yard's mail. Rests on R232, R235, R236, R242, R243, R244, R260. -/
def Obligations.responses_and_mail_take_their_effect : Prop :=
  ∀ (c : Ch) (p : Pt) (s : State),
    let x := s.ch c
    let frame := fun (t : State) => t.besides c = s.besides c ∧ t.clock = s.clock
    x.serves = true → x.hub.ports[p].linkState = 2 → x.run.stops = [] →
    (∀ (r : RespHead) (o : PartnerOp), x.hub.overtook o = [] →
      let gone := fun (t : State) => frame t ∧ (t.ch c).hub.ops = x.hub.ops.filter (fun q => !(q.port == o.port && q.seq == o.seq))
      let held := fun (t : State) => gone t ∧ (t.ch c).mem.store = x.mem.store ∧
        (x.ctl.st = .running → (t.ch c).ctl.st = .hold ∧ (t.ch c).run.holdStatus = 0x10c)
      (x.hub.answered p r (· == 1) = some o →
        (refusing r.status = false → x.run.ownerOf o.id = none → ∀ data bad,
          ∃ t, exec (.readData c p r data bad) s = .next t ∧ gone t ∧ (t.ch c).mem = x.mem ∧
            (t.ch c).run = { x.run with activeAt := s.count }) ∧
        (refusing r.status = true → ∀ data bad, ∃ t, exec (.readData c p r data bad) s = .next t ∧ held t) ∧
        (refusing r.status = false → ∀ k m, x.run.clusters = [(k, { Cluster.fresh with moves := [m] })] → m.id = o.id →
          m.started = false → ∀ data bad, ∃ t, exec (.readData c p r data bad) s = .next t ∧ gone t ∧ (t.ch c).mem = x.mem ∧
            ∃ g, ((t.ch c).run.cluster k).moves = [{ m with staged := m.staged ++ g }] ∧
              ∀ i, i < o.length → (∃ u ∈ g, u.addr ≤ o.dst + i ∧ o.dst + i < u.addr + u.data.length ∧
                u.data.getD (o.dst + i - u.addr) 0 = (fitBytes o.length data).getD i 0))) ∧
      (x.hub.answered p r (· == 2) = some o →
        (refusing r.status = false → ∃ t, exec (.writeAck c p r) s = .next t ∧ gone t ∧ (t.ch c).mem = x.mem ∧
          (t.ch c).run = { x.run with activeAt := s.count }) ∧
        (refusing r.status = true → ∃ t, exec (.writeAck c p r) s = .next t ∧ held t)) ∧
      (x.hub.answered p r isAtomic = some o →
        (refusing r.status = false → ∃ t, exec (.atomicResult c p r) s = .next t ∧ gone t ∧
          x.mem.tookBytes (t.ch c).mem o.dst (bytesOfNat 8 r.result ++ bytesOfNat 1 r.status ++ zeros 23) ∧
          (r.status = 4 → x.ctl.st = .running → (t.ch c).ctl.st = .hold ∧ (t.ch c).run.holdStatus = 0x10e)) ∧
        (refusing r.status = true → ∃ t, exec (.atomicResult c p r) s = .next t ∧ held t))) ∧
    (∀ (h : MailHead) (data : List Byte) (bad : List Nat), h.dstRank = x.rank → x.yardQueue h.queue = false →
      let v := x.hub.queueRec h.queue
      let st := x.mailStatus h (x.hub.ports[p].mode != 0)
      let known := x.hub.msgsIn.find? (·.isOf h)
      let next := match known with | some m => m.nextFrag | none => 0
      let total := ceilDiv h.length 256
      let last := h.fragFirst + ceilDiv data.length 256
      let part := data.drop (256 * (next - h.fragFirst))
      let slot := rqBase v + rqSlot v h.msg * rqBytes v
      let done := rqCpl v + 32 * rqSlot v h.msg
      let i := Instr.mail c p h data bad
      (known = none → st ≠ 0 → ∃ t u : State, exec i s = .next t ∧ frame t ∧ (t.ch c).mem = x.mem ∧ (t.ch c).run = x.run ∧
        (t.ch c).hub.msgsIn = x.hub.msgsIn ∧ u.out = s.out ∧ t = u.ackMail c h.srcRank st h.queue h.msg 0) ∧
      (known ≠ none ∨ st = 0 →
        (next < h.fragFirst ∨ last ≤ next ∨ total < last → ∃ t, exec i s = .next t ∧ frame t ∧ (t.ch c).mem = x.mem ∧
          (t.ch c).run = { x.run with activeAt := s.count }) ∧
        (h.fragFirst ≤ next → next < last → last < total → ∃ t, exec i s = .next t ∧ frame t ∧
          x.mem.tookBytes (t.ch c).mem (slot + 256 * next) part ∧
          (∃ m, (t.ch c).hub.msgsIn.find? (·.isOf h) = some m ∧ m.nextFrag = last) ∧
          (∀ j ∈ bad, next ≤ h.fragFirst + j →
            (t.ch c).mem.poisoned? ((slot + 256 * next) / 256 + (h.fragFirst + j - next)) = true) ∧
          (t.ch c).run.sigs = x.run.sigs) ∧
        (h.fragFirst ≤ next → next < last → last = total → slot + 256 * next + part.length ≤ done ∨ done + 32 ≤ slot + 256 * next →
          ∃ t, exec i s = .next t ∧ frame t ∧ (t.ch c).hub.msgsIn = x.hub.msgsIn.filter (fun m => !m.isOf h) ∧
            (∀ j, j < part.length → (t.ch c).mem.byte (slot + 256 * next + j) = part.getD j 0) ∧
            (t.ch c).mem.nat done 4 = h.msg % 2 ^ 32 ∧ (t.ch c).mem.nat (done + 4) 4 = h.length % 2 ^ 32 ∧
            (t.ch c).mem.nat (done + 8) 4 = h.tag % 2 ^ 32 ∧ (t.ch c).mem.nat (done + 12) 2 = h.srcRank % 2 ^ 16 ∧
            (t.ch c).mem.nat (done + 14) 1 = 1 ∧
            (∀ a, (a < slot + 256 * next ∨ slot + 256 * next + part.length ≤ a) → (a < done ∨ done + 32 ≤ a) →
              (t.ch c).mem.byte a = x.mem.byte a) ∧
            ∀ n, (t.ch c).sigCount 0 n = x.sigCount 0 n + if n = rqSignal v ∧ n ≠ 0 then 1 else 0))) ∧
    (∀ (h : AckHead), h.dstRank = x.rank →
      let answers := fun (m : MsgOut) => m.head.dstRank == h.srcRank && m.head.queue == h.queue && m.head.msg == h.msg
      (x.hub.msgsOut.find? answers = none → ∃ t, exec (.mailAck c p h) s = .next t ∧ frame t ∧ (t.ch c).hub.msgsOut = x.hub.msgsOut ∧
        (t.ch c).mem = x.mem ∧ (t.ch c).run = x.run) ∧
      ∀ m, x.hub.msgsOut.find? answers = some m → x.hub.msgsOut.filter (fun n => n.id == m.id) = [m] →
        let others := x.hub.msgsOut.filter (fun n => n.id != m.id)
        let ended := fun (t : State) => frame t ∧ (t.ch c).hub.msgsOut = others
        let now := fun (t : State) (f : MsgOut → Prop) => frame t ∧ (t.ch c).mem.store = x.mem.store ∧
          (t.ch c).hub.msgsOut.filter (fun n => n.id != m.id) = others ∧
          ∃ n, (t.ch c).hub.msgsOut.filter (fun n => n.id == m.id) = [n] ∧ n.head = m.head ∧ f n
        (h.status = 0 → m.frags ≤ h.nextFrag → x.yard.outbox = [] →
          ∃ t, exec (.mailAck c p h) s = .next t ∧ ended t ∧ (t.ch c).mem = x.mem) ∧
        (h.status = 0 → h.nextFrag < m.frags → m.yard ≠ none ∨ x.mem.poisonIn m.src m.head.length = none →
          ∃ t, exec (.mailAck c p h) s = .next t ∧ now t (fun n => n.acked = h.nextFrag ∧ n.status = 0 ∧
            n.progressAt = if m.acked < h.nextFrag then s.count else m.progressAt)) ∧
        (h.status = 6 ∨ h.status = 9 → ∃ t, exec (.mailAck c p h) s = .next t ∧
          now t (fun n => n = { m with status := h.status, statusAt := s.count, acked := h.nextFrag })) ∧
        (h.status = 7 ∨ h.status = 8 → x.yard.outbox = [] → ∃ t, exec (.mailAck c p h) s = .next t ∧ ended t ∧
          (t.ch c).mem.store = x.mem.store ∧
          (m.yard = none → x.ctl.st = .running → (t.ch c).ctl.st = .hold ∧ (t.ch c).run.holdStatus = 0x10f) ∧
          (m.yard ≠ none → (t.ch c).ctl.st = x.ctl.st)) ∧
        (h.status ∉ [0, 6, 7, 8, 9] → ∃ t, exec (.mailAck c p h) s = .next t ∧ frame t ∧ (t.ch c).hub.msgsOut = x.hub.msgsOut ∧
          (t.ch c).mem = x.mem ∧ (t.ch c).run = x.run))

/-- The link layer, forwarding, retries and the far tier's link: On a port that is up: HELLO is kept with its PARTNER, and one whose
RESET_GEN differs from the last ends the operations to its rank and the sequences with it; HELLO_TRANSMIT, due 2^16 counts after the
last, sends one; CTRL adds its credits, drops the wagons it acknowledges, with NAK sends the others again, and sends what the credits
allow; a failed wagon, and a failed resend of it, is answered with a NAK; CREDIT_RETURN sends freed credits; PORT_DOWN takes the port
out of use, counts and logs it, and no operation is left on it; a FORWARD whose HOPS are used up is discarded, counted and logged, any
other goes on by route table with one hop less. LINK_UP of a port in training makes it UP with the credits of an empty receiver and
PORT_FAILED makes it FAILED. A solicitation of an own address is answered; a discarded frame is counted. MAIL_TIMEOUT and MAIL_RETRY,
when due, send the message again from what has been acknowledged; PARTNER_TIMEOUT ends a car's message, or the operations to a rank that
has no path, and holds a RUNNING channel. The far tier is UP with its capacity once trained, or failed; when its link goes it is DOWN,
writes that had not arrived are undone, and a RUNNING channel holds. Where a command's condition does not hold, nothing changes. Rests on
R200, R201, R224, R225, R228, R229, R230, R239, R241, R244, R245. -/
def Obligations.links_keep_their_credits_and_sequences : Prop :=
  ∀ (c : Ch) (p : Pt) (s : State),
    let x := s.ch c
    let q := x.hub.ports[p]
    let port := fun (t : State) => (t.ch c).hub.ports[p]
    let frame := fun (t : State) => t.besides c = s.besides c ∧ t.clock = s.clock ∧ (t.ch c).mem = x.mem
    let stored := fun (t : State) => t.besides c = s.besides c ∧ t.clock = s.clock ∧ (t.ch c).mem.store = x.mem.store ∧
      (t.ch c).mem.restW = x.mem.restW
    let wagons := fun (l : List Wagon) => l.map (fun w => Out.wagon c p w)
    let held := fun (t : State) (code : Nat) => x.ctl.st = .running → (t.ch c).ctl.st = .hold ∧ (t.ch c).run.holdStatus = code
    (s.portOpen c p → x.run.stops = [] → ∀ g, ∃ t, exec (.hello c p g) s = .next t ∧ stored t ∧ (port t).hello = some g ∧
      (port t).helloAt = s.count ∧ (port t).partner = g.rank % 65536 + g.port % 8 * 65536 + 2 ^ 31 ∧
      ((∀ o, q.hello = some o → o.resetGen = g.resetGen) → (t.ch c).mem = x.mem ∧ (t.ch c).hub.ops = x.hub.ops ∧
        (t.ch c).hub.peers = x.hub.peers) ∧
      (∀ o, q.hello = some o → o.resetGen ≠ g.resetGen →
        (t.ch c).hub.ops = x.hub.ops.filter (fun a => x.hub.ports[ptOf a.port].rank? != some o.rank) ∧
        (t.ch c).hub.peers = x.hub.peers.filter (fun e => e.rank != o.rank) ∧
        ((t.ch c).hub.ops ≠ x.hub.ops → held t 0x10d))) ∧
    (s.portOpen c p →
      (s.after q.helloSent (2 ^ 16) = true → ∃ t w g, exec (.helloTransmit c p) s = .next t ∧ frame t ∧
        (port t).helloSent = s.count ∧ t.out = s.out ++ [.wagon c p w] ∧ w.vl = 3 ∧ w.kind = 3 ∧ w.payload = Hello.bytes g ∧
        g.rank = x.rank ∧ g.port = p.val ∧ g.resetGen = x.hub.resetGen ∧ g.windowOpen = s.windowOpen c p) ∧
      (s.after q.helloSent (2 ^ 16) = false → exec (.helloTransmit c p) s = .next s)) ∧
    (s.portOpen c p → ∀ k : Ctrl,
      let left := q.unacked.filter (fun w => !ackedBy k.ackSeq w.lseq)
      let r := Port.push { q with
        unacked := left
        credit := [q.credit.getD 0 0 + k.reqCredit, q.credit.getD 1 0 + k.respCredit, q.credit.getD 2 0 + k.mailCredit]
        retries := if k.nak then q.retries + left.length else q.retries } q.waiting []
      ∃ t, exec (.ctrl c p k) s = .next t ∧ frame t ∧ port t = r.1 ∧
        t.out = s.out ++ (if k.nak then wagons left else []) ++ wagons r.2) ∧
    (s.portOpen c p → ∀ n,
      (q.nakSent = true → n % 1024 ≠ q.failLseq → exec (.failedWagon c p n) s = .next s) ∧
      (q.nakSent = false ∨ n % 1024 = q.failLseq → ∃ t w, exec (.failedWagon c p n) s = .next t ∧ frame t ∧ (port t).nakSent = true ∧
        (port t).failLseq = n % 1024 ∧ (port t).failRun = (if q.nakSent then q.failRun + 1 else 1) ∧
        t.out = s.out ++ [.wagon c p w] ∧ w.vl = 3 ∧ w.kind = 2 ∧ w.train = (n % 1024 + 1023) % 1024 * 4 + 2)) ∧
    (s.portOpen c p →
      (q.freed.any (· != 0) = true → let sent := fun i => min 4095 (q.freed.getD i 0)
        ∃ t w, exec (.creditReturn c p) s = .next t ∧ frame t ∧ t.out = s.out ++ [.wagon c p w] ∧ w.vl = 3 ∧ w.kind = 2 ∧
          w.train = (q.rxLseq + 1023) % 1024 * 4 ∧ w.waybill = BitVec.ofNat 32 (sent 0 * 2 ^ 20 + sent 1 * 2 ^ 8) ∧
          w.index = sent 2 * 64 ∧ ∀ i, i < 3 → (port t).freed.getD i 0 = q.freed.getD i 0 - sent i) ∧
      (q.freed.any (· != 0) = false → exec (.creditReturn c p) s = .next s)) ∧
    (x.serves = true → q.linkState = 2 → ∀ lost,
      (lost = false → q.failRun < 8 → exec (.portDown c p lost) s = .next s) ∧
      (lost = true ∨ 8 ≤ q.failRun → x.mem.marks = [] → (∀ o ∈ x.hub.ops, o.poisoned = []) →
        ∃ t, exec (.portDown c p lost) s = .next t ∧ stored t ∧ (port t).linkState = (if q.linkEnable then 1 else 0) ∧
          (port t).linkDowns = (q.linkDowns + 1) % 2 ^ 32 ∧ (port t).unacked = [] ∧ s.logged t c 0x0901 ∧
          (t.ch c).hub.ops.map (fun o => (o.port, o.seq, o.id)) = x.hub.ops.map (fun o => (o.port, o.seq, o.id)) ∧
          (∀ o ∈ (t.ch c).hub.ops, o.via ≠ some p.val) ∧ (t.ch c).hub.msgsOut.map (·.id) = x.hub.msgsOut.map (·.id))) ∧
    (x.serves = true → q.linkState = 2 → ∀ lane op (h : MailHead) data bad, lane = 1 ∨ lane = 2 →
      let i := Instr.forward c p lane op h data bad
      let payload := if lane = 2 then data else data.drop 32
      (h.dstRank = x.rank → exec i s = .next s) ∧
      (h.dstRank ≠ x.rank → lane = 2 → h.hops = 0 → ∃ t, exec i s = .next t ∧ frame t ∧ t.out = s.out ∧
        (t.ch c).hub.mailHops = x.hub.mailHops + 1 ∧ s.logged t c 0x0908) ∧
      (h.dstRank ≠ x.rank → lane = 1 ∨ h.hops ≠ 0 →
        (x.hub.routePort h.dstRank = none → ∃ t, exec i s = .next t ∧ frame t ∧ t.out = s.out) ∧
        ∀ v, x.hub.routePort h.dstRank = some v →
          (x.hub.ports[v].mode = 0 ∨ bad = [] → ∃ t u : State, exec i s = .next t ∧ frame t ∧ u.out = s.out ∧
            t = u.sendMailOn c v lane op h.dstRank (fun off => if lane = 2
              then MailHead.bytes { h with hops := h.hops - 1, fragFirst := h.fragFirst + off / 256 } else data.take 32) 0 payload bad) ∧
          (x.hub.ports[v].mode ≠ 0 → bad ≠ [] → ∃ t, exec i s = .next t ∧ t.besides c = s.besides c ∧ t.clock = s.clock ∧
            x.contained (t.ch c) 1))) ∧
    (x.serves = true → x.run.stops = [] → (∀ o ∈ x.hub.ops, o.noPathAt = none) → x.hub.msgsOut = [] → ∀ g,
      (q.linkState ≠ 1 → exec (.linkUp c p g) s = .next s) ∧
      (q.linkState = 1 → ∃ t, exec (.linkUp c p g) s = .next t ∧ stored t ∧ (port t).linkState = 2 ∧ (port t).trainFails = 0 ∧
        (port t).credit = [16384, 16384, 2048] ∧ (port t).freed = [0, 0, q.mailUnits - 2048] ∧ (port t).rxLseq = 0 ∧
        (port t).txLseq = 0 ∧ (port t).unacked = [] ∧
        (q.mode = 0 → (port t).hello = some g ∧ (port t).helloSent = s.count ∧ (port t).helloAt = s.count) ∧
        (q.mode ≠ 0 → (port t).hello = q.hello))) ∧
    (x.serves = true →
      (q.linkState = 1 → ∃ t, exec (.portFailed c p) s = .next t ∧ frame t ∧ (port t).linkState = 3 ∧ s.logged t c 0x0902) ∧
      (q.linkState ≠ 1 → exec (.portFailed c p) s = .next s)) ∧
    (x.serves = true → q.mode ≠ 0 → q.linkState = 2 →
      (∃ t, exec (.discardedFrame c p) s = .next t ∧ frame t ∧ t.out = s.out ∧ port t = { q with ethDiscards := q.ethDiscards + 1 }) ∧
      (∀ a, exec (.neighbourSolicitation (some (c, p)) a) s = .next (if q.ipv6 = a then s.send (.advert a) else s))) ∧
    (s.m.sm = .ready → ∀ a, exec (.neighbourSolicitation none a) s = .next
      (if a = Config.linkLocal ∨ (s.m.mgmtIpv6 ≠ zeros 16 ∧ a = s.m.mgmtIpv6) then s.send (.advert a) else s)) ∧
    (x.serves = true → x.run.stops = [] → ∀ slot m, x.hub.msgsOut[slot]? = some m → (x.hub.msgsOut.map (·.id)).Nodup →
      let ripe := fun (i : Instr) (due : Prop) =>
        (due → m.yard ≠ none ∨ x.mem.poisonIn m.src m.head.length = none →
          ∃ t n, exec i s = .next t ∧ stored t ∧ (t.ch c).hub.mailResends = x.hub.mailResends + 1 ∧
            (t.ch c).hub.msgsOut = x.hub.msgsOut.set slot n ∧
            n = { m with triedAt := s.count, status := 0, ways := n.ways
                         sent := if x.hub.routePort m.head.dstRank = none then m.acked else max m.acked (min m.frags (m.acked + 16384)) }) ∧
        (¬due → exec i s = .next s)
      ripe (.mailTimeout c slot) (m.status = 0 ∧ s.after (max m.progressAt m.triedAt) x.hub.mailTimeout = true) ∧
      ripe (.mailRetry c slot) ((m.status = 6 ∨ m.status = 9) ∧ s.after m.statusAt x.hub.mailRetry = true) ∧
      (m.yard = none → s.after m.progressAt x.hub.partnerTimeout = true →
        ∃ t, exec (.partnerTimeout c true slot) s = .next t ∧ stored t ∧ held t 0x10f ∧
          (t.ch c).hub.msgsOut = x.hub.msgsOut.filter (fun g => g.id != m.id)) ∧
      (m.yard ≠ none ∨ s.after m.progressAt x.hub.partnerTimeout = false → exec (.partnerTimeout c true slot) s = .next s)) ∧
    (x.serves = true → x.run.stops = [] → ∀ slot o, x.hub.ops[slot]? = some o →
      (∀ t0, o.noPathAt = some t0 → s.after t0 x.hub.partnerTimeout = true →
        ∃ t, exec (.partnerTimeout c false slot) s = .next t ∧ stored t ∧ held t 0x10d ∧
          ∀ a, a ∈ (t.ch c).hub.ops ↔ a ∈ x.hub.ops ∧ ∀ b ∈ x.hub.pathless (x.hub.opRank o), ¬(b.port = a.port ∧ b.seq = a.seq)) ∧
      ((∀ t0, o.noPathAt = some t0 → s.after t0 x.hub.partnerTimeout = false) → exec (.partnerTimeout c false slot) s = .next s)) ∧
    (x.serves = true → x.mem.farStatus = 1 →
      (∀ gen cap, exec (.farTrained c (some (gen, cap))) s =
        .next (s.onMem c (fun m => { m with farStatus := 2, farLink := gen % 256, farCapacity := farAddressable cap }))) ∧
      exec (.farTrained c none) s = .next (s.onMem c (fun m => { m with farStatus := 4 }))) ∧
    (x.mem.farStatus ≠ 1 → ∀ l, exec (.farTrained c l) s = .next s) ∧
    (x.mem.farStatus = 2 → ∃ t, exec (.farTierDown c) s = .next t ∧ t.besides c = s.besides c ∧ t.clock = s.clock ∧
      (t.ch c).mem.farStatus = 3 ∧ (t.ch c).mem.farLink = 0 ∧ (t.ch c).mem.farOps = [] ∧ held t 0x10b ∧
      (x.ctl.st ≠ .running → (t.ch c).ctl.st = x.ctl.st ∧ s.logged t c 0x0802) ∧
      ((∀ o ∈ x.mem.farOps, ∀ b, o.beneath = some b → b.1.length = 256) →
        ∀ a, (∀ o ∈ x.mem.farOps, a / 256 ≠ o.granule) → (t.ch c).mem.byte a = x.mem.byte a)) ∧
    (x.mem.farStatus ≠ 2 → exec (.farTierDown c) s = .next s)

/-- The doorbell commands: The entry at DB_HEAD, with its reserved fields zero and nothing before it still waiting, leaves the ring of a
channel that is not OFF. START and RESUME, where LAUNCH would be accepted, make the channel RUNNING and wait with their completion for
the first issued car; HOLD_REQUEST notes the request on a RUNNING channel and NOP does nothing, and each then writes its completion
record, with STATUS 0, ENTRY the entry's slot and ID, and the producer count, over a slice that is up; START, RESUME and HOLD_REQUEST in
another state complete with ST_STATE, log CMD_REFUSED and leave the run as it is; a reserved CMD or a reserved field that is not zero
completes with ST_VALUE; TT_LOAD starts the load of ARG and completes when the load ends. On an empty ring, or for an entry with another
CMD, the command does nothing. That the slice may be down is the model's reading (log entry 61). Rests on R280, R281, R282. -/
def Obligations.doorbell_entries_act_and_complete : Prop :=
  ∀ (c : Ch) (s : State),
    let x := s.ch c
    let h := x.host
    let e := h.entry
    let cmd := field e 0 1
    let id := (field e 16 8, h.dbHead)
    let done := fun (status : Nat) => s.out ++ (if field h.cplRing 0 8 = 0 ∨ field h.cplRing 16 2 = 0 ∨ h.link = 0 then [] else
      [Out.hostWrite c 0 (field h.cplRing 0 8 + 16 * (h.cplProd % field h.cplRing 16 2))
        (zeros 5 ++ bytesOfNat 1 h.dbHead ++ bytesOfNat 2 status ++ bytesOfNat 8 (field e 16 8)) false,
       .hostWrite c 0 (field h.cplRing 8 8) (bytesOfNat 4 ((h.cplProd + 1) % 2 ^ 32)) false])
    let frame := fun (t : State) => t.besides c = s.besides c ∧ t.clock = s.clock ∧ t.m = s.m ∧
      (t.ch c).mem.store = x.mem.store ∧ (t.ch c).host.dbHead = (h.dbHead + 1) % 64
    let turned := fun (i : Instr) => ∃ t, exec i s = .next t ∧ frame t ∧ (t.ch c).run = x.run ∧ (t.ch c).ctl.st = x.ctl.st ∧
      s.logged t c 0x0c01 ∧ t.out = done 0x11
    (h.dbHead = h.dbTail ∨ x.ctl.st = .off → exec (.dbStart c) s = .next s ∧ exec (.dbResume c) s = .next s ∧
      exec (.dbHoldRequest c) s = .next s ∧ exec (.dbTtLoad c) s = .next s ∧ exec (.dbNop c) s = .next s) ∧
    ((cmd ≠ 1 → exec (.dbStart c) s = .next s) ∧ (cmd ≠ 2 → exec (.dbResume c) s = .next s) ∧
      (cmd ≠ 3 → exec (.dbHoldRequest c) s = .next s) ∧ (cmd ≠ 4 → exec (.dbTtLoad c) s = .next s)) ∧
    (x.ctl.st ≠ .off → h.dbHead ≠ h.dbTail → h.startWait = none → h.goTail = none → s.m.secState ≠ 1 → h.evt.msiAddr = 0 →
      (entryClean e = true → cmd = 1 →
        (s.mayStart c = true → ∃ t, exec (.dbStart c) s = .next t ∧ frame t ∧ t.out = s.out ∧ (t.ch c).ctl.st = .running ∧
          (t.ch c).run.leg = x.run.startLeg ∧ (t.ch c).run.sigs = [] ∧ (t.ch c).host.startWait = some id) ∧
        (s.mayStart c = false → x.startBeyond = false → turned (.dbStart c))) ∧
      (entryClean e = true → cmd = 2 →
        (s.mayResume c = true → ∃ t, exec (.dbResume c) s = .next t ∧ frame t ∧ t.out = s.out ∧ (t.ch c).ctl.st = .running ∧
          (t.ch c).run.leg = x.run.leg ∧ (t.ch c).run.clusters = x.run.clusters ∧ (t.ch c).run.holdRequested = false ∧
          (t.ch c).host.startWait = some id) ∧
        (s.mayResume c = false → turned (.dbResume c))) ∧
      (entryClean e = true → cmd = 3 →
        (x.ctl.st = .running → ∃ t, exec (.dbHoldRequest c) s = .next t ∧ frame t ∧
          (t.ch c).run = { x.run with holdRequested := true } ∧ (t.ch c).ctl = x.ctl ∧ t.out = done 0) ∧
        (x.ctl.st ≠ .running → turned (.dbHoldRequest c))) ∧
      (entryClean e = true → cmd = 4 → x.ctl.st = .ready ∨ x.ctl.st = .hold → h.loadWait = none →
        ∃ t, exec (.dbTtLoad c) s = .next t ∧ frame t ∧ (x.mem.lines.all (fun l => !(l.host && l.dirty)) = true → t.out = s.out) ∧
          (t.ch c).ctl.st = x.ctl.st ∧ (t.ch c).run.loading = some (field e 24 8) ∧ (t.ch c).run.image = none ∧
          (t.ch c).run.loadResult = 0xffff ∧ (t.ch c).mem.lines = [] ∧ (t.ch c).host.loadWait = some id) ∧
      (entryClean e = true → cmd = 5 →
        ∃ t, exec (.dbNop c) s = .next t ∧ frame t ∧ (t.ch c).run = x.run ∧ (t.ch c).ctl = x.ctl ∧ t.out = done 0) ∧
      (cmd = 0 ∨ 5 < cmd ∨ (cmd = 5 ∧ entryClean e = false) →
        ∃ t, exec (.dbNop c) s = .next t ∧ frame t ∧ (t.ch c).run = x.run ∧
          (t.ch c).ctl = { x.ctl with refusals := x.ctl.refusals + 1 } ∧ t.out = done 4))

/-- DB_TAIL, EVT_CONSUMED, the mailboxes and event notifications: On a slice that carries traffic: DB_TAIL takes the low 6 bits when the new
entries fit and only counts an overrun when they do not; EVT_CONSUMED frees ring space, and after a loss one NOTIFY_OVERFLOW entry is
logged and put first; a GO is discarded while its mailbox is busy; a channel mailbox request submitted with the doorbell ring read up is
carried out at once and its response stands in the mailbox, unless it is a WAKE that waits, and one behind unread entries waits; the
module mailbox carries its request out, likewise; EVENT_NOTIFY of a channel writes the pending entries that fit to their places in the
ring, then the producer count, then the message, at least 2 µs after the last, and drops and counts the rest; the module's ring goes over
the lowest slice that carries traffic, its entries counting as consumed (log entry 44), which is the model's choice. On a slice that
carries none, they do nothing. Rests on R279, R280, R283, R284. -/
def Obligations.the_host_page_registers_act : Prop :=
  ∀ (c : Ch) (s : State),
    let h := (s.ch c).host
    let batch := fun (d : Ch) (r : EvtRing) =>
      let size := field r.ring 16 2
      let n := min r.pend.length (size - (r.prod + 2 ^ 32 - r.consumed) % 2 ^ 32)
      ((List.range n).map (fun i => Out.hostWrite d 0 (field r.ring 0 8 + 32 * ((r.prod + i) % size))
          (LogEntry.bytes (r.pend.getD i default)) false) ++
        (if n = 0 then [] else [.hostWrite d 0 (field r.ring 8 8) (bytesOfNat 4 ((r.prod + n) % 2 ^ 32)) false]) ++
        (if n = 0 ∨ r.msiAddr = 0 then [] else [.hostWrite d 0 r.msiAddr (bytesOfNat 4 r.msiData) false]),
       { r with pend := [], prod := (r.prod + n) % 2 ^ 32, dropped := r.dropped + (r.pend.length - n)
                lost := r.lost + (r.pend.length - n), lastMsg := if n = 0 ∨ r.msiAddr = 0 then r.lastMsg else some s.count })
    let due := fun (r : EvtRing) => r.pend ≠ [] ∧ (r.msiAddr = 0 ∨ ∀ t, r.lastMsg = some t → t + 238 ≤ s.count)
    let submitted := fun (m : Mailbox) => { m with rsp := [], state := 1 }
    let answered := fun (m : Mailbox) (status : Nat) (value : List Byte) =>
      { m with rsp := responseOf (fitBytes 256 m.req) status value, state := 2 }
    (s.carries c = false → (∀ v, exec (.dbTail c v) s = .next s ∧ exec (.evtConsumed c v) s = .next s) ∧
      exec (.chMboxGo c) s = .next s ∧ exec (.modMboxGo c) s = .next s ∧ exec (.eventNotify (some c)) s = .next s) ∧
    (s.carries c = true → s.serviceOnly = false →
      (∀ v, exec (.dbTail c v) s = .next (s.onHost c (fun h =>
        if (v % 64 + 64 - h.dbTail) % 64 ≤ 63 - (h.dbTail + 64 - h.dbHead) % 64 then { h with dbTail := v % 64 }
        else { h with overrun := h.overrun + 1 }))) ∧
      (∀ v, h.evt.lost = 0 ∨ field h.evt.ring 16 2 ≤ (h.evt.prod + 2 ^ 32 - v % 2 ^ 32) % 2 ^ 32 →
        exec (.evtConsumed c v) s = .next (s.onHost c (fun h => { h with evt := { h.evt with consumed := v % 2 ^ 32 } }))) ∧
      (∀ v, h.evt.lost ≠ 0 → (h.evt.prod + 2 ^ 32 - v % 2 ^ 32) % 2 ^ 32 < field h.evt.ring 16 2 →
        ∃ t e, exec (.evtConsumed c v) s = .next t ∧ t.besides c = s.besides c ∧ t.clock = s.clock ∧ t.m = s.m ∧ t.out = s.out ∧
          s.logged t c 0x0b03 ∧ e.code = 0x0b03 ∧ e.param = paramBytes [(8, h.evt.lost)] ∧
          (t.ch c).host.evt = { h.evt with consumed := v % 2 ^ 32, lost := 0, pend := e :: h.evt.pend } ∧
          (t.ch c).run = (s.ch c).run ∧ (t.ch c).mem = (s.ch c).mem) ∧
      (h.mbox.state = 1 → exec (.chMboxGo c) s = .next s) ∧
      (h.mbox.state ≠ 1 → (s.ch c).ctl.st ≠ .off → h.startWait = none → h.dbHead ≠ h.dbTail →
        exec (.chMboxGo c) s = .next (s.onHost c (fun h => { h with mbox := submitted h.mbox, goTail := some h.dbTail }))) ∧
      (h.mbox.state ≠ 1 → (s.ch c).ctl.st ≠ .off → h.startWait = none → h.dbHead = h.dbTail →
        let q := requestOf (fitBytes 256 h.mbox.req)
        let r := (s.onHost c (fun h => { h with mbox := submitted h.mbox, goTail := none })).request (.chMbox c) q
        (∀ d, r.2.2.wakeWaits q r.1 = some d →
          exec (.chMboxGo c) s = .next (r.2.2.onCtl d (fun k => { k with waking := k.waking ++ [.chMbox c] }))) ∧
        (r.2.2.wakeWaits q r.1 = none → (r.2.2.ch c).host.mbox.state = 1 →
          exec (.chMboxGo c) s = .next (r.2.2.onHost c (fun h => { h with mbox := answered h.mbox r.1 r.2.1 })))) ∧
      (due h.evt → exec (.eventNotify (some c)) s =
        .next { s.onHost c (fun h => { h with evt := (batch c h.evt).2 }) with out := s.out ++ (batch c h.evt).1 })) ∧
    (s.carries c = true →
      (s.m.mbox.state = 1 → exec (.modMboxGo c) s = .next s) ∧
      (s.m.mbox.state ≠ 1 → s.hears .modMbox = true →
        let q := requestOf (fitBytes 256 s.m.mbox.req)
        let r := (s.onM (fun m => { m with mbox := submitted m.mbox })).request .modMbox q
        (∀ d, r.2.2.wakeWaits q r.1 = some d →
          exec (.modMboxGo c) s = .next (r.2.2.onCtl d (fun k => { k with waking := k.waking ++ [.modMbox] }))) ∧
        (r.2.2.wakeWaits q r.1 = none → r.2.2.m.mbox.state = 1 →
          exec (.modMboxGo c) s = .next (r.2.2.onM (fun m => { m with mbox := answered m.mbox r.1 r.2.1 }))))) ∧
    (∀ d, s.lowSlice = some d → due s.m.evt → s.m.secState = 0 → exec (.eventNotify none) s =
      .next { s.onM (fun m => { m with evt := (batch d { m.evt with consumed := m.evt.prod }).2 }) with
                out := s.out ++ (batch d { s.m.evt with consumed := s.m.evt.prod }).1 })

/-- Host reads and writes, recalls, completions and the slice: A host read that its pages let in is answered with the bytes that stand
there once the memory errors it meets have been met, poisoned when one of its granules is, and changes no memory; one of the host page
gives the register; one that its pages do not let in is answered as unsupported. A host write that its pages let in stores its bytes and
nothing else, and one that hits a watched page of a channel RUNNING in STRICT mode is logged; one to the host page acts on its registers;
any other changes no memory, and one at a doorbell is counted. A RECALL writes the dirty sectors of its line back, drops the line and
answers whether any was dirty. A completion ends its access: that of a write changes no memory, that of a shared read fills its sector,
that of an owning read fills it and puts the car's bytes in. FLIT_REPLAY counts. SLICE_UP brings the slice up and sends the writes that
waited; its loss, or a read without completion for HOST_TIMEOUT, is logged, ends what was outstanding and holds a RUNNING channel that
lost any. A slice that is down answers nothing. Rests on R272, R273, R274, R275, R278, R279, R285. -/
def Obligations.the_host_link_serves_memory : Prop :=
  ∀ (c : Ch) (s : State),
    let x := s.ch c
    let h := x.host
    let only := fun (t : State) => t.besides c = s.besides c ∧ t.clock = s.clock ∧ t.m = s.m
    let up := s.carries c = true ∧ s.serviceOnly = false
    let dirty := fun (l : DepotLine) => l.host && l.dirty
    let unowned := ∀ o ∈ h.ops, o.read = true → o.kind = 2 ∨ x.run.ownerOf o.id = none
    (s.carries c = false → ∀ a n data ms, exec (.hostRead c a n ms) s = .next s ∧ exec (.hostWrite c a data) s = .next s) ∧
    (∀ a n ms, up → s.pageOk a n = false →
      let u := s.meetAll c (ms.filter (fun f => overlaps (f.addr / 256 * 256) 256 a n))
      (x.inboundAll a n false = true → ∃ t w, exec (.hostRead c a n ms) s = .next t ∧ t.besides c = u.besides c ∧ t.clock = u.clock ∧
        t.m = u.m ∧ (t.ch c).mem.store = (u.ch c).mem.store ∧ (t.ch c).run = (u.ch c).run ∧
        t.out = u.out ++ w ++ [.hostAnswer c ((u.ch c).mem.read a n) ((u.ch c).mem.poisonIn a n).isSome false] ∧
        (x.mem.depotSize = 0 → w = [])) ∧
      (x.inboundAll a n false = false → exec (.hostRead c a n ms) s = .next (s.send (.hostAnswer c [] false true)))) ∧
    (up →
      let reads := fun (o : Nat) (bs : List Byte) =>
        exec (.hostRead c (hostPage + o) bs.length []) s = .next (s.send (.hostAnswer c bs false false))
      reads 8 (bytesOfNat 8 h.dbHead) ∧ reads 0x1200 (tab 256 (fun i => h.mbox.rsp.getD i 0)) ∧ reads 0x1300 (bytesOfNat 8 h.mbox.state) ∧
        reads 0x2200 (tab 256 (fun i => s.m.mbox.rsp.getD i 0)) ∧ reads 0x2300 (bytesOfNat 8 s.m.mbox.state) ∧ reads 0 (zeros 8) ∧
      (∀ data, data.length = 8 → exec (.hostWrite c hostPage data) s =
        .next ((s.putTail c (natOfBytes data)).send (.hostAnswer c [] false false))) ∧
      (∀ o data, o + data.length ≤ 2048 → ∃ t, exec (.hostWrite c (hostPage + 0x100 + o) data) s = .next t ∧ only t ∧
        (∀ i < data.length, Tab.get 0 (t.ch c).host.dbRing (o + i) = data.getD i 0) ∧ (t.ch c).run = x.run ∧ (t.ch c).mem = x.mem ∧
        t.out = s.out ++ [.hostAnswer c [] false false])) ∧
    (∀ a data, up → s.pageOk a data.length = false →
      (x.inboundAll a data.length true = true →
        ∃ t w, exec (.hostWrite c a data) s = .next t ∧ only t ∧ x.mem.tookBytes (t.ch c).mem a data ∧ (t.ch c).ctl.st = x.ctl.st ∧
          (x.ctl.st = .running → x.watch.detMode = 0 → (granules a data.length).any (fun g => x.isWatch (g * 256)) = true →
            s.logged t c 0x0803) ∧
          t.out = s.out ++ w ++ [.hostAnswer c [] false false] ∧ (x.mem.depotSize = 0 → w = [])) ∧
      (x.inboundAll a data.length true = false → exec (.hostWrite c a data) s =
        .next ((s.onHub c (fun b => { b with
          doorbellRefused := b.doorbellRefused + (if nearDoorbells a data.length then 1 else 0) })).send (.hostAnswer c [] false true)))) ∧
    (∀ a,
      let mine := x.mem.lines.filter (fun l => l.host && l.addr == a / 4096 * 4096)
      (h.link = 0 → exec (.recall c a) s = .next s) ∧
      (h.link ≠ 0 → ∃ t, exec (.recall c a) s = .next t ∧ only t ∧
        (t.ch c).mem = { x.mem with lines := x.mem.lines.filter (fun l => !(l.host && l.addr == a / 4096 * 4096)) } ∧
        Out.recallAnswer c (a / 4096 * 4096) (mine.any DepotLine.dirty) ∈ t.out ∧
        ∀ l ∈ mine, ∀ q ∈ l.sectors, q.dirty = true →
          ∃ tag, Out.hostWrite c tag (l.addr + 256 * q.no) q.bytes q.poisoned ∈ t.out)) ∧
    (∀ id data bad, h.link = 0 ∨ (h.ops.find? (fun q => q.sent && q.tag == id)) = none →
      exec (.hostCompletion c id data bad) s = .next s) ∧
    (∀ o data bad, h.link ≠ 0 → x.run.stops = [] → h.ops.all (fun q => q.sent) = true → h.ops.find? (fun q => q.tag == o.tag) = some o →
      let gone := { h with ops := h.ops.filter (fun p => p.tag != o.tag) }
      ∃ t, exec (.hostCompletion c o.tag data bad) s = .next t ∧ t.clock = s.clock ∧
        (o.read = false → only t ∧ t.ch c = { x with host := gone, run := { x.run with activeAt := s.count } }) ∧
        (o.read = true → o.kind = 0 → x.run.ownerOf o.id = none → only t ∧ t.ch c = { x with host := gone }) ∧
        (o.read = true → o.kind = 1 → x.run.ownerOf o.id = none → x.mem.sector? true o.addr = none → only t ∧
          (t.ch c).mem.store = x.mem.store ∧ (t.ch c).mem.sector? true o.addr =
            some { no := o.addr % 4096 / 256, dirty := false, bytes := fitBytes o.length data, poisoned := bad }) ∧
        (o.read = true → o.kind = 2 → x.mem.sector? true o.dst = none → only t ∧ (t.ch c).mem.store = x.mem.store ∧
          (t.ch c).mem.sector? true o.dst = some
            { no := o.dst % 4096 / 256, dirty := true, bytes := patch (fitBytes 256 (fitBytes o.length data)) (o.dst % 256) o.data
              poisoned := o.poisoned || (bad && o.data.length != 256) })) ∧
    (exec (.flitReplay c) s = .next (s.onHost c (fun h => { h with flitReplays := h.flitReplays + (if h.link = 0 then 0 else 1) }))) ∧
    (∀ link, let may := h.link = 0 ∧ (link = 0x11 ∨ link = 0x12 ∨ link = 0x21 ∨ link = 0x22) ∧
        (x.sliceMay = true ∨ (s.m.service = true ∧ c = 0))
      (may → ∃ t, exec (.sliceUp c link) s = .next t ∧ only t ∧ (t.ch c).host.link = link ∧
        (h.ops.all (fun q => q.sent) = true → t = s.onHost c (fun h => { h with link := link })) ∧
        ∀ o ∈ h.ops, o.sent = false → o.read = false → Out.hostWrite c o.tag o.addr o.data o.poisoned ∈ t.out) ∧
      (¬ may → exec (.sliceUp c link) s = .next s)) ∧
    (h.link = 0 → exec (.hostLinkDown c) s = .next s) ∧
    (h.link ≠ 0 → unowned →
      ∃ t, exec (.hostLinkDown c) s = .next t ∧ only t ∧ (t.ch c).host.link = 0 ∧ (t.ch c).host.ops = [] ∧
        (t.ch c).mem.store = x.mem.store ∧ (∀ l ∈ (t.ch c).mem.lines, dirty l = false) ∧
        (x.ctl.st = .running → h.ops ≠ [] ∨ x.mem.lines.any dirty = true → (t.ch c).ctl.st = .hold ∧ (t.ch c).run.holdStatus = 0x112) ∧
        (x.ctl.st ≠ .running ∨ (h.ops = [] ∧ x.mem.lines.any dirty = false) →
          (t.ch c).ctl.st = x.ctl.st ∧ (t.ch c).run = x.run ∧ s.logged t c 0x0b01)) ∧
    (unowned → (∃ o ∈ h.ops, o.read = true ∧ o.sent = true ∧ o.sentAt + h.timeout ≤ s.count) →
      ∃ t, exec (.hostTimeout c) s = .next t ∧ only t ∧ (t.ch c).host.link = h.link ∧ (t.ch c).host.ops = [] ∧
        (t.ch c).mem.store = x.mem.store ∧ (∀ l ∈ (t.ch c).mem.lines, dirty l = false) ∧
        (x.ctl.st = .running → (t.ch c).ctl.st = .hold ∧ (t.ch c).run.holdStatus = 0x113) ∧
        (x.ctl.st ≠ .running → (t.ch c).ctl.st = x.ctl.st ∧ (t.ch c).run = x.run ∧ s.logged t c 0x0b02))

/-- POWER_SHARE, SUSTAINED_LIMIT, easing, MARGIN_MONITOR and the energy figures: POWER_SHARE takes the measurements, adds the energies, and
gives every channel that is not OFF the lesser of its demand (the estimate at the fastest step its other sources allow when RUNNING, its
measured power otherwise) and one common level, each demand when all lie below the equal share, and with it the fastest step whose
estimate does not exceed the share; every reefing channel then decides its step. SUSTAINED_LIMIT takes the sustained source one step down
when more than 1/16 of the issue cycles were eased, and one step up after 10 ms without rail easing and with every rail, the reserved
60 A of each grant counted, below 80 % of its sustained limit. An easing level rises by 1, to 15 at most, when an average it guards
stands at 97 % of its limit or more, and falls by 1 when all stand below 90 %: a region's current, its neighbours' stays counted, against
5 A for each healthy cell, a channel's rails against their window and sustained limits, the module's power against 5,600 W or, until a
shed's change has taken effect, SHED_POWER. MARGIN_MONITOR raises the voltage the region holds by 5 mV below a margin of 12, slows the
region and logs 0x0D05 where that would exceed 800 mV, and lowers it 5 mV, not below 450, after 100 ms above 30. JOULES_PER_TOKEN and
LIFETIME_SERVICE are recomputed and written as their rules say. The reading of the estimate (ratio first) and of the FP32 quotients is
the model's (log entries 28, 30). Rests on R310, R311, R312, R313, R316, R317, R319, R320, R321, R329, R375. -/
def Obligations.power_is_measured_shared_and_eased : Prop :=
  ∀ (s : State),
    let reserved := fun (c : Ch) => 60000 * (allRegions.filter (fun r => ((s.ch c).sup.region r).reserved)).length
    let drawn := fun (c : Ch) (amps : List Nat) (i : Nat) => amps.getD i 0 + if i = 0 then reserved c else 0
    let limit := fun (i : Nat) => [720000, 180000, 60000, 40000].getD i 0
    (∀ (p : Measured), s.m.sm = .ready →
      let a := div32 (natTo32 (s.m.allowance - 40)) (natTo32 s.liveCh.length)
      let demand := fun (c : Ch) =>
        let w := p.channelPower.getD c.val 0
        let u := (s.ch c).sup
        if (s.ch c).ctl.st = .running then scalePower w (min 7 (maxOf ((s.otherSteps c).map (·.2)))) u.step else w
      ∃ (t : State) (level : W32), exec (.powerShare p) s = .next t ∧ s.onlySup t ∧
        t.m = { s.m with power := p.modulePower, volts := p.volts, amps := p.amps, energy := s.m.energy + p.moduleMilliJ } ∧
        (∀ c,
          let u := (s.ch c).sup
          let v := (t.ch c).sup
          let est := fun (j : Nat) => scalePower (p.channelPower.getD c.val 0) j u.step
          v.steady = { u.steady with
            power := p.channelPower.getD c.val 0, energy := u.energy + p.channelMilliJ.getD c.val 0, shareStep := v.shareStep
            share := if (s.ch c).ctl.st = .off then u.share else if lt32 (demand c) level = true then demand c else level } ∧
          ((s.ch c).ctl.st = .off → v.shareStep = u.shareStep) ∧
          ((s.ch c).ctl.st ≠ .off → v.shareStep ≤ 7 ∧ (∀ j < v.shareStep, lt32 v.share (est j) = true) ∧
            (v.shareStep < 7 → lt32 v.share (est v.shareStep) = false))) ∧
        ((∀ c, (s.ch c).ctl.st ≠ .off → lt32 (demand c) a = true) → ∀ c, (s.ch c).ctl.st ≠ .off → (t.ch c).sup.share = demand c) ∧
        ∀ c, s.reefs c = true → t.decided c (s.ch c).sup) ∧
    (∀ (c : Ch) (eased : Nat) (amps : List Nat),
      let u := (s.ch c).sup
      let busy := eased ≠ 0 ∨ (∃ i < 4, 80 * limit i ≤ 100 * drawn c amps i) ∨ u.easing ≠ 0
      (s.reefs c = false → exec (.sustainedLimit c eased amps) s = .next s) ∧
      (s.reefs c = true →
        ∃ t, exec (.sustainedLimit c eased amps) s = .next t ∧ s.onlyCh t c ∧ t.ch c = { s.ch c with sup := (t.ch c).sup } ∧
          (t.ch c).sup.steady = { u.steady with sustained := (t.ch c).sup.sustained, quietSince := (t.ch c).sup.quietSince } ∧
          (1 < eased → (t.ch c).sup.sustained = min 7 (u.step + 1) ∧ (t.ch c).sup.quietSince = s.count) ∧
          (eased ≤ 1 → busy → (t.ch c).sup.sustained = u.sustained ∧ (t.ch c).sup.quietSince = s.count) ∧
          (¬ busy →
            (s.count < u.quietSince + 1187500 → t = s) ∧
            (u.quietSince + 1187500 ≤ s.count → (t.ch c).sup.sustained = u.sustained - 1 ∧ (t.ch c).sup.quietSince = s.count)) ∧
          ((t.ch c).sup.sustained ≠ u.sustained → t.decided c u))) ∧
    (∀ (x : EaseScope) (a : Averages),
      let guarded : List (Nat × Nat) := match x with
        | .region c r =>
          [(a.own + if (s.ch c).sup.carries r.val then a.stay else 0, 5000 * ((s.ch c).sup.regions[r]).healthy)]
        | .channel c =>
          (List.range 4).map (fun i => (drawn c a.window i, [800000, 200000, 66000, 48000].getD i 0)) ++
            (List.range 4).map (fun i => (drawn c a.sustained i, limit i))
        | .module =>
          [(a.power, 1000 * if s.m.shedding = true ∧ ∃ c, s.reefs c = true ∧ (s.ch c).sup.step < min 7 s.m.shedStep
            then min 5600 s.m.shedPower else 5600)]
      let eased := fun (f : Nat → Nat) => match x with
        | .region c r => s.onRegion c r (fun y => { y with easing := f y.easing })
        | .channel c => s.onSup c (fun u =>
          { u with easing := f u.easing, quietSince := if u.easing = 0 ∧ f u.easing = 0 then u.quietSince else s.count })
        | .module => s.onM (fun m => { m with easing := f m.easing })
      let high := s.m.sm ≠ .off ∧ ∃ e ∈ guarded, 97 * e.2 ≤ 100 * e.1
      let low := s.m.sm ≠ .off ∧ ∀ e ∈ guarded, 100 * e.1 < 90 * e.2
      (high → exec (.easingRise x a) s = .next (eased (fun e => min 15 (e + 1)))) ∧ (¬ high → exec (.easingRise x a) s = .next s) ∧
        (low → exec (.easingFall x a) s = .next (eased (fun e => e - 1))) ∧ (¬ low → exec (.easingFall x a) s = .next s)) ∧
    (∀ (c : Ch) (r : Rg) (margin : Nat),
      let u := (s.ch c).sup
      let x := u.regions[r]
      let j := u.level x
      let up := u.holdMv r.val j + 5
      let volts := fun (t : State) (v : Nat) (low : Option Nat) =>
        s.onlyCh t c ∧ t.ch c = { s.ch c with sup := { u with regions := (t.ch c).sup.regions } } ∧
        (∀ q : Rg, q ≠ r → ((t.ch c).sup.regions[q]).steady = (u.regions[q]).steady) ∧
        let y := (t.ch c).sup.regions[r]
        y = { x with stepMv := y.stepMv, lowSince := low, mv := if u.carries r.val then max 500 v else v } ∧
        ∀ k, k < 8 → y.mvAt k = if k = j then v else x.mvAt k
      (x.st ≠ .on → exec (.marginMonitor c r margin) s = .next s) ∧
      (x.st = .on → j < 8 → ∃ t, exec (.marginMonitor c r margin) s = .next t ∧
        (margin < 12 →
          (up ≤ 800 → volts t up none) ∧
          (800 < up → ((t.ch c).sup.regions[r]).fastest = min 7 (max x.fastest (j + 1)) ∧ s.logged t c 0x0d05 ∧
            t.besides c = s.besides c ∧ t.clock = s.clock ∧ (t.ch c).mem = (s.ch c).mem ∧ (t.ch c).run = (s.ch c).run ∧
            (s.reefs c = true → t.decided c u))) ∧
        (30 < margin →
          (x.lowSince = none → t = s.onRegion c r (fun y => { y with lowSince := some s.count })) ∧
          ∀ n, x.lowSince = some n →
            (n + 11875000 ≤ s.count → volts t (max 450 (x.mvAt j - 5)) (some s.count)) ∧
            (s.counting = true → s.count < n + 11875000 → t = s)) ∧
        (12 ≤ margin → margin ≤ 30 → t = s.onRegion c r (fun y => { y with lowSince := none })))) ∧
    (s.m.sm = .ready →
      (s.m.tokens = 0 → exec .joulesPerToken s = .next s) ∧
      (0 < s.m.tokens → s.m.tokenAt + 118750000 ≤ s.count →
        exec .joulesPerToken s = .next { s with m := { s.m with
          joules := div32 (div32 (natTo32 (s.m.energy - s.m.tokenEnergy)) (natTo32 1000)) (natTo32 s.m.tokens)
          tokens := 0, tokenEnergy := s.m.energy, tokenAt := s.count } }) ∧
      (s.m.lifetime.length = 4 → ∃ t, exec .lifetimeService s = .next t ∧ t.clock = s.clock ∧
        t.m = { s.m with lifetime := t.m.lifetime } ∧ t.m.lifetime.length = 4 ∧
        ∀ c, t.ch c = { s.ch c with ctl := { (s.ch c).ctl with lifeMark := (t.ch c).ctl.lifeMark } } ∧
          let k := (s.ch c).ctl
          let old := s.m.lifetime.getD c.val (0, 0)
          t.m.lifetime.getD c.val (0, 0) = (old.1 + ((s.ch c).serviceNow s.count - k.lifeMark.1) / 118750000,
            old.2 + (k.downtime - k.lifeMark.2) / 118750)))

/-- UPSHIFT_RAMP, VOLTAGE_CHECK, FREQUENCY_CHANGE and DROOP: From 1,024 counts before an upward change every region that is on takes the
voltage of the target step. From 64 counts before it, a region short of that voltage cancels the change: one more in UPSHIFTS_CANCELLED,
a 0x0E01 entry, the regions back at the present step's voltage, and a retry 4,096 counts after the cancelled count while the sources
still require it. At the change count every lag is 0, the step is the target and a further change that waited is the pending one, unless
a droop report of the 256 counts before an upward change cancels it in the same way; before that count, and with no change pending,
nothing happens. A sag first lets every region catch up by 1 cycle in 64, then stretches its own by its cycles and keeps it from catching
up while the supply stands low, counts a droop event when it exceeds 15 mV, reports it while an upward change is pending, and leaves every
other lag as it was where no two neighbouring regions then differ by more than 6 cycles. That the signals spread at the sag is the
model's reading (log entry 4). Rests on R318, R333, R334, R336, R337, R338, R339, R340. -/
def Obligations.frequency_changes_take_effect_or_are_cancelled : Prop :=
  ∀ (c : Ch) (s : State),
    let x := s.ch c
    let u := x.sup
    let on := fun (r : Rg) => (u.regions[r]).st = .on
    let cancelled := fun (t : State) (g : Change) =>
      t.besides c = s.besides c ∧ t.clock = s.clock ∧ t.ch c = { x with sup := (t.ch c).sup } ∧ (t.ch c).sup.step = u.step ∧
      (t.ch c).sup.upshiftsCancelled = u.upshiftsCancelled + 1 ∧ (t.ch c).sup.changesDone = u.changesDone ∧
      (t.ch c).sup.lastUp = u.lastUp ∧ s.loggedM t 0x0e01 ∧
      (∀ r, on r → ((t.ch c).sup.regions[r]).mv = u.holdMv r.val u.step) ∧
      (t.required c < u.step → (t.ch c).sup.change = some { g with due := g.due + 4096, raised := false }) ∧
      (u.step ≤ t.required c → s.reefs c = true → t.decided c { u with change := none })
    (u.change = none → exec (.upshiftRamp c) s = .next s ∧ (∀ mv, exec (.voltageCheck c mv) s = .next s) ∧
      exec (.frequencyChange c) s = .next s) ∧
    (∀ g, u.change = some g →
      (g.up = false ∨ g.raised = true ∨ s.count + 1024 < g.due → exec (.upshiftRamp c) s = .next s) ∧
      (g.up = true → g.raised = false → g.due ≤ s.count + 1024 →
        ∃ t, exec (.upshiftRamp c) s = .next t ∧ s.onlyCh t c ∧
          t.ch c = { x with sup := { u with change := some { g with raised := true }, regions := (t.ch c).sup.regions } } ∧
          ∀ r : Rg, (t.ch c).sup.regions[r] =
            if on r then { u.regions[r] with mv := u.holdMv r.val g.target }
            else if (u.regions[r]).st = .ramping then
              { u.regions[r] with mv := u.holdMv r.val (if g.due < (u.regions[r]).expect then g.target else u.step) }
            else u.regions[r]) ∧
      (∀ mv : List Nat, g.up = false ∨ s.count + 64 < g.due ∨ g.due ≤ s.count → exec (.voltageCheck c mv) s = .next s) ∧
      (∀ mv : List Nat, g.up = true → g.due ≤ s.count + 64 → s.count < g.due →
        ((∀ r, on r → u.holdMv r.val g.target ≤ mv.getD r.val 0) → exec (.voltageCheck c mv) s = .next s) ∧
        ((∃ r, on r ∧ mv.getD r.val 0 < u.holdMv r.val g.target) → ∃ t, exec (.voltageCheck c mv) s = .next t ∧ cancelled t g)) ∧
      (s.count < g.due → exec (.frequencyChange c) s = .next s) ∧
      (g.due ≤ s.count →
        let report := g.up = true ∧ ∃ e ∈ u.reports, g.due ≤ e.1 + 256 ∧ e.1 < g.due ∧ (u.region e.2).st = .on
        (report → ∃ t, exec (.frequencyChange c) s = .next t ∧ cancelled t g) ∧
        (¬report → ∃ t, exec (.frequencyChange c) s = .next t ∧ s.onlyCh t c ∧ t.ch c = { x with sup := (t.ch c).sup } ∧
          (t.ch c).sup.step = g.target ∧ (t.ch c).sup.changesDone = (u.changesDone + 1) % 2 ^ 32 ∧ (t.ch c).sup.reports = [] ∧
          (t.ch c).sup.lastUp = (if g.up then s.count else u.lastUp) ∧
          (∀ r : Rg, ((t.ch c).sup.regions[r]).lag = 0 ∧ (on r → ((t.ch c).sup.regions[r]).mv = u.holdMv r.val g.target)) ∧
          (∀ a, g.after = some a → t.required c ≤ a.2 →
            (t.ch c).sup.change = some { due := a.1, target := a.2, up := false, raised := false, after := none }) ∧
          (s.reefs c = true → g.after = none →
            t.decided c { u with change := none, step := g.target, lastUp := if g.up then s.count else u.lastUp })))) ∧
    (∀ (r : Rg) (mvBelow cycles counts : Nat), on r →
      let done := fun (a : Nat) => (s.count - (u.region a).lagAt) * reefN u.step + (u.region a).lagRem
      let lag := fun (a : Nat) => (u.region a).lag - done a / 80 + if a = r.val then cycles else 0
      let from' := fun (a : Nat) => max (u.region a).lagAt (if a = r.val then s.count + counts else s.count)
      ∃ t, exec (.droop c r mvBelow ⟨cycles, counts⟩) s = .next t ∧ s.onlyCh t c ∧
        let v := (t.ch c).sup
        t.ch c = { x with sup := { u with
          regions := v.regions, distantSignals := v.distantSignals, stretchCycles := v.stretchCycles, maxLag := v.maxLag
          droopEvents := u.droopEvents + if 15 < mvBelow then 1 else 0
          reports := u.reports ++ if 15 < mvBelow ∧ (∃ g, u.change = some g ∧ g.up = true) then [(s.count, r.val)] else [] } } ∧
        ((∀ a b, a < 24 → b < 24 → edgeNeighbours a b = true → (u.region a).st = .on → (u.region b).st = .on → lag a ≤ lag b + 6) →
          v.distantSignals = u.distantSignals ∧ v.stretchCycles = u.stretchCycles + cycles ∧
          v.maxLag = min 255 (max u.maxLag (lag r.val)) ∧
          ∀ a, a < 24 → v.region a = { u.region a with
            lag := lag a, lagRem := if (u.region a).lag ≤ done a / 80 then 0 else done a % 80, lagAt := from' a })) ∧
    (∀ (r : Rg) (mvBelow cycles counts : Nat), ¬ on r → exec (.droop c r mvBelow ⟨cycles, counts⟩) s = .next s)

/-- Ramp grants, REGION_ON, and failed cells and lost regions: With 60 A of headroom under the 720 A of VCORE_IN, the average and the
reservations that stand counted, the lowest waiting region gets the grant, and none with less, in SAFE or after a trip; its ramp goes to
the voltage of the pending step when it is expected on, 50 µs later, after the change count, else of the present one. A granted region
goes on at lag 0 and at the voltage of the step in force; a STANDBY channel whose last required region that is becomes READY and answers
the WAKE that waited. The reservation ends 1,188 counts later. A RUNNING channel that has waited 237,500 counts holds with RAMP_DENIED;
any other logs its wait then and every 100 ms. A failed cell is recorded and logged, the channel decides its step, and the fourth loses
the region. A region that is lost opens its stays, holds at 500 mV and draws no current; a RUNNING channel then stops with REGION_LOST and
the region's consists neither post nor issue, a HOLD channel holds for it, and READY and STANDBY channels lose an image that requires it;
memory outside the tenders stays as it is. That a WAKE waits with its answer is the model's reading (log entry 67). Rests on R322, R323,
R324, R326, R327, R340, R403. -/
def Obligations.regions_are_switched_on_and_lost : Prop :=
  ∀ (c : Ch) (s : State),
    let x := s.ch c
    let u := x.sup
    let drawn := fun (amps : Nat) => amps + 60000 * (allRegions.filter (fun r => (u.region r).reserved)).length
    let stepOf := fun (t : State) (f : Change → Bool) =>
      match (t.ch c).sup.change with
      | some g => if f g = true then g.target else u.step
      | none => u.step
    (∀ (amps : Nat),
      ((660000 < drawn amps ∨ s.m.st = .safe ∨ s.m.pins.tripN = false ∨ ∀ r : Rg, (u.regions[r]).st ≠ .waiting) →
        exec (.rampGrant c amps) s = .next s) ∧
      ∀ r : Rg, drawn amps ≤ 660000 → s.m.st ≠ .safe → s.m.pins.tripN = true → (u.regions[r]).st = .waiting →
        (∀ q : Rg, q.val < r.val → (u.regions[q]).st ≠ .waiting) →
        ∃ t, exec (.rampGrant c amps) s = .next t ∧ t.besides c = s.besides c ∧ t.clock = s.clock ∧
          t.ch c = { x with sup := (t.ch c).sup } ∧
          t.m = { s.m with rampWaits := if 1187 < s.count - (u.regions[r]).since then (s.m.rampWaits + 1) % 2 ^ 32 else s.m.rampWaits } ∧
          (t.ch c).sup.regions[r] = { u.regions[r] with
            st := .ramping, since := s.count, expect := s.count + 5938, reserved := true
            waited := s.count - (u.regions[r]).since, waitLogs := 0
            mv := u.holdMv r.val (stepOf t (fun g => decide (g.due < s.count + 5938))) } ∧
          ∀ q : Rg, q ≠ r → ((t.ch c).sup.regions[q]).steady = (u.regions[q]).steady) ∧
    (∀ (r : Rg),
      let y := u.regions[r]
      let ready := x.ctl.st = .standby ∧ u.refresh = false ∧
        ∀ i, x.run.image = some i → ∀ q : Rg, i.regionMask.testBit q.val = true → q ≠ r → (u.regions[q]).st = .on
      (y.st ≠ .ramping → exec (.regionOn c r) s = .next s) ∧
      (y.st = .ramping → ∃ t, exec (.regionOn c r) s = .next t ∧ t.besides c = s.besides c ∧ t.clock = s.clock ∧ (t.ch c).mem = x.mem ∧
        (t.ch c).run = x.run ∧
        (t.ch c).sup.regions[r] = { y with
          st := .on, since := s.count, lag := 0, lagRem := 0, lagAt := s.count, mv := u.holdMv r.val (stepOf t (fun g => g.raised)) } ∧
        (∀ q : Rg, q ≠ r → ((t.ch c).sup.regions[q]).steady = (u.regions[q]).steady) ∧
        (1187 < y.waited → s.logged t c 0x0d03) ∧ (y.waited ≤ 1187 → (t.ch c).ctl.log = x.ctl.log) ∧
        (ready → (t.ch c).ctl.st = .ready ∧ (t.ch c).ctl.waking = [] ∧
          ∀ v, Reply.plain v ∈ x.ctl.waking → Out.answer v 0 [] ∈ t.out) ∧
        (¬ ready → (t.ch c).ctl.st = x.ctl.st ∧ t.out = s.out)) ∧
      (y.st ≠ .on ∨ y.reserved = false → exec (.rampRelease c r) s = .next s) ∧
      (y.st = .on → y.reserved = true →
        (y.since + 1188 ≤ s.count → exec (.rampRelease c r) s = .next (s.onRegion c r (fun y => { y with reserved := false }))) ∧
        (s.counting = true → s.count < y.since + 1188 → exec (.rampRelease c r) s = .next s)) ∧
      (∀ amps,
        (y.st ≠ .waiting ∨ x.ctl.st ≠ .running → exec (.rampDenied c r amps) s = .next s) ∧
        (y.st = .waiting → x.ctl.st = .running →
          (y.since + 237500 ≤ s.count → ∃ t, exec (.rampDenied c r amps) s = .next t ∧ t.besides c = s.besides c ∧ t.clock = s.clock ∧
            (t.ch c).heldFor 0x107 ∧ (t.ch c).mem.store = x.mem.store ∧ (t.ch c).sup = u) ∧
          (s.counting = true → s.count < y.since + 237500 → exec (.rampDenied c r amps) s = .next s))) ∧
      (y.st ≠ .waiting ∨ x.ctl.st = .running → exec (.rampWait c r) s = .next s) ∧
      (y.st = .waiting → x.ctl.st ≠ .running →
        (y.since + (237500 + y.waitLogs * 11875000) ≤ s.count →
          ∃ t, exec (.rampWait c r) s = .next t ∧ t.besides c = s.besides c ∧ t.clock = s.clock ∧ s.logged t c 0x0d03 ∧
            (t.ch c).sup = { u with regions := u.regions.set r { y with waitLogs := y.waitLogs + 1 } } ∧ (t.ch c).run = x.run ∧
            (t.ch c).mem = x.mem) ∧
        (s.counting = true → s.count < y.since + (237500 + y.waitLogs * 11875000) → exec (.rampWait c r) s = .next s))) ∧
    (∀ (r : Rg) (cell : Fin 16) (cause : Nat),
      (x.ctl.st = .off ∨ (u.regions[r]).st = .lost ∨ (u.regions[r]).cells.testBit cell.val = false →
        exec (.cellFailed c r cell cause) s = .next s) ∧
      (x.ctl.st ≠ .off → (u.regions[r]).st ≠ .lost → (u.regions[r]).cells.testBit cell.val = true →
        ∃ t, exec (.cellFailed c r cell cause) s = .next t ∧ t.clock = s.clock ∧ t.besides c = s.besides c ∧
          (∀ j : Fin 16, ((t.ch c).sup.regions[r]).cells.testBit j.val = ((u.regions[r]).cells.testBit j.val && decide (j ≠ cell))) ∧
          (s.reefs c = true → t.decided c u) ∧
          ((u.regions[r]).failed < 3 → ((t.ch c).sup.regions[r]).st = (u.regions[r]).st ∧ s.logged t c 0x0d01 ∧
            (t.ch c).run = x.run ∧ (t.ch c).mem = x.mem) ∧
          (3 ≤ (u.regions[r]).failed → ((t.ch c).sup.regions[r]).st = .lost))) ∧
    (∀ (r : Rg) (cause : Nat),
      (x.ctl.st = .off ∨ (u.regions[r]).st = .lost → exec (.regionLost c r cause) s = .next s) ∧
      (x.ctl.st ≠ .off → (u.regions[r]).st ≠ .lost →
        ∃ t, exec (.regionLost c r cause) s = .next t ∧ t.clock = s.clock ∧ t.besides c = s.besides c ∧
          (t.ch c).mem.keptOutside x.mem ∧ (x.ctl.st ≠ .running → (t.ch c).mem.store = x.mem.store) ∧
          (s.reefs c = true → t.decided c u) ∧
          (let y := (t.ch c).sup.regions[r]
           y.st = .lost ∧ y.reserved = false ∧ y.easing = 0 ∧ y.cells = (u.regions[r]).cells ∧
             (x.ctl.st ≠ .boot → y.stays = true ∧ y.mv = 500)) ∧
          (x.ctl.st = .running → x.run.stops = [] →
            (t.ch c).stoppedFor 0x106 ∧
            (∀ k, k < 384 → regionOf k = r.val → let cl := (t.ch c).run.cluster k
              cl.deadCars = true ∧ cl.queues = [] ∧ cl.moves = []) ∧
            (∀ k, regionOf k ≠ r.val → (t.ch c).run.cluster k = x.run.cluster k) ∧
            (t.ch c).run.posts = x.run.posts.filter (fun p => decide (regionOf p.cl ≠ r.val))) ∧
          (x.ctl.st = .hold → (t.ch c).heldFor 0x106) ∧
          (x.ctl.st = .ready ∨ x.ctl.st = .standby → (t.ch c).ctl.st = x.ctl.st ∧ s.logged t c 0x0d02 ∧
            (∀ i, x.run.image = some i → (t.ch c).run.image = if i.regionMask.testBit r.val then none else some i))))

/-- SHED_N, the input voltage and loss of power: Asserting SHED_N on a powered module sets the shed source and logs 0x0D07, and every
reefing channel decides a step no faster than SHED_STEP asks; releasing it clears the source. From 33 V to below 36 V the module sheds
and logs 0x0D06 once; above 50 V it logs once in each excursion; at 36.5 V or more the low shed ends, and at 50 V or less the excursion
above it. Below 33 V, above 52 V or at MODULE_RESET_N every channel goes OFF with its memory below the far tier lost, the station master
is off and the departure count stands at 0; what flash holds is kept, with POWER_LOSS as its last entry. Within the range INPUT_LOSS
changes nothing, the other voltage commands take the measurement, and a module without power takes none of these. Rests on R309, R321,
R404, R406, R413. -/
def Obligations.the_input_sheds_and_cuts : Prop :=
  ∀ (s : State),
    (s.m.sm = .off → exec .shedNAssert s = .next s ∧ exec .shedNRelease s = .next s ∧ exec .moduleResetN s = .next s ∧
      ∀ v, exec (.inputRange v) s = .next s ∧ exec (.inputRangeEnd v) s = .next s ∧ exec (.inputLoss v) s = .next s) ∧
    (s.m.sm ≠ .off →
    let shed := fun (t : State) (code : Nat) (m : Module) =>
      s.onlySup t ∧ s.loggedM t code ∧ t.m = { m with log := t.m.log, logNext := s.m.logNext + 1, evt := t.m.evt, flash := t.m.flash } ∧
      ∀ c, (t.ch c).sup.steady = (s.ch c).sup.steady ∧ (s.reefs c = true → t.decided c (s.ch c).sup) ∧
        (m.shedPin = true ∨ m.shedLow = true → min 7 s.m.shedStep ≤ t.required c)
    let low := fun (v : W32) => le32 0x42040000 v = true ∧ lt32 v 0x42100000 = true
    let above := fun (v : W32) => lt32 0x42480000 v = true ∧ le32 v 0x42500000 = true
    (s.m.pins.shedN = true → exec .shedNRelease s = .next s ∧ ∃ t, exec .shedNAssert s = .next t ∧
      shed t 0x0d07 { s.m with shedPin := true, pins := { s.m.pins with shedN := false } }) ∧
    (s.m.pins.shedN = false → exec .shedNAssert s = .next s ∧ ∃ t, exec .shedNRelease s = .next t ∧
      shed t 0x0d07 { s.m with shedPin := false, pins := { s.m.pins with shedN := true } }) ∧
    (∀ v : W32, low v →
      (s.m.shedLow = false → ∃ t, exec (.inputRange v) s = .next t ∧
        shed t 0x0d06 { s.m with volts := v, overLogged := false, shedLow := true }) ∧
      (s.m.shedLow = true → exec (.inputRange v) s = .next { s with m := { s.m with volts := v, overLogged := false } })) ∧
    (∀ v : W32, ¬ low v → above v →
      (s.m.overLogged = false → ∃ t, exec (.inputRange v) s = .next t ∧ t.ch = s.ch ∧ t.clock = s.clock ∧ s.loggedM t 0x0d06 ∧
        t.m.overLogged = true ∧ t.m.volts = v ∧ t.m.shedLow = s.m.shedLow) ∧
      (s.m.overLogged = true → exec (.inputRange v) s = .next { s with m := { s.m with volts := v } })) ∧
    (∀ v : W32, ¬ low v → ¬ above v → exec (.inputRange v) s = .next { s with m := { s.m with volts := v } }) ∧
    (∀ v : W32, let m := { s.m with volts := v, overLogged := s.m.overLogged && !le32 v 0x42480000 }
      (le32 0x42120000 v = true → ∃ t, exec (.inputRangeEnd v) s = .next t ∧ s.onlySup t ∧ t.m = { m with shedLow := false } ∧
        ∀ c, (t.ch c).sup.steady = (s.ch c).sup.steady ∧ (s.m.shedLow = true → s.reefs c = true → t.decided c (s.ch c).sup)) ∧
      (le32 0x42120000 v = false → exec (.inputRangeEnd v) s = .next { s with m := m })) ∧
    (let cut := fun (i : Instr) (cause : Nat) (volts : W32) (resetN : Bool) =>
      ∃ t, exec i s = .next t ∧ t.m.sm = .off ∧ t.m.pins.resetN = resetN ∧ t.counting = false ∧ t.count = 0 ∧ t.pending = s.pending ∧
        t.m.log = [] ∧ t.m.sessions = [] ∧ t.m.ownerKey = s.m.ownerKey ∧ t.m.floorCert = s.m.floorCert ∧ t.m.config = s.m.config ∧
        t.m.banks = s.m.banks ∧ t.m.boots = s.m.boots ∧
        (∃ e, t.m.flash = lastN 256 (s.m.flash ++ [e]) ∧ e.code = 0x1201 ∧ e.count = s.count ∧
          e.param = paramBytes [(2, cause), (4, volts.toNat)]) ∧
        ∀ c, (s.ch c).darkOff (t.ch c) ∧ (t.ch c).ctl.config = (s.ch c).ctl.config ∧ (t.ch c).ctl.log = [] ∧
          ∀ r : Rg, ((t.ch c).sup.regions[r]).cells = ((s.ch c).sup.regions[r]).cells
     (∀ v : W32, lt32 v 0x42040000 = true → cut (.inputLoss v) 0 v s.m.pins.resetN) ∧
     (∀ v : W32, lt32 v 0x42040000 = false → lt32 0x42500000 v = true → cut (.inputLoss v) 1 v s.m.pins.resetN) ∧
     (∀ v : W32, lt32 v 0x42040000 = false → lt32 0x42500000 v = false → exec (.inputLoss v) s = .next s) ∧
     cut .moduleResetN 2 s.m.volts false))

/-- The forecast, the trip, power-off, and the coolant: THERMAL_FORECAST takes each region's readings and sets its thermal step: the fastest
whose forecast is 95 or less when the present one exceeds 95, one step up when that forecast is 92 or less, else the present step; the
channel then decides. A suspect pair that has agreed for 60 s agrees again, logged. A trip counts, asserts TRIP_N, stops every region
of a channel that is not OFF, its cars without a post, and puts the module in SAFE with cause 1, unless it is in SAFE or the station
master restarts. 1 s into SAFE a sensor at 105 or more puts every channel OFF. COOLANT_POLL reads each sensor that answers with the
provisional ID of its place, at a dynamic address of its own, takes a valid answer, loses a sensor at the fifth failure in a row, sets
COOLANT_STATE and makes a module in BOOT NORMAL on its first good poll, with equal shares. Flow low or inlet high for 500 ms puts the
module in SAFE with cause 2 (4 with the flow sensor lost) or 3. The FP32 form of the forecast is log entry 5's and its constants are free,
and so are the sensors' addresses (log entry 68). Rests on R348, R349, R350, R351, R352, R353, R354, R355, R356. -/
def Obligations.temperatures_slow_the_channel_or_trip : Prop :=
  ∀ (s : State),
    (∀ (c : Ch) (readings : List RegionReading),
      ((s.ch c).ctl.st = .off → exec (.thermalForecast c readings) s = .next s) ∧
      ((s.ch c).ctl.st ≠ .off → readings.length = 24 →
        let u := (s.ch c).sup
        ∃ t, exec (.thermalForecast c readings) s = .next t ∧ t.besides c = s.besides c ∧ t.clock = s.clock ∧
          (t.ch c).mem = (s.ch c).mem ∧ (t.ch c).run = (s.ch c).run ∧ (t.ch c).sup.step = u.step ∧
          (s.reefs c = true → t.decided c u) ∧
          ∀ (r : Rg) (rd : RegionReading), readings[r.val]? = some rd →
            let x := u.regions[r]
            let y := (t.ch c).sup.regions[r]
            let a := fun i => rd.temps.getD i 0
            let model := x.tmodel.getD (temp32 (max (max (a 0) (a 1)) (max (a 2) (a 3))))
            let p0 := pairNext (x.pairSt.getD 0 0) (x.pairSince.getD 0 0) (a 0) (a 1) s.count
            let p1 := pairNext (x.pairSt.getD 1 0) (x.pairSince.getD 1 0) (a 2) (a 3) s.count
            let v0 := pairValue p0.1 (a 0) (a 1) model
            let v1 := pairValue p1.1 (a 2) (a 3) model
            let f := s.forecast c r (max32 v0 v1) rd.power
            let fits := fun n => le32 (f n) 0x42be0000
            y.temps = rd.temps ∧ y.pairSt = [p0.1, p1.1] ∧ y.pairSince = [p0.2, p1.2] ∧ y.control = [v0, v1] ∧ y.fc = f u.step ∧
            y.tmodel.isSome = true ∧
            (lt32 0x42be0000 (f u.step) = true →
              (∀ n, n < 8 → fits n = true → (∀ j, j < n → fits j = false) → y.tstep = n) ∧
              ((∀ n, n < 8 → fits n = false) → y.tstep = 7)) ∧
            (lt32 0x42be0000 (f u.step) = false → y.tstep =
              if 0 < u.step ∧ le32 (f (u.step - 1)) 0x42b80000 = true then u.step - 1 else u.step))) ∧
    (∀ (c : Ch) (r : Rg) (pair : Fin 2),
      let x := (s.ch c).sup.regions[r]
      let since := x.pairSince.getD pair.val 0
      (x.pairSt.getD pair.val 0 ≠ 2 ∨ since = 0 → exec (.sensorCleared c r pair) s = .next s) ∧
      ∀ n, x.pairSt.getD pair.val 0 = 2 → since = n + 1 →
      (n + 7125000000 ≤ s.count → ∃ t, exec (.sensorCleared c r pair) s = .next t ∧ t.besides c = s.besides c ∧ t.clock = s.clock ∧
        s.logged t c 0x0f03 ∧ ((t.ch c).sup.regions[r]) = { x with pairSt := x.pairSt.set pair.val 0
                                                                   pairSince := x.pairSince.set pair.val 0 } ∧
        (t.ch c).mem = (s.ch c).mem ∧ (t.ch c).run = (s.ch c).run) ∧
      (s.counting = true → s.count < n + 7125000000 → exec (.sensorCleared c r pair) s = .next s)) ∧
    (∀ (c : Ch) (r : Rg) (sensor : Fin 4) (reading : Int),
      ((s.ch c).ctl.st = .off → exec (.thermalTrip c r sensor reading) s = .next s) ∧
      ((s.ch c).ctl.st ≠ .off → ∃ t, exec (.thermalTrip c r sensor reading) s = .next t ∧ t.clock = s.clock ∧
        t.m.trips = (s.m.trips + 1) % 2 ^ 32 ∧ t.m.pins.tripN = false ∧ (c.val * 24 + r.val, sensor.val) ∈ t.m.tripping ∧
        (∀ d, (t.ch d).mem.keptOutside (s.ch d).mem ∧ ((s.ch d).ctl.st ≠ .running → (t.ch d).mem.store = (s.ch d).mem.store) ∧
          ((s.ch d).ctl.st ≠ .off → ∀ q : Rg,
            ((t.ch d).sup.regions[q]).st = if ((s.ch d).sup.regions[q]).st = .lost then RegionSt.lost else .off) ∧
          ((s.ch d).ctl.st = .running → (∀ p ∈ (t.ch d).run.posts, 384 ≤ p.cl) ∧ ∀ k, k < 384 → ((t.ch d).run.cluster k).deadCars = true)) ∧
        (s.m.sm ≠ .restarting → s.m.st ≠ .safe → s.safeNow t 1) ∧
        (s.m.sm = .restarting ∨ s.m.st = .safe → t.m.st = s.m.st ∧ s.logged t c 0x0f05 ∧ ∀ d, (t.ch d).ctl.st = (s.ch d).ctl.st))) ∧
    (∀ (c : Ch) (r : Rg) (sensor : Fin 4) (reading : Int),
      (s.m.st ≠ .safe ∨ (s.ch c).ctl.st = .off → exec (.thermalPowerOff c r sensor reading) s = .next s) ∧
      (s.m.st = .safe → (s.ch c).ctl.st ≠ .off →
        (s.m.safeAt + 118750000 ≤ s.count → 6720 ≤ reading →
          ∃ t, exec (.thermalPowerOff c r sensor reading) s = .next t ∧ t.clock = s.clock ∧ s.loggedM t 0x0f0b ∧ t.m.st = .safe ∧
            ∀ d, if (s.ch d).ctl.st = .off then t.ch d = s.ch d else (s.ch d).darkOff (t.ch d)) ∧
        (reading < 6720 ∨ (s.counting = true ∧ s.count < s.m.safeAt + 118750000) →
          exec (.thermalPowerOff c r sensor reading) s = .next s))) ∧
    (∀ first second third : Option (Nat × Nat),
      let answers := [first, second, third].filterMap id
      let answer := fun (i : Nat) => (answers.find? (fun e => e.1 == field s.m.sensorIds (8 * i) 6)).map (·.2)
      let gap := match s.m.pausedFrom with | some n => s.count - n | none => 0
      let took := fun (old new : Coolant) (i : Nat) => match (answer i).filter (fun b => b / 65536 % 256 == 1) with
        | some b => new.missed = 0 ∧ new.lost = false ∧ new.polledAt = s.count ∧
          (if i = 2 then new.raw = b % 65536 ∧ new.value = div32 (natTo32 (b % 65536)) (natTo32 1000)
           else new.raw = signedOf 16 (b % 65536) ∧ new.value = temp32 (signedOf 16 (b % 65536)))
        | none => new = { old with
          missed := old.missed + 1, lost := old.lost || decide (5 ≤ old.missed + 1)
          polledAt := old.polledAt + if i = 2 then gap else 0 }
      (s.m.sm ≠ .ready → exec (.coolantPoll first second third) s = .next s) ∧
      (s.m.sm = .ready → ∃ t, exec (.coolantPoll first second third) s = .next t ∧ t.clock = s.clock ∧
        took s.m.inlet t.m.inlet 0 ∧ took s.m.outlet t.m.outlet 1 ∧ took s.m.flow t.m.flow 2 ∧ t.m.coolState = t.m.coolBits ∧
        (∀ i < 3, (answer i).isSome = true → ∃ a, (i, a) ∈ t.m.sensorAddrs ∧ Out.i3cRead a ∈ t.out) ∧
        (t.m.coolState.testBit 2 = false → t.m.flowLowSince = none) ∧
        (∀ d, (t.ch d).mem = (s.ch d).mem ∧ (t.ch d).run = (s.ch d).run ∧ (t.ch d).ctl.st = (s.ch d).ctl.st) ∧
        let good := t.m.inlet.missed = 0 ∧ t.m.outlet.missed = 0 ∧ t.m.flow.missed = 0 ∧ t.m.coolState % 16 = 0 ∧ s.m.secState = 0
        (s.m.st = .boot → good → t.m.st = .normal ∧ ∀ d, (s.ch d).ctl.st ≠ .off →
          (t.ch d).sup.share = div32 (natTo32 (s.m.allowance - 40)) (natTo32 s.liveCh.length)) ∧
        (s.m.st ≠ .boot ∨ ¬good → t.m.st = s.m.st ∧ ∀ d, (t.ch d).sup = (s.ch d).sup))) ∧
    (let may := s.m.sm = .ready ∧ s.m.st ≠ .safe
     (¬ may ∨ s.m.flowLowSince = none → exec .coolantLoss s = .next s) ∧ (¬ may ∨ s.m.inletHighSince = none → exec .inletHigh s = .next s) ∧
     ∀ n, may →
      (s.m.flowLowSince = some n →
        (n + 59375000 ≤ s.count → ∃ t, exec .coolantLoss s = .next t ∧ s.safeNow t (if s.m.flow.lost then 4 else 2)) ∧
        (s.counting = true → s.count < n + 59375000 → exec .coolantLoss s = .next s)) ∧
      (s.m.inletHighSince = some n →
        (n + 59375000 ≤ s.count → ∃ t, exec .inletHigh s = .next t ∧ s.safeNow t 3) ∧
        (s.counting = true → s.count < n + 59375000 → exec .inletHigh s = .next s)))

/-- Containment causes, RESET_DONE, the patrol scrub and CONVERTER_FAULT: In STANDBY, READY, RUNNING or HOLD, CONTROL_UNCORRECTABLE,
COMPARATOR_TRIP, ROOT_PLL_LOCK_LOSS, WATCHDOG_EXPIRY and a failed COMPARATOR_TEST begin a containment reset with causes 2, 3, 4, 6 and
3, each logging its event and CHANNEL_RESET; during that reset they leave it as it is, but that a failed comparator ends in FAULT; in a
boot the first restarts the boot and the second ends it in FAULT; in FAULT they are logged alone. RESET_DONE, once every device has
trained, makes the channel READY with board memory cleared, one reset generation more, and the time counted as downtime unless a command
made the reset. PATROL_SCRUB counts a corrected error and a retried burst, and poisons, counts and logs a damaged granule once.
CONVERTER_FAULT puts the channel OFF. An OFF channel is untouched, but for the free value drawn at ROOT_PLL_LOCK_LOSS. Rests on R362,
R365, R366, R367, R369, R370, R374, R399. -/
def Obligations.faults_are_contained_and_the_reset_ends : Prop :=
  ∀ (c : Ch) (s : State),
    let x := s.ch c
    let b := x.ctl.boot
    let causes := fun (i : Instr) (code : Nat) =>
      (code = 0x202 ∧ (i = .watchdogExpiry c ∨ ∃ n k, i = .controlUncorrectable c n k)) ∨
      (code = 0x203 ∧ (i = .rootPllLockLoss c ∨ ∃ n k, i = .comparatorTrip c n k ∨ i = .comparatorTest c (some (n, k))))
    (x.ctl.st = .standby ∨ x.ctl.st = .ready ∨ x.ctl.st = .running ∨ x.ctl.st = .hold →
      let resets := fun (i : Instr) (cause entries : Nat) => ∃ t, exec i s = .next t ∧ t.clock = s.clock ∧ t.besides c = s.besides c ∧
        x.contained (t.ch c) cause ∧ (t.ch c).ctl.logNext = (x.ctl.logNext + entries) % 2 ^ 32
      (∀ n k, resets (.controlUncorrectable c n k) 2 2) ∧ (∀ n d, resets (.comparatorTrip c n d) 3 2) ∧
      resets (.rootPllLockLoss c) 4 2 ∧ resets (.watchdogExpiry c) 6 1 ∧ ∀ f, resets (.comparatorTest c (some f)) 3 2) ∧
    exec (.comparatorTest c none) s = .next s ∧
    (x.ctl.st = .boot → b.phase = .reset →
      (∀ f, ∃ t, exec (.comparatorTest c (some f)) s = .next t ∧ t.clock = s.clock ∧ t.besides c = s.besides c ∧
        (t.ch c).ctl.st = .fault ∧ (t.ch c).run.faultStatus = 0x203 ∧ (t.ch c).mem = x.mem) ∧
      (∀ n k i, i = .controlUncorrectable c n k ∨ i = .comparatorTrip c n k ∨ i = .rootPllLockLoss c ∨ i = .watchdogExpiry c →
        ∃ t, exec i s = .next t ∧ t.clock = s.clock ∧ t.besides c = s.besides c ∧ (t.ch c).ctl.st = .boot ∧ (t.ch c).ctl.boot = b ∧
          (t.ch c).ctl.resets = x.ctl.resets ∧ (t.ch c).run = x.run ∧ (t.ch c).mem = x.mem) ∧
      (b.trained ≠ 0xff → exec (.resetDone c) s = .next s) ∧
      (b.trained = 0xff → ∃ t, exec (.resetDone c) s = .next t ∧ t.clock = s.clock ∧ t.besides c = s.besides c ∧
        (t.ch c).ctl.st = .ready ∧ (t.ch c).ctl.boot = Boot.idle ∧ (t.ch c).hub.resetGen = (x.hub.resetGen + 1) % 2 ^ 32 ∧
        (t.ch c).ctl.downtime = (x.ctl.downtime + if b.cause = 5 then 0 else s.count - b.since) ∧
        (t.ch c).run = x.run ∧ s.logged t c 0x1006 ∧
        (x.mem.wf → (∀ a, boardBase ≤ a → a < boardEnd → (t.ch c).mem.byte a = Memory.unwritten) ∧
          ∀ a, a < boardBase ∨ boardEnd ≤ a → (t.ch c).mem.byte a = x.mem.byte a))) ∧
    (x.ctl.st ≠ .boot ∨ b.phase ≠ .reset → exec (.resetDone c) s = .next s) ∧
    (x.ctl.st = .boot → b.phase ≠ .reset → ∀ i code, causes i code → ∃ t, exec i s = .next t ∧ t.clock = s.clock ∧ t.besides c = s.besides c ∧
      (b.restarts = 0 → (t.ch c).ctl.st = .boot ∧ (t.ch c).ctl.boot.phase = .rails ∧ (t.ch c).ctl.boot.restarts = 1 ∧
        (t.ch c).ctl.boot.since = s.count ∧ (t.ch c).ctl.boot.powerOn = b.powerOn ∧ (t.ch c).run.image = none) ∧
      (b.restarts ≠ 0 → (t.ch c).ctl.st = .fault ∧ (t.ch c).run.faultStatus = code ∧ (t.ch c).mem = x.mem)) ∧
    (x.ctl.st = .fault → ∀ i code, causes i code → ∃ t, exec i s = .next t ∧ t.clock = s.clock ∧ t.besides c = s.besides c ∧
      (t.ch c).ctl.st = .fault ∧ (t.ch c).run = x.run ∧ (t.ch c).mem = x.mem) ∧
    (∀ (a : Nat) (kind : MemErr), x.ctl.st ≠ .off →
      (scrubbed a = false → ∀ f, exec (.patrolScrub c a f) s = .next s) ∧
      (scrubbed a = true →
        let counted := fun (m : Memory) => s.setCh c { x with mem := m }
        exec (.patrolScrub c a .clean) s = .next s ∧
        (∀ f, f = .corrected ∨ f = .bad .corrected →
          exec (.patrolScrub c a f) s = .next (counted { x.mem with eccCorrected := x.mem.eccCorrected + 1 })) ∧
        exec (.patrolScrub c a (.bad .retried)) s = .next (counted { x.mem with crcRetries := x.mem.crcRetries + 1 }) ∧
        (kind ≠ .corrected → kind ≠ .retried →
          (x.mem.poisoned? (a / 256) = true → exec (.patrolScrub c a (.bad kind)) s = .next s) ∧
          (x.mem.poisoned? (a / 256) = false → ∃ t, exec (.patrolScrub c a (.bad kind)) s = .next t ∧ t.clock = s.clock ∧
            t.besides c = s.besides c ∧ s.logged t c (if kind = .mismatch then 0x1002 else 0x1003) ∧
            (t.ch c).ctl.mismatches = (x.ctl.mismatches + if kind = .mismatch then 1 else 0) ∧ (t.ch c).run = x.run ∧
            (t.ch c).mem = { x.mem with marks := (t.ch c).mem.marks, poisoned := x.mem.poisoned + 1 } ∧
            ∀ g, (t.ch c).mem.poisoned? g = (decide (g = a / 256) || x.mem.poisoned? g))))) ∧
    (∀ rail : Fin 4, x.ctl.st ≠ .off → ∃ t, exec (.converterFault c rail) s = .next t ∧ t.clock = s.clock ∧ t.besides c = s.besides c ∧
      x.darkOff (t.ch c) ∧ s.logged t c 0x1009) ∧
    (x.ctl.st = .off → exec (.rootPllLockLoss c) s = .next { s with freeNo := s.freeNo + 1 } ∧
      ∀ n k rail f a b, exec (.controlUncorrectable c n k) s = .next s ∧ exec (.comparatorTrip c n k) s = .next s ∧
      exec (.watchdogExpiry c) s = .next s ∧ exec (.comparatorTest c (some f)) s = .next s ∧ exec (.converterFault c rail) s = .next s ∧
      exec (.patrolScrub c a b) s = .next s)

/-- Power-up, the boot chain, channel boots and the reference clock: POWER_UP installs a firmware block that was staged and starts the mask
ROM with the count at 0: the active firmware bank boots if it verifies, else the other, else the module is in RECOVERY, logged.
STATION_MASTER_READY applies the module configuration block and in NORMAL puts every channel in BOOT; after a restart it is ready again
and records a trip of the meantime as SAFE. ROOT_LOCK, with REFCLK present, releases the count from 0 or keeps the running one and
starts training, or ends in FAULT when the signal box firmware does not read back. Each device trains, and its third failure is FAULT.
Each region group is tested in order, while module power permits; a region with 4 failed cells or a step 7 above 800 mV is lost.
CHANNEL_BOOTED makes the channel READY with board memory cleared, or FAULT on a failed comparator. A boot's wait is logged once for each
cause. Loss and return of REFCLK, and of the time source, are recorded and logged. Where none of this is due, the command changes
nothing. Rests on R197, R341, R342, R344, R377, R381, R382, R383, R395, R396, R397, R398. -/
def Obligations.channels_boot_once_power_is_up : Prop :=
  ∀ (s : State),
    (s.m.sm ≠ .off → exec .powerUp s = .next s) ∧
    (s.m.sm = .off → ∃ t, exec .powerUp s = .next t ∧ t.ch = s.ch ∧ t.counting = false ∧ t.count = 0 ∧
      t.pending = s.pending ∧ t.m.sm = .rom ∧ t.m.st = .boot ∧ t.m.boots = (s.m.boots + 1) % 2 ^ 32 ∧ t.m.pins.resetN = true ∧
      let m := if s.m.fwState = 1 then s.m.install s.m.fwPending else s.m
      let n := m.activeBank
      t.m.banks = m.banks ∧ t.m.fwState = m.fwState ∧
      (m.bankOk n = true → t.m.activeBank = n) ∧ (m.bankOk n = false → m.bankOk (1 - n) = true → t.m.activeBank = 1 - n) ∧
      (m.bankOk n = true ∨ m.bankOk (1 - n) = true → t.m.secState = if m.floorValid then 0 else 2) ∧
      (m.bankOk n = false → m.bankOk (1 - n) = false → t.m.secState = 1 ∧
        ∃ e, t.m.log = lastN 1024 (logPlace e s.m.log) ∧ e.code = 0x1106)) ∧
    (s.m.sm = .rom →
      (s.m.secState = 1 ∨ Config.pufOk = false → exec .stationMasterReady s = .next s) ∧
      (s.m.secState ≠ 1 → Config.pufOk = true →
        let u := (s.onM (fun m => { m with sm := .ready })).applyConfig none
        ∃ t, exec .stationMasterReady s = .next t ∧ t.clock = u.clock ∧ t.m.st = u.m.st ∧ t.m.sm = u.m.sm ∧
          (s.m.config = [] → u = s.onM (fun m => { m with sm := .ready })) ∧
          (u.m.secState ≠ 0 → t = u) ∧
          (u.m.secState = 0 → ∀ c, (t.ch c).ctl.st = .boot ∧ (t.ch c).ctl.boot.phase = .rails ∧ (t.ch c).ctl.boot.since = u.count ∧
            (t.ch c).ctl.config = (u.ch c).ctl.config ∧ (t.ch c).run.image = none))) ∧
    (s.m.sm ≠ .rom → s.m.sm ≠ .restarting → exec .stationMasterReady s = .next s) ∧
    (s.m.sm = .restarting → s.m.secState = 0 → s.counting = true →
      (s.m.pins.tripN = true ∨ s.m.st = .safe → exec .stationMasterReady s = .next (s.onM (fun m => { m with sm := .ready }))) ∧
      (s.m.pins.tripN = false → s.m.st ≠ .safe → ∃ t, exec .stationMasterReady s = .next t ∧ t.m.sm = .ready ∧ s.safeNow t 1)) ∧
    (∀ (c : Ch),
      let x := s.ch c
      let b := x.ctl.boot
      let fails := fun (i : Instr) (code : Nat) => ∃ t, exec i s = .next t ∧ t.clock = s.clock ∧ t.besides c = s.besides c ∧
        (t.ch c).ctl.st = .fault ∧ (t.ch c).run.faultStatus = code
      (x.ctl.st ≠ .boot → exec (.rootLock c) s = .next s ∧ exec (.bootWait c) s = .next s ∧
        (∀ d ok, exec (.gddr7Training c d ok) s = .next s) ∧ (∀ g results, exec (.regionGroup c g results) s = .next s) ∧
        ∀ f, exec (.channelBooted c f) s = .next s) ∧
      (x.ctl.st = .boot → b.phase = .rails →
        (s.m.refclk ≠ 0 → exec (.rootLock c) s = .next s) ∧
        (s.m.refclk = 0 → ∃ t, exec (.rootLock c) s = .next t ∧ t.besides c = s.besides c ∧ t.counting = true ∧
          t.count = (if s.counting then s.count else 0) ∧ t.pending = s.pending ∧
          (Config.firmwareReadsBack c = true → t.ch c = { x with
            sup := { x.sup with locked := true }, ctl := { x.ctl with boot := { b with phase := .training, lockAt := t.count } } }) ∧
          (Config.firmwareReadsBack c = false → (t.ch c).ctl.st = .fault ∧ (t.ch c).run.faultStatus = 0x202))) ∧
      (∀ d : Fin 8, b.trained.testBit d.val = true → ∀ ok, exec (.gddr7Training c d ok) s = .next s) ∧
      (∀ d : Fin 8, x.ctl.st = .boot → b.phase = .training ∨ b.phase = .reset → b.trained.testBit d.val = false →
        exec (.gddr7Training c d true) s = .next (s.setCh c { x with
          ctl := { x.ctl with boot := { b with trained := b.trained + 2 ^ d.val } }
          mem := { x.mem with gddr7 := x.mem.gddr7 ||| 2 ^ d.val } }) ∧
        (b.attempts.getD d.val 0 < 2 → ∃ t, exec (.gddr7Training c d false) s = .next t ∧ s.onlyCh t c ∧
          t.ch c = { x with ctl := { x.ctl with boot := { b with attempts := (t.ch c).ctl.boot.attempts } } } ∧
          ∀ j, j < 8 → (t.ch c).ctl.boot.attempts.getD j 0 = b.attempts.getD j 0 + if j = d.val then 1 else 0) ∧
        (2 ≤ b.attempts.getD d.val 0 → fails (.gddr7Training c d false) 0x201)) ∧
      (∀ (g : Fin 4) (results : List RegionBoot),
        let waits := s.m.pins.shedN = false ∧ lt32 (natTo32 s.m.shedPower) s.m.power = true
        (b.groups ≠ g.val ∨ b.phase ≠ .training ∨ s.m.st ≠ .normal ∨ waits → exec (.regionGroup c g results) s = .next s) ∧
        (x.ctl.st = .boot → b.phase = .training → s.m.st = .normal → ¬ waits → results.length = 6 → b.groups = g.val →
          ∃ t, exec (.regionGroup c g results) s = .next t ∧ t.clock = s.clock ∧ t.besides c = s.besides c ∧
          (t.ch c).ctl.boot = { b with groups := g.val + 1 } ∧ (t.ch c).ctl.st = .boot ∧ (t.ch c).mem = x.mem ∧
          (∀ (r : Rg) (i : Nat), r.val = 6 * g.val + i → i < 6 → ∀ f, results[i]? = some f →
            let y := (t.ch c).sup.regions[r]
            let mv := fun n => max 450 ((f.mv.getD n 0 + 25 + 4) / 5 * 5)
            y.cells = 0xffff - f.failedCells % 2 ^ 16 ∧ (∀ n, n < 8 → y.mvAt n = mv n) ∧
            (mv 7 ≤ 800 → (∀ n, n < 8 → mv n ≤ 800 → (∀ j, j < n → 800 < mv j) → y.fastest = n)) ∧
            (4 ≤ y.failed ∨ 800 < mv 7 → y.st = .lost) ∧ (y.failed < 4 → mv 7 ≤ 800 → y.st = .off)) ∧
          ∀ r : Rg, r.val / 6 ≠ g.val → ((t.ch c).sup.regions[r]).steady = (x.sup.regions[r]).steady)) ∧
      (b.phase ≠ .training ∨ b.trained ≠ 0xff ∨ b.groups ≠ 4 ∨ s.m.st = .safe → ∀ f, exec (.channelBooted c f) s = .next s) ∧
      (x.ctl.st = .boot → b.phase = .training → b.trained = 0xff → b.groups = 4 → s.m.st ≠ .safe →
        (∀ f, fails (.channelBooted c (some f)) 0x203) ∧
        (x.ctl.config = [] → ∃ t, exec (.channelBooted c none) s = .next t ∧ t.clock = s.clock ∧ t.besides c = s.besides c ∧
          (t.ch c).ctl.st = .ready ∧ (t.ch c).ctl.boot = Boot.idle ∧ (t.ch c).ctl.bootTime = (s.count - b.lockAt) % 2 ^ 32 ∧
          s.logged t c 0x1202 ∧ (t.ch c).run = x.run ∧
          (x.mem.wf → (∀ a, boardBase ≤ a → a < boardEnd → (t.ch c).mem.byte a = Memory.unwritten) ∧
            ∀ a, a < boardBase ∨ boardEnd ≤ a → (t.ch c).mem.byte a = x.mem.byte a))) ∧
      (let waits := fun n => ∃ t, exec (.bootWait c) s = .next t ∧ t.clock = s.clock ∧ t.besides c = s.besides c ∧ s.logged t c 0x1204 ∧
         (t.ch c).ctl.boot = { b with waitLogged := n :: b.waitLogged } ∧ (t.ch c).run = x.run ∧ (t.ch c).mem = x.mem
       (x.ctl.st = .boot → b.phase = .rails → s.m.refclk ≠ 0 → b.since + 118750000 ≤ s.count →
         (0 ∉ b.waitLogged → waits 0) ∧ (0 ∈ b.waitLogged → exec (.bootWait c) s = .next s)) ∧
       (x.ctl.st = .boot → b.phase = .training → b.groups < 4 → s.m.st ≠ .normal →
         (1 ∉ b.waitLogged → waits 1) ∧ (1 ∈ b.waitLogged → exec (.bootWait c) s = .next s)))) ∧
    (s.m.sm = .off → exec .refclkLost s = .next s ∧ exec .refclkRestored s = .next s) ∧
    (s.m.sm ≠ .off →
      (s.m.refclk = 0 → exec .refclkRestored s = .next s ∧ ∃ t, exec .refclkLost s = .next t ∧ t.ch = s.ch ∧ t.clock = s.clock ∧
        t.m.refclk = 1 ∧ t.m.refclkAt = s.count ∧ s.loggedM t 0x0e02) ∧
      (s.m.refclk = 1 → exec .refclkLost s = .next s ∧ ∃ t, exec .refclkRestored s = .next t ∧ t.ch = s.ch ∧ t.clock = s.clock ∧
        t.m.refclk = 0 ∧ s.loggedM t 0x0e03)) ∧
    (let may := (s.ch 0).yard.rank ≠ 0 ∧ s.m.alignState ≠ 0 ∧ s.alignBest = none
     (¬ may → exec .alignTimeout s = .next s) ∧
     (may →
      (s.m.alignHeard + 2 ^ 20 ≤ s.count → ∃ t, exec .alignTimeout s = .next t ∧ t.ch = s.ch ∧ t.clock = s.clock ∧ t.m.alignState = 0 ∧
        t.m.alignSource = none ∧ s.loggedM t 0x0e04) ∧
      (s.counting = true → s.count < s.m.alignHeard + 2 ^ 20 → exec .alignTimeout s = .next s)))
end

