-- ==== Sys2Proof/Laws/State.lean ====
section
/-! SUPPORT. What each update of the state changes and leaves alone, one lemma a field and update, each true by computation (not marked as a definitional equation, so that simp can use it under a fold). -/

namespace Sys2Proof.Machine

variable (s : State) (c d : Ch)

theorem ch_setCh (x : Chan) : (s.setCh c x).ch d = if d = c then x else s.ch d := by
  by_cases h : d = c
  · subst h; simp [State.ch, State.setCh]
  · have : c.val ≠ d.val := fun e => h (Fin.ext e.symm)
    simp [State.ch, State.setCh, h, Vector.getElem_set, this]

@[simp] theorem ch_setCh_same (x : Chan) : (s.setCh c x).ch c = x := by simp [ch_setCh]
@[simp] theorem ch_setCh_other (x : Chan) (h : d ≠ c) : (s.setCh c x).ch d = s.ch d := by simp [ch_setCh, h]
@[simp] theorem clock_setCh (x : Chan) : (s.setCh c x).clock = s.clock := id rfl
@[simp] theorem m_setCh (x : Chan) : (s.setCh c x).m = s.m := id rfl
@[simp] theorem out_setCh (x : Chan) : (s.setCh c x).out = s.out := id rfl
@[simp] theorem count_setCh (x : Chan) : (s.setCh c x).count = s.count := id rfl
@[simp] theorem counting_setCh (x : Chan) : (s.setCh c x).counting = s.counting := id rfl
@[simp] theorem pending_setCh (x : Chan) : (s.setCh c x).pending = s.pending := id rfl
@[simp] theorem freeNo_setCh (x : Chan) : (s.setCh c x).freeNo = s.freeNo := id rfl

@[simp] theorem ch_onCh_same (f : Chan → Chan) : (s.onCh c f).ch c = f (s.ch c) := by simp [State.onCh]
@[simp] theorem ch_onCh_other (f : Chan → Chan) (h : d ≠ c) : (s.onCh c f).ch d = s.ch d := by simp [State.onCh, h]
@[simp] theorem clock_onCh (f : Chan → Chan) : (s.onCh c f).clock = s.clock := id rfl
@[simp] theorem m_onCh (f : Chan → Chan) : (s.onCh c f).m = s.m := id rfl
@[simp] theorem out_onCh (f : Chan → Chan) : (s.onCh c f).out = s.out := id rfl
@[simp] theorem count_onCh (f : Chan → Chan) : (s.onCh c f).count = s.count := id rfl
@[simp] theorem counting_onCh (f : Chan → Chan) : (s.onCh c f).counting = s.counting := id rfl
@[simp] theorem pending_onCh (f : Chan → Chan) : (s.onCh c f).pending = s.pending := id rfl
@[simp] theorem freeNo_onCh (f : Chan → Chan) : (s.onCh c f).freeNo = s.freeNo := id rfl

@[simp] theorem ch_onRun_same (f : Run → Run) : (s.onRun c f).ch c = { s.ch c with run := f (s.ch c).run } := by
  simp [State.onRun]
@[simp] theorem ch_onRun_other (f : Run → Run) (h : d ≠ c) : (s.onRun c f).ch d = s.ch d := by simp [State.onRun, h]
@[simp] theorem clock_onRun (f : Run → Run) : (s.onRun c f).clock = s.clock := id rfl
@[simp] theorem m_onRun (f : Run → Run) : (s.onRun c f).m = s.m := id rfl
@[simp] theorem out_onRun (f : Run → Run) : (s.onRun c f).out = s.out := id rfl
@[simp] theorem count_onRun (f : Run → Run) : (s.onRun c f).count = s.count := id rfl
@[simp] theorem counting_onRun (f : Run → Run) : (s.onRun c f).counting = s.counting := id rfl
@[simp] theorem pending_onRun (f : Run → Run) : (s.onRun c f).pending = s.pending := id rfl
@[simp] theorem freeNo_onRun (f : Run → Run) : (s.onRun c f).freeNo = s.freeNo := id rfl

@[simp] theorem ch_onWatch_same (f : Watch → Watch) : (s.onWatch c f).ch c = { s.ch c with watch := f (s.ch c).watch } := by
  simp [State.onWatch]
@[simp] theorem ch_onWatch_other (f : Watch → Watch) (h : d ≠ c) : (s.onWatch c f).ch d = s.ch d := by simp [State.onWatch, h]
@[simp] theorem clock_onWatch (f : Watch → Watch) : (s.onWatch c f).clock = s.clock := id rfl
@[simp] theorem m_onWatch (f : Watch → Watch) : (s.onWatch c f).m = s.m := id rfl
@[simp] theorem out_onWatch (f : Watch → Watch) : (s.onWatch c f).out = s.out := id rfl
@[simp] theorem count_onWatch (f : Watch → Watch) : (s.onWatch c f).count = s.count := id rfl
@[simp] theorem counting_onWatch (f : Watch → Watch) : (s.onWatch c f).counting = s.counting := id rfl
@[simp] theorem pending_onWatch (f : Watch → Watch) : (s.onWatch c f).pending = s.pending := id rfl
@[simp] theorem freeNo_onWatch (f : Watch → Watch) : (s.onWatch c f).freeNo = s.freeNo := id rfl

@[simp] theorem ch_onMem_same (f : Memory → Memory) : (s.onMem c f).ch c = { s.ch c with mem := f (s.ch c).mem } := by
  simp [State.onMem]
@[simp] theorem ch_onMem_other (f : Memory → Memory) (h : d ≠ c) : (s.onMem c f).ch d = s.ch d := by simp [State.onMem, h]
@[simp] theorem clock_onMem (f : Memory → Memory) : (s.onMem c f).clock = s.clock := id rfl
@[simp] theorem m_onMem (f : Memory → Memory) : (s.onMem c f).m = s.m := id rfl
@[simp] theorem out_onMem (f : Memory → Memory) : (s.onMem c f).out = s.out := id rfl
@[simp] theorem count_onMem (f : Memory → Memory) : (s.onMem c f).count = s.count := id rfl
@[simp] theorem counting_onMem (f : Memory → Memory) : (s.onMem c f).counting = s.counting := id rfl
@[simp] theorem pending_onMem (f : Memory → Memory) : (s.onMem c f).pending = s.pending := id rfl
@[simp] theorem freeNo_onMem (f : Memory → Memory) : (s.onMem c f).freeNo = s.freeNo := id rfl

@[simp] theorem ch_onHub_same (f : Hub → Hub) : (s.onHub c f).ch c = { s.ch c with hub := f (s.ch c).hub } := by
  simp [State.onHub]
@[simp] theorem ch_onHub_other (f : Hub → Hub) (h : d ≠ c) : (s.onHub c f).ch d = s.ch d := by simp [State.onHub, h]
@[simp] theorem clock_onHub (f : Hub → Hub) : (s.onHub c f).clock = s.clock := id rfl
@[simp] theorem m_onHub (f : Hub → Hub) : (s.onHub c f).m = s.m := id rfl
@[simp] theorem out_onHub (f : Hub → Hub) : (s.onHub c f).out = s.out := id rfl
@[simp] theorem count_onHub (f : Hub → Hub) : (s.onHub c f).count = s.count := id rfl
@[simp] theorem counting_onHub (f : Hub → Hub) : (s.onHub c f).counting = s.counting := id rfl
@[simp] theorem pending_onHub (f : Hub → Hub) : (s.onHub c f).pending = s.pending := id rfl
@[simp] theorem freeNo_onHub (f : Hub → Hub) : (s.onHub c f).freeNo = s.freeNo := id rfl

@[simp] theorem ch_onYard_same (f : Yard → Yard) : (s.onYard c f).ch c = { s.ch c with yard := f (s.ch c).yard } := by
  simp [State.onYard]
@[simp] theorem ch_onYard_other (f : Yard → Yard) (h : d ≠ c) : (s.onYard c f).ch d = s.ch d := by simp [State.onYard, h]
@[simp] theorem clock_onYard (f : Yard → Yard) : (s.onYard c f).clock = s.clock := id rfl
@[simp] theorem m_onYard (f : Yard → Yard) : (s.onYard c f).m = s.m := id rfl
@[simp] theorem out_onYard (f : Yard → Yard) : (s.onYard c f).out = s.out := id rfl
@[simp] theorem count_onYard (f : Yard → Yard) : (s.onYard c f).count = s.count := id rfl
@[simp] theorem counting_onYard (f : Yard → Yard) : (s.onYard c f).counting = s.counting := id rfl
@[simp] theorem pending_onYard (f : Yard → Yard) : (s.onYard c f).pending = s.pending := id rfl
@[simp] theorem freeNo_onYard (f : Yard → Yard) : (s.onYard c f).freeNo = s.freeNo := id rfl

@[simp] theorem ch_onHost_same (f : HostLink → HostLink) : (s.onHost c f).ch c = { s.ch c with host := f (s.ch c).host } := by
  simp [State.onHost]
@[simp] theorem ch_onHost_other (f : HostLink → HostLink) (h : d ≠ c) : (s.onHost c f).ch d = s.ch d := by simp [State.onHost, h]
@[simp] theorem clock_onHost (f : HostLink → HostLink) : (s.onHost c f).clock = s.clock := id rfl
@[simp] theorem m_onHost (f : HostLink → HostLink) : (s.onHost c f).m = s.m := id rfl
@[simp] theorem out_onHost (f : HostLink → HostLink) : (s.onHost c f).out = s.out := id rfl
@[simp] theorem count_onHost (f : HostLink → HostLink) : (s.onHost c f).count = s.count := id rfl
@[simp] theorem counting_onHost (f : HostLink → HostLink) : (s.onHost c f).counting = s.counting := id rfl
@[simp] theorem pending_onHost (f : HostLink → HostLink) : (s.onHost c f).pending = s.pending := id rfl
@[simp] theorem freeNo_onHost (f : HostLink → HostLink) : (s.onHost c f).freeNo = s.freeNo := id rfl

@[simp] theorem ch_onSup_same (f : Supply → Supply) : (s.onSup c f).ch c = { s.ch c with sup := f (s.ch c).sup } := by
  simp [State.onSup]
@[simp] theorem ch_onSup_other (f : Supply → Supply) (h : d ≠ c) : (s.onSup c f).ch d = s.ch d := by simp [State.onSup, h]
@[simp] theorem clock_onSup (f : Supply → Supply) : (s.onSup c f).clock = s.clock := id rfl
@[simp] theorem m_onSup (f : Supply → Supply) : (s.onSup c f).m = s.m := id rfl
@[simp] theorem out_onSup (f : Supply → Supply) : (s.onSup c f).out = s.out := id rfl
@[simp] theorem count_onSup (f : Supply → Supply) : (s.onSup c f).count = s.count := id rfl
@[simp] theorem counting_onSup (f : Supply → Supply) : (s.onSup c f).counting = s.counting := id rfl
@[simp] theorem pending_onSup (f : Supply → Supply) : (s.onSup c f).pending = s.pending := id rfl
@[simp] theorem freeNo_onSup (f : Supply → Supply) : (s.onSup c f).freeNo = s.freeNo := id rfl

@[simp] theorem ch_onCtl_same (f : Ctl → Ctl) : (s.onCtl c f).ch c = { s.ch c with ctl := f (s.ch c).ctl } := by
  simp [State.onCtl]
@[simp] theorem ch_onCtl_other (f : Ctl → Ctl) (h : d ≠ c) : (s.onCtl c f).ch d = s.ch d := by simp [State.onCtl, h]
@[simp] theorem clock_onCtl (f : Ctl → Ctl) : (s.onCtl c f).clock = s.clock := id rfl
@[simp] theorem m_onCtl (f : Ctl → Ctl) : (s.onCtl c f).m = s.m := id rfl
@[simp] theorem out_onCtl (f : Ctl → Ctl) : (s.onCtl c f).out = s.out := id rfl
@[simp] theorem count_onCtl (f : Ctl → Ctl) : (s.onCtl c f).count = s.count := id rfl
@[simp] theorem counting_onCtl (f : Ctl → Ctl) : (s.onCtl c f).counting = s.counting := id rfl
@[simp] theorem pending_onCtl (f : Ctl → Ctl) : (s.onCtl c f).pending = s.pending := id rfl
@[simp] theorem freeNo_onCtl (f : Ctl → Ctl) : (s.onCtl c f).freeNo = s.freeNo := id rfl

@[simp] theorem clock_onM (f : Module → Module) : (s.onM f).clock = s.clock := id rfl
@[simp] theorem out_onM (f : Module → Module) : (s.onM f).out = s.out := id rfl
@[simp] theorem count_onM (f : Module → Module) : (s.onM f).count = s.count := id rfl
@[simp] theorem counting_onM (f : Module → Module) : (s.onM f).counting = s.counting := id rfl
@[simp] theorem pending_onM (f : Module → Module) : (s.onM f).pending = s.pending := id rfl
@[simp] theorem freeNo_onM (f : Module → Module) : (s.onM f).freeNo = s.freeNo := id rfl
@[simp] theorem ch_onM (f : Module → Module) : (s.onM f).ch c = s.ch c := id rfl
@[simp] theorem m_onM (f : Module → Module) : (s.onM f).m = f s.m := id rfl

@[simp] theorem clock_send (o : Out) : (s.send o).clock = s.clock := id rfl
@[simp] theorem m_send (o : Out) : (s.send o).m = s.m := id rfl
@[simp] theorem count_send (o : Out) : (s.send o).count = s.count := id rfl
@[simp] theorem counting_send (o : Out) : (s.send o).counting = s.counting := id rfl
@[simp] theorem pending_send (o : Out) : (s.send o).pending = s.pending := id rfl
@[simp] theorem freeNo_send (o : Out) : (s.send o).freeNo = s.freeNo := id rfl
@[simp] theorem ch_send (o : Out) : (s.send o).ch c = s.ch c := id rfl
@[simp] theorem out_send (o : Out) : (s.send o).out = s.out ++ [o] := id rfl

@[simp] theorem clock_onCluster (k : Nat) (f : Cluster → Cluster) : (s.onCluster c k f).clock = s.clock := id rfl
@[simp] theorem m_onCluster (k : Nat) (f : Cluster → Cluster) : (s.onCluster c k f).m = s.m := id rfl
@[simp] theorem out_onCluster (k : Nat) (f : Cluster → Cluster) : (s.onCluster c k f).out = s.out := id rfl
@[simp] theorem count_onCluster (k : Nat) (f : Cluster → Cluster) : (s.onCluster c k f).count = s.count := id rfl
@[simp] theorem counting_onCluster (k : Nat) (f : Cluster → Cluster) : (s.onCluster c k f).counting = s.counting := id rfl
@[simp] theorem pending_onCluster (k : Nat) (f : Cluster → Cluster) : (s.onCluster c k f).pending = s.pending := id rfl
@[simp] theorem freeNo_onCluster (k : Nat) (f : Cluster → Cluster) : (s.onCluster c k f).freeNo = s.freeNo := id rfl
@[simp] theorem ch_onCluster_other (k : Nat) (f : Cluster → Cluster) (h : d ≠ c) : (s.onCluster c k f).ch d = s.ch d := by simp [State.onCluster, h]
@[simp] theorem ctl_onCluster (k : Nat) (f : Cluster → Cluster) : ((s.onCluster c k f).ch c).ctl = (s.ch c).ctl := by simp [State.onCluster]
@[simp] theorem watch_onCluster (k : Nat) (f : Cluster → Cluster) : ((s.onCluster c k f).ch c).watch = (s.ch c).watch := by simp [State.onCluster]
@[simp] theorem mem_onCluster (k : Nat) (f : Cluster → Cluster) : ((s.onCluster c k f).ch c).mem = (s.ch c).mem := by simp [State.onCluster]
@[simp] theorem hub_onCluster (k : Nat) (f : Cluster → Cluster) : ((s.onCluster c k f).ch c).hub = (s.ch c).hub := by simp [State.onCluster]
@[simp] theorem yard_onCluster (k : Nat) (f : Cluster → Cluster) : ((s.onCluster c k f).ch c).yard = (s.ch c).yard := by simp [State.onCluster]
@[simp] theorem host_onCluster (k : Nat) (f : Cluster → Cluster) : ((s.onCluster c k f).ch c).host = (s.ch c).host := by simp [State.onCluster]
@[simp] theorem sup_onCluster (k : Nat) (f : Cluster → Cluster) : ((s.onCluster c k f).ch c).sup = (s.ch c).sup := by simp [State.onCluster]

@[simp] theorem clock_onPort (p : Pt) (f : Port → Port) : (s.onPort c p f).clock = s.clock := id rfl
@[simp] theorem m_onPort (p : Pt) (f : Port → Port) : (s.onPort c p f).m = s.m := id rfl
@[simp] theorem out_onPort (p : Pt) (f : Port → Port) : (s.onPort c p f).out = s.out := id rfl
@[simp] theorem count_onPort (p : Pt) (f : Port → Port) : (s.onPort c p f).count = s.count := id rfl
@[simp] theorem counting_onPort (p : Pt) (f : Port → Port) : (s.onPort c p f).counting = s.counting := id rfl
@[simp] theorem pending_onPort (p : Pt) (f : Port → Port) : (s.onPort c p f).pending = s.pending := id rfl
@[simp] theorem freeNo_onPort (p : Pt) (f : Port → Port) : (s.onPort c p f).freeNo = s.freeNo := id rfl
@[simp] theorem ch_onPort_other (p : Pt) (f : Port → Port) (h : d ≠ c) : (s.onPort c p f).ch d = s.ch d := by simp [State.onPort, h]
@[simp] theorem ctl_onPort (p : Pt) (f : Port → Port) : ((s.onPort c p f).ch c).ctl = (s.ch c).ctl := by simp [State.onPort]
@[simp] theorem run_onPort (p : Pt) (f : Port → Port) : ((s.onPort c p f).ch c).run = (s.ch c).run := by simp [State.onPort]
@[simp] theorem watch_onPort (p : Pt) (f : Port → Port) : ((s.onPort c p f).ch c).watch = (s.ch c).watch := by simp [State.onPort]
@[simp] theorem mem_onPort (p : Pt) (f : Port → Port) : ((s.onPort c p f).ch c).mem = (s.ch c).mem := by simp [State.onPort]
@[simp] theorem yard_onPort (p : Pt) (f : Port → Port) : ((s.onPort c p f).ch c).yard = (s.ch c).yard := by simp [State.onPort]
@[simp] theorem host_onPort (p : Pt) (f : Port → Port) : ((s.onPort c p f).ch c).host = (s.ch c).host := by simp [State.onPort]
@[simp] theorem sup_onPort (p : Pt) (f : Port → Port) : ((s.onPort c p f).ch c).sup = (s.ch c).sup := by simp [State.onPort]

@[simp] theorem clock_onRegion (r : Rg) (f : Region → Region) : (s.onRegion c r f).clock = s.clock := id rfl
@[simp] theorem m_onRegion (r : Rg) (f : Region → Region) : (s.onRegion c r f).m = s.m := id rfl
@[simp] theorem out_onRegion (r : Rg) (f : Region → Region) : (s.onRegion c r f).out = s.out := id rfl
@[simp] theorem count_onRegion (r : Rg) (f : Region → Region) : (s.onRegion c r f).count = s.count := id rfl
@[simp] theorem counting_onRegion (r : Rg) (f : Region → Region) : (s.onRegion c r f).counting = s.counting := id rfl
@[simp] theorem pending_onRegion (r : Rg) (f : Region → Region) : (s.onRegion c r f).pending = s.pending := id rfl
@[simp] theorem freeNo_onRegion (r : Rg) (f : Region → Region) : (s.onRegion c r f).freeNo = s.freeNo := id rfl
@[simp] theorem ch_onRegion_other (r : Rg) (f : Region → Region) (h : d ≠ c) : (s.onRegion c r f).ch d = s.ch d := by simp [State.onRegion, h]
@[simp] theorem ctl_onRegion (r : Rg) (f : Region → Region) : ((s.onRegion c r f).ch c).ctl = (s.ch c).ctl := by simp [State.onRegion]
@[simp] theorem run_onRegion (r : Rg) (f : Region → Region) : ((s.onRegion c r f).ch c).run = (s.ch c).run := by simp [State.onRegion]
@[simp] theorem watch_onRegion (r : Rg) (f : Region → Region) : ((s.onRegion c r f).ch c).watch = (s.ch c).watch := by simp [State.onRegion]
@[simp] theorem mem_onRegion (r : Rg) (f : Region → Region) : ((s.onRegion c r f).ch c).mem = (s.ch c).mem := by simp [State.onRegion]
@[simp] theorem hub_onRegion (r : Rg) (f : Region → Region) : ((s.onRegion c r f).ch c).hub = (s.ch c).hub := by simp [State.onRegion]
@[simp] theorem yard_onRegion (r : Rg) (f : Region → Region) : ((s.onRegion c r f).ch c).yard = (s.ch c).yard := by simp [State.onRegion]
@[simp] theorem host_onRegion (r : Rg) (f : Region → Region) : ((s.onRegion c r f).ch c).host = (s.ch c).host := by simp [State.onRegion]


end Sys2Proof.Machine
end

