-- ==== Sys2Proof/Laws/Besides.lean ====
section
/-! SUPPORT. What the operations of one channel leave alone: the other channels. -/


namespace Sys2Proof.Machine

theorem setCh_besides (s : State) (c : Ch) (x : Chan) : (s.setCh c x).besides c = s.besides c := by
  funext d
  unfold State.besides
  split
  · rfl
  · rw [ch_setCh, if_neg ‹_›]

@[simp] theorem onCh_besides (s : State) (c : Ch) (f : Chan → Chan) : (s.onCh c f).besides c = s.besides c := setCh_besides _ _ _

@[simp] theorem onRun_besides (s : State) (c : Ch) (f : Run → Run) : (s.onRun c f).besides c = s.besides c := setCh_besides _ _ _

@[simp] theorem onWatch_besides (s : State) (c : Ch) (f : Watch → Watch) : (s.onWatch c f).besides c = s.besides c := setCh_besides _ _ _

@[simp] theorem onMem_besides (s : State) (c : Ch) (f : Memory → Memory) : (s.onMem c f).besides c = s.besides c := setCh_besides _ _ _

@[simp] theorem onHub_besides (s : State) (c : Ch) (f : Hub → Hub) : (s.onHub c f).besides c = s.besides c := setCh_besides _ _ _

@[simp] theorem onYard_besides (s : State) (c : Ch) (f : Yard → Yard) : (s.onYard c f).besides c = s.besides c := setCh_besides _ _ _

@[simp] theorem onHost_besides (s : State) (c : Ch) (f : HostLink → HostLink) : (s.onHost c f).besides c = s.besides c := setCh_besides _ _ _

@[simp] theorem onSup_besides (s : State) (c : Ch) (f : Supply → Supply) : (s.onSup c f).besides c = s.besides c := setCh_besides _ _ _

@[simp] theorem onCtl_besides (s : State) (c : Ch) (f : Ctl → Ctl) : (s.onCtl c f).besides c = s.besides c := setCh_besides _ _ _

@[simp] theorem onCluster_besides (s : State) (c : Ch) (k : Nat) (f : Cluster → Cluster) : (s.onCluster c k f).besides c = s.besides c := setCh_besides _ _ _

@[simp] theorem onPort_besides (s : State) (c : Ch) (p : Pt) (f : Port → Port) : (s.onPort c p f).besides c = s.besides c := setCh_besides _ _ _

@[simp] theorem onRegion_besides (s : State) (c : Ch) (r : Rg) (f : Region → Region) : (s.onRegion c r f).besides c = s.besides c := setCh_besides _ _ _

@[simp] theorem onM_besides (s : State) (f : Module → Module) (d : Ch) : (s.onM f).besides d = s.besides d := id rfl

@[simp] theorem send_besides (s : State) (o : Out) (d : Ch) : (s.send o).besides d = s.besides d := id rfl

@[simp] theorem foldl_besides {α : Type} (d : Ch) (f : State → α → State) (h : ∀ t x, (f t x).besides d = t.besides d) (l : List α) (s : State) :
    (l.foldl f s).besides d = s.besides d := by
  induction l generalizing s with
  | nil => rfl
  | cons x l ih => rw [List.foldl_cons, ih, h]

@[simp] theorem mk_besides (p n b k m o) (s : State) (d : Ch) : (State.mk p n b k m s.chs o).besides d = s.besides d := id rfl

@[simp] theorem ite_besides (p : Prop) [Decidable p] (a b : State) (d : Ch) :
    (if p then a else b).besides d = if p then a.besides d else b.besides d := apply_ite (State.besides · d) p a b

@[simp] theorem eachCh_besides (s : State) (f : Ch → State → State) (d : Ch) (h_f : ∀ x0 t, (f x0 t).besides d = t.besides d) :
    (s.eachCh f).besides d = s.besides d := foldl_besides d _ (fun t c => h_f c t) _ _

@[simp] theorem store_besides (s : State) (c : Ch) (a : Nat) (bs : List Byte) :
    (s.store c a bs).besides c = s.besides c := by simp [State.store]

@[simp] theorem toFlash_besides (s : State) (e : LogEntry) (d : Ch) :
    (s.toFlash e).besides d = s.besides d := by simp [State.toFlash]

@[simp] theorem logAs_besides (s : State) (c : Ch) (order source code : Nat) (param : List Byte) :
    (s.logAs c order source code param).besides c = s.besides c := by simp [State.logAs]

@[simp] theorem log_besides (s : State) (c : Ch) (source code : Nat) (ps : List Param) :
    (s.log c source code ps).besides c = s.besides c := by simp [State.log]

@[simp] theorem logM_besides (s : State) (source code : Nat) (ps : List Param) (d : Ch) :
    (s.logM source code ps).besides d = s.besides d := by simp [State.logM]

@[simp] theorem setChState_besides (s : State) (c : Ch) (st : ChState) :
    (s.setChState c st).besides c = s.besides c := by simp [State.setChState]

@[simp] theorem addDown_besides (s : State) (c : Ch) (since : Nat) :
    (s.addDown c since).besides c = s.besides c := by simp [State.addDown]

@[simp] theorem sendHostOp_besides (s : State) (c : Ch) (o : HostOp) :
    (s.sendHostOp c o).besides c = s.besides c := by simp [State.sendHostOp]

@[simp] theorem hostPump_besides (s : State) (c : Ch) :
    (s.hostPump c).besides c = s.besides c := by simp [State.hostPump]

@[simp] theorem hostOp_besides (s : State) (c : Ch) (o : HostOp) :
    (s.hostOp c o).besides c = s.besides c := by simp [State.hostOp]

@[simp] theorem writeBack_besides (s : State) (c : Ch) (ls : List DepotLine) :
    (s.writeBack c ls).besides c = s.besides c := by simp [State.writeBack]

@[simp] theorem depotPut_besides (s : State) (c : Ch) (host : Bool) (a : Nat) (x : Sector) :
    (s.depotPut c host a x).besides c = s.besides c := by
  unfold State.depotPut
  (try dsimp only)
  repeat' split
  all_goals first | rfl | simp

@[simp] theorem depotWriteBack_besides (s : State) (c : Ch) :
    (s.depotWriteBack c).besides c = s.besides c := by simp [State.depotWriteBack]

@[simp] theorem depotEmpty_besides (s : State) (c : Ch) :
    (s.depotEmpty c).besides c = s.besides c := by simp [State.depotEmpty]

@[simp] theorem enterHold_besides (s : State) (c : Ch) (code order : Nat) (param : List Byte) :
    (s.enterHold c code order param).besides c = s.besides c := by simp [State.enterHold]

@[simp] theorem holdNow_besides (s : State) (c : Ch) (code order : Nat) (param : List Byte) :
    (s.holdNow c code order param).besides c = s.besides c := by simp [State.holdNow]

@[simp] theorem stopFor_besides (s : State) (c : Ch) (code order : Nat) (param : List Byte) :
    (s.stopFor c code order param).besides c = s.besides c := by
  unfold State.stopFor
  repeat' split
  all_goals first | rfl | simp

@[simp] theorem containment_besides (s : State) (c : Ch) (cause : Nat) :
    (s.containment c cause).besides c = s.besides c := by simp [State.containment]

@[simp] theorem consumePoison_besides (s : State) (c : Ch) (addr source : Nat) :
    (s.consumePoison c addr source).besides c = s.besides c := by simp [State.consumePoison]

@[simp] theorem spoil_besides (s : State) (c : Ch) (f : MemFault) (source : Nat) :
    (s.spoil c f source).besides c = s.besides c := by
  unfold State.spoil
  (try dsimp only)
  repeat' split
  all_goals first | rfl | simp

@[simp] theorem damage_besides (s : State) (c : Ch) (f : MemFault) (source : Nat) :
    (s.damage c f source).besides c = s.besides c := by
  unfold State.damage
  repeat' split
  all_goals first | rfl | simp

@[simp] theorem meetAll_besides (s : State) (c : Ch) (faults : List MemFault) :
    (s.meetAll c faults).besides c = s.besides c := by simp [State.meetAll]

@[simp] theorem meet_besides (s : State) (w : At) : (s.meet w).besides w.ch = s.besides w.ch := meetAll_besides _ _ _

@[simp] theorem addSignal_besides (s : State) (c : Ch) (k sig amount : Nat) :
    (s.addSignal c k sig amount).besides c = s.besides c := by simp [State.addSignal]

@[simp] theorem touch_besides (s : State) (c : Ch) :
    (s.touch c).besides c = s.besides c := by simp [State.touch]

@[simp] theorem progress_besides (s : State) (c : Ch) :
    (s.progress c).besides c = s.besides c := by simp [State.progress]

@[simp] theorem carInvalid_besides (s : State) (c : Ch) (k : Nat) (car : Car) (pos row : Nat) :
    (s.carInvalid c k car pos row).besides c = s.besides c := by simp [State.carInvalid]

@[simp] theorem pendPost_besides (s : State) (c : Ch) (k : Nat) (car : Car) (id : Nat) :
    (s.pendPost c k car id).besides c = s.besides c := by simp [State.pendPost]

@[simp] theorem newId_besides (s : State) (c : Ch) :
    (s.newId c).2.besides c = s.besides c := by simp [State.newId]

@[simp] theorem issued_besides (s : State) (c : Ch) :
    (s.issued c).besides c = s.besides c := by simp [State.issued]

@[simp] theorem withRead_besides (s : State) (c : Ch) (k : Nat) :
    (s.withRead c k).1.besides c = s.besides c := by simp [State.withRead]

theorem readStop_besides (s : State) (c : Ch) (k : Nat) :
    ∀ u, (s.readStop c k) = some u → u.besides c = s.besides c := by
  intro u h
  unfold State.readStop at h
  (try dsimp only at h)
  repeat' split at h
  all_goals first
    | (cases h; done)
    | (obtain rfl := Option.some.inj h; simp ; done)

@[simp] theorem popCar_besides (s : State) (c : Ch) (k q : Nat) :
    (s.popCar c k q).besides c = s.besides c := by simp [State.popCar]

@[simp] theorem settle_besides (s : State) (c : Ch) :
    (s.settle c).besides c = s.besides c := by
  unfold State.settle
  (try dsimp only)
  repeat' split
  all_goals first | rfl | simp

theorem issueFrom_besides (s : State) (c : Ch) (k q : Nat) (body : QCar → State → Option State)
    (h : ∀ e t u, body e t = some u → u.besides c = t.besides c) : (s.issueFrom c k q body).besides c = s.besides c := by
  unfold State.issueFrom
  split
  · rename_i t ht; simp [readStop_besides _ _ _ _ ht]
  · dsimp only
    split
    · rename_i e he
      cases hb : body e (s.withRead c k).1 with
      | none => rfl
      | some u => simp [h _ _ _ hb]
    · rfl

theorem readPoint_besides (s : State) (c : Ch) (k : Nat) (body : Car → State → Option State)
    (h : ∀ e t u, body e t = some u → u.besides c = t.besides c) : (s.readPoint c k body).besides c = s.besides c := by
  unfold State.readPoint
  split
  · rename_i t ht; simp [readStop_besides _ _ _ _ ht]
  · dsimp only
    split
    · rename_i car hc
      split
      · cases hb : body car (s.withRead c k).1 with
        | none => rfl
        | some u => simp [h _ _ _ hb]
      · rfl
    · rfl

@[simp] theorem pass_besides (s : State) (c : Ch) (k : Nat) :
    (s.pass c k).besides c = s.besides c := by simp [State.pass]

theorem commonWait_besides (s : State) (c : Ch) (k : Nat) (car : Car) :
    ∀ u, (s.commonWait c k car) = some u → u.besides c = s.besides c := by
  intro u h
  unfold State.commonWait at h
  (try dsimp only at h)
  repeat' split at h
  all_goals first
    | (cases h; done)
    | (obtain rfl := Option.some.inj h; simp ; done)

theorem sendDatagram_besides (s : State) (i3c : Bool) (d : List Byte) (e : Ch) :
    (s.sendDatagram i3c d).besides e = s.besides e := by
  unfold State.sendDatagram
  split <;> rfl

@[simp] theorem replySession_besides (s : State) (x : Session) (d : List Byte) (status : Nat) (value : List Byte) (e : Ch) :
    (s.replySession x d status value).besides e = s.besides e := by
  unfold State.replySession
  dsimp only
  rw [sendDatagram_besides]; rfl

@[simp] theorem answerWake_besides (s : State) (c : Ch) (status : Nat) :
    (s.answerWake c status).besides c = s.besides c := by
  have h : ∀ (l : List Reply) (t : State), (∀ q ∈ l, q.wakes c = true) →
      (l.foldl (fun t q => t.reply q status []) t).besides c = t.besides c := by
    intro l
    induction l with
    | nil => exact fun _ _ => rfl
    | cons q l ih =>
      intro t hq
      rw [List.foldl_cons, ih _ (fun x hx => hq x (List.mem_cons_of_mem _ hx))]
      have hw := hq q (List.mem_cons_self ..)
      unfold State.reply
      split
      · rfl
      · split
        · simp
        · rfl
      · simp only [Reply.wakes, beq_iff_eq] at hw
        subst hw
        split <;> simp
      · split <;> simp
  unfold State.answerWake
  rw [h _ _ (fun q hq => (List.mem_filter.mp hq).2)]
  simp

@[simp] theorem logNum_besides (s : State) (c : Ch) (source code layer occ gauges pass causes engine param : Nat) :
    (s.logNum c source code layer occ gauges pass causes engine param).besides c = s.besides c := by simp [State.logNum]

@[simp] theorem meetFaults_besides (s : State) (c : Ch) (source : Nat) (ranges : List (Nat × Nat)) (faults : List MemFault) :
    (s.meetFaults c source ranges faults).besides c = s.besides c := by simp [State.meetFaults]

@[simp] theorem tileExit_besides (s : State) (c : Ch) (k : Nat) (e : QCar) (r : TileRec) (ch : Chain) (n : Nat) :
    (s.tileExit c k e r ch n).besides c = s.besides c := by simp [State.tileExit]

@[simp] theorem setChain_besides (s : State) (c : Ch) (k eng : Nat) (ch : Option Chain) :
    (s.setChain c k eng ch).besides c = s.besides c := by simp [State.setChain]

@[simp] theorem queueCheck_besides (s : State) (c : Ch) (k : Nat) (e : QCar) (r : TileRec) (ch : Chain) (ids : List Nat) :
    (s.queueCheck c k e r ch ids).besides c = s.besides c := by
  unfold State.queueCheck
  (try dsimp only)
  repeat' split
  all_goals first | rfl | simp

@[simp] theorem addCycles_besides (s : State) (c : Ch) (k unit n : Nat) :
    (s.addCycles c k unit n).besides c = s.besides c := by simp [State.addCycles]

@[simp] theorem runMatmul_besides (s : State) (c : Ch) (k : Nat) (e : QCar) (r : TileRec) (blocks : List Nat) :
    (s.runMatmul c k e r blocks).besides c = s.besides c := by simp [State.runMatmul]

@[simp] theorem tileCar_besides (s : State) (c : Ch) (k eng op : Nat) (faults : List MemFault) (body : QCar → TileRec → List Nat → State → State) (h_body : ∀ x0 x1 x2 t, (body x0 x1 x2 t).besides c = t.besides c) :
    (s.tileCar c k eng op faults body).besides c = s.besides c := by
  unfold State.tileCar
  first
  | refine issueFrom_besides _ _ _ _ _ (fun e t u h => ?_)
  | refine readPoint_besides _ _ _ _ (fun e t u h => ?_)
  revert h
  (try dsimp only)
  repeat' split
  all_goals intro h
  all_goals first
    | (cases h; done)
    | (obtain rfl := Option.some.inj h; simp [h_body]; done)

@[simp] theorem runReduce_besides (s : State) (c : Ch) (k : Nat) (e : QCar) (r : TileRec) (blocks : List Nat) :
    (s.runReduce c k e r blocks).besides c = s.besides c := by simp [State.runReduce]

@[simp] theorem stopTile_besides (s : State) (c : Ch) (k eng : Nat) :
    (s.stopTile c k eng).besides c = s.besides c := by
  unfold State.stopTile
  (try dsimp only)
  split
  · rfl
  · split
    · rfl
    · split
      · refine (foldl_besides c _ (fun t x => ?_) _ _).trans ?_
        · split <;> simp
        · simp
      · simp

@[simp] theorem stopTiles_besides (s : State) (c : Ch) (r : Nat) :
    (s.stopTiles c r).besides c = s.besides c := by simp [State.stopTiles]

@[simp] theorem reefDecide_besides (s : State) (c : Ch) :
    (s.reefDecide c).besides c = s.besides c := by simp [State.reefDecide]

@[simp] theorem dropImageFor_besides (s : State) (c : Ch) (r : Nat) :
    (s.dropImageFor c r).besides c = s.besides c := by
  unfold State.dropImageFor
  repeat' split
  all_goals first | rfl | simp

@[simp] theorem loseRegion_besides (s : State) (c : Ch) (r : Rg) (cause : Nat) :
    (s.loseRegion c r cause).besides c = s.besides c := by
  unfold State.loseRegion
  (try dsimp only)
  have h : ∀ t : State, (if (t.ch c).ctl.st = .running then t.stopTiles c r.val else t).besides c = t.besides c := fun t => by
    split <;> simp
  repeat' split
  all_goals simp

@[simp] theorem cancelUp_besides (s : State) (c : Ch) (g : Change) (cause region : Nat) :
    (s.cancelUp c g cause region).besides c = s.besides c := by simp [State.cancelUp]

@[simp] theorem switchStep_besides (s : State) (c : Ch) (g : Change) :
    (s.switchStep c g).besides c = s.besides c := by simp [State.switchStep]

@[simp] theorem switchOn_besides (s : State) (c : Ch) (r : Nat) :
    (s.switchOn c r).besides c = s.besides c := by simp [State.switchOn]

@[simp] theorem switchOff_besides (s : State) (c : Ch) (r : Nat) :
    (s.switchOff c r).besides c = s.besides c := by simp [State.switchOff]

@[simp] theorem switchTo_besides (s : State) (c : Ch) (mask : Nat) :
    (s.switchTo c mask).besides c = s.besides c := by simp [State.switchTo]

@[simp] theorem wakeDone_besides (s : State) (c : Ch) :
    (s.wakeDone c).besides c = s.besides c := by simp [State.wakeDone]

@[simp] theorem logAlign_besides (s : State) (st hops rank : Nat) (d : Ch) :
    (s.logAlign st hops rank).besides d = s.besides d := by simp [State.logAlign]

@[simp] theorem logAlignAlone_besides (s : State) (st hops : Nat) (d : Ch) :
    (s.logAlignAlone st hops).besides d = s.besides d := by simp [State.logAlignAlone]

@[simp] theorem alignOwn_besides (s : State) (d : Ch) :
    s.alignOwn.besides d = s.besides d := by simp [State.alignOwn]

@[simp] theorem rankWritten_besides (s : State) (was : Bool) (d : Ch) :
    (s.rankWritten was).besides d = s.besides d := by simp [State.rankWritten]

@[simp] theorem timeAlign_besides (s : State) (i : Nat) (d : Ch) :
    (s.timeAlign i).besides d = s.besides d := by
  unfold State.timeAlign
  (try dsimp only)
  repeat' split
  all_goals first | rfl | simp

@[simp] theorem outsiderHit_besides (s : State) (c : Ch) (gs : List Nat) (source writer : Nat) :
    (s.outsiderHit c gs source writer).besides c = s.besides c := by
  unfold State.outsiderHit
  (try dsimp only)
  repeat' split
  all_goals first | rfl | simp

@[simp] theorem depotGranule_besides (s : State) (c : Ch) (write : Bool) (g : Nat) :
    (s.depotGranule c write g).besides c = s.besides c := by simp [State.depotGranule]

@[simp] theorem depotPass_besides (s : State) (c : Ch) (a n : Nat) (write : Bool) :
    (s.depotPass c a n write).besides c = s.besides c := by simp [State.depotPass]

@[simp] theorem depotStore_besides (s : State) (c : Ch) (a : Nat) (bs : List Byte) :
    (s.depotStore c a bs).besides c = s.besides c := by simp [State.depotStore]

@[simp] theorem fillHost_besides (s : State) (c : Ch) (a : Nat) (bs : List Byte) (poisoned : Bool) :
    (s.fillHost c a bs poisoned).1.besides c = s.besides c := by
  unfold State.fillHost
  repeat' split
  all_goals first | rfl | simp

@[simp] theorem writeHost_besides (s : State) (c : Ch) (a : Nat) (bs : List Byte) (poisoned : Bool) (under : List Byte × Bool) :
    (s.writeHost c a bs poisoned under).besides c = s.besides c := by simp [State.writeHost]

@[simp] theorem outsiderWrite_besides (s : State) (c : Ch) (a : Nat) (bs : List Byte) (poisoned : List Nat) (source writer : Nat) :
    (s.outsiderWrite c a bs poisoned source writer).besides c = s.besides c := by simp [State.outsiderWrite]

@[simp] theorem postHost_besides (s : State) (c : Ch) (a : Nat) (bs : List Byte) :
    (s.postHost c a bs).besides c = s.besides c := by simp [State.postHost]

@[simp] theorem dbComplete_besides (s : State) (c : Ch) (e : Nat × Nat) (status result : Nat) :
    (s.dbComplete c e status result).besides c = s.besides c := by simp [State.dbComplete]

@[simp] theorem loadReported_besides (s : State) (c : Ch) (result : Nat) :
    (s.loadReported c result).besides c = s.besides c := by
  unfold State.loadReported
  repeat' split
  all_goals first | rfl | simp

@[simp] theorem pump_besides (s : State) (c : Ch) (p : Pt) :
    (s.pump c p).besides c = s.besides c := by simp [State.pump]

@[simp] theorem sendTrain_besides (s : State) (c : Ch) (p : Pt) (vl op : Nat) (head : List Byte) (a : Nat) (data : List Byte) (poisoned : List Nat) :
    (s.sendTrain c p vl op head a data poisoned).besides c = s.besides c := by simp [State.sendTrain]

@[simp] theorem sendControl_besides (s : State) (c : Ch) (p : Pt) (kind train index : Nat) (waybill : W32) (payload : List Byte) :
    (s.sendControl c p kind train index waybill payload).besides c = s.besides c := by simp [State.sendControl]

@[simp] theorem solicit_besides (s : State) (c : Ch) (p : Pt) (target : List Byte) :
    (s.solicit c p target).besides c = s.besides c := by simp [State.solicit]

@[simp] theorem sendMailOn_besides (s : State) (c : Ch) (p : Pt) (vl op rank : Nat) (headAt : Nat → List Byte) (a : Nat) (data : List Byte) (poisoned : List Nat) :
    (s.sendMailOn c p vl op rank headAt a data poisoned).besides c = s.besides c := by simp [State.sendMailOn]

@[simp] theorem sendOp_besides (s : State) (c : Ch) (o : PartnerOp) :
    (s.sendOp c o).besides c = s.besides c := by
  unfold State.sendOp
  (try dsimp only)
  repeat' split
  all_goals first | rfl | simp

@[simp] theorem newOp_besides (s : State) (c : Ch) (p : Pt) (o : PartnerOp) :
    (s.newOp c p o).besides c = s.besides c := by
  unfold State.newOp
  (try dsimp only)
  repeat' split
  all_goals first | rfl | simp

@[simp] theorem fetchPiece_besides (s : State) (c : Ch) (k id : Nat) (put : Staged → State → State) (p : Nat × Nat) (h_put : ∀ x0 t, (put x0 t).besides c = t.besides c) :
    (s.fetchPiece c k id put p).besides c = s.besides c := by
  unfold State.fetchPiece
  (try dsimp only)
  repeat' split
  all_goals first | rfl | simp [h_put]

@[simp] theorem stage_besides (s : State) (c : Ch) (k id : Nat) (g : Staged) :
    (s.stage c k id g).besides c = s.besides c := by simp [State.stage]

@[simp] theorem noteFarWrite_besides (s : State) (c : Ch) (id a n : Nat) :
    (s.noteFarWrite c id a n).besides c = s.besides c := by simp [State.noteFarWrite]

@[simp] theorem noteFarRead_besides (s : State) (c : Ch) (id : Nat) (u : MoveUnit) :
    (s.noteFarRead c id u).besides c = s.besides c := by simp [State.noteFarRead]

@[simp] theorem writeOwned_besides (s : State) (c : Ch) (id h : Nat) (bs : List Byte) (bad : Bool) :
    (s.writeOwned c id h bs bad).besides c = s.besides c := by
  unfold State.writeOwned
  (try dsimp only)
  repeat' split
  all_goals first | rfl | simp

@[simp] theorem writeDst_besides (s : State) (c : Ch) (id a : Nat) (bs : List Byte) (bad : List Nat) :
    (s.writeDst c id a bs bad).besides c = s.besides c := by
  unfold State.writeDst
  (try dsimp only)
  repeat' split
  all_goals first | rfl | simp

@[simp] theorem mapFault_besides (s : State) (c : Ch) (k : Nat) (m : Move) (f : MapFault) :
    (s.mapFault c k m f).besides c = s.besides c := by simp [State.mapFault]

@[simp] theorem retire_besides (s : State) (c : Ch) (k : Nat) (m : Move) :
    (s.retire c k m).besides c = s.besides c := by simp [State.retire]

@[simp] theorem carryOut_besides (s : State) (c : Ch) (m : Move) (us : List (MoveUnit × List Byte)) :
    (s.carryOut c m us).besides c = s.besides c := by simp [State.carryOut]

@[simp] theorem finishMove_besides (s : State) (c : Ch) (k : Nat) (m : Move) :
    (s.finishMove c k m).besides c = s.besides c := by
  unfold State.finishMove
  (try dsimp only)
  repeat' split
  all_goals first | rfl | simp

@[simp] theorem fetchAhead_besides (s : State) (c : Ch) (k id a : Nat) :
    (s.fetchAhead c k id a).besides c = s.besides c := by
  unfold State.fetchAhead
  (try dsimp only)
  repeat' split
  all_goals first | rfl | simp

@[simp] theorem fetchAll_besides (s : State) (c : Ch) (k : Nat) (m : Move) :
    (s.fetchAll c k m).besides c = s.besides c := by
  unfold State.fetchAll
  all_goals first | rfl | simp

@[simp] theorem advanceMove_besides (s : State) (c : Ch) (k id n : Nat) :
    (s.advanceMove c k id n).besides c = s.besides c := by
  induction n generalizing s with
  | zero => rfl
  | succ n ih =>
    unfold State.advanceMove
    (try dsimp only)
    split
    · rfl
    · split
      · simp
      · split
        · split <;> simp
        · split
          · simp
          · split
            · simp
            · rw [ih]; simp

@[simp] theorem advanceAll_besides (s : State) (c : Ch) (k : Nat) :
    (s.advanceAll c k).besides c = s.besides c := by
  unfold State.advanceAll
  exact foldl_besides c _ (fun t m => by simp) _ _

@[simp] theorem demand_besides (s : State) (c : Ch) (k id : Nat) (faults : List MemFault) :
    (s.demand c k id faults).besides c = s.besides c := by
  unfold State.demand
  (try dsimp only)
  split
  · rfl
  · split
    · simp
    · simp only [advanceMove_besides, onCluster_besides, onMem_besides]
      exact foldl_besides c _ (fun t f => by split <;> simp) _ _

@[simp] theorem moveCar_besides (s : State) (c : Ch) (k : Nat) (want : QCar → Nat → Bool) (body : Nat → Nat → QCar → State → Option State) (h_body : ∀ x0 x1 x2 t u, body x0 x1 x2 t = some u → u.besides c = t.besides c) :
    (s.moveCar c k want body).besides c = s.besides c := by
  unfold State.moveCar
  first
  | refine issueFrom_besides _ _ _ _ _ (fun e t u h => ?_)
  | refine readPoint_besides _ _ _ _ (fun e t u h => ?_)
  revert h
  (try dsimp only)
  repeat' split
  all_goals intro h
  all_goals first
    | (cases h; done)
    | (obtain rfl := Option.some.inj h; simp; done)
    | (simp_all; done)
    | (have := h_body _ _ _ _ _ h; simp_all; done)

@[simp] theorem runMove_besides (s : State) (c : Ch) (k mode : Nat) (ahead : List Nat) (faults : List MemFault) :
    (s.runMove c k mode ahead faults).besides c = s.besides c := by simp [State.runMove]

@[simp] theorem arrive_besides (s : State) (c : Ch) (id a : Nat) (bs : List Byte) (bad : List Nat) :
    (s.arrive c id a bs bad).besides c = s.besides c := by
  unfold State.arrive
  (try dsimp only)
  repeat' split
  all_goals first | rfl | simp

@[simp] theorem restartCar_besides (s : State) (c : Ch) (k eng : Nat) (f : Refetch) (r : TileRec) :
    (s.restartCar c k eng f r).besides c = s.besides c := by
  unfold State.restartCar
  (try dsimp only)
  repeat' split
  all_goals simp

@[simp] theorem worldCar_besides (s : State) (c : Ch) (k op : Nat) (body : QCar → Image → Nat → Nat → State → State) (h_body : ∀ x0 x1 x2 x3 t, (body x0 x1 x2 x3 t).besides c = t.besides c) :
    (s.worldCar c k op body).besides c = s.besides c := by
  unfold State.worldCar
  first
  | refine issueFrom_besides _ _ _ _ _ (fun e t u h => ?_)
  | refine readPoint_besides _ _ _ _ (fun e t u h => ?_)
  revert h
  (try dsimp only)
  repeat' split
  all_goals intro h
  all_goals first
    | (cases h; done)
    | (obtain rfl := Option.some.inj h; simp [h_body]; done)

@[simp] theorem worldDone_besides (s : State) (c : Ch) (k : Nat) (e : QCar) :
    (s.worldDone c k e).besides c = s.besides c := by simp [State.worldDone]

@[simp] theorem endSlots_besides (c : Ch) (k : Nat) (i : Image) (v ring : Nat) (l : List Nat) (s : State) :
    (s.endSlots c k i v ring l).besides c = s.besides c := by
  induction l generalizing s with
  | nil => rfl
  | cons n ns ih =>
    unfold State.endSlots
    dsimp only
    split
    · simp
    · rw [ih]; simp

@[simp] theorem resetSlot_besides (s : State) (c : Ch) (i : Image) (n : Nat) :
    (s.resetSlot c i n).besides c = s.besides c := by simp [State.resetSlot]

@[simp] theorem resetSlots_besides (c : Ch) (i : Image) (v : Nat) (l : List Nat) (s : State) :
    (s.resetSlots c i v l).1.besides c = s.besides c := by
  induction l generalizing s with
  | nil => rfl
  | cons n ns ih =>
    unfold State.resetSlots
    dsimp only
    split
    · rfl
    · split
      · split
        · rfl
        · rw [ih]; simp
      · rw [ih]

@[simp] theorem sendFragTrain_besides (s : State) (c : Ch) (p : Pt) (m : MsgOut) (f n : Nat) (data : List Byte) (poisoned : List Nat) :
    (s.sendFragTrain c p m f n data poisoned).besides c = s.besides c := by
  unfold State.sendFragTrain
  (try dsimp only)
  all_goals first | rfl | simp

@[simp] theorem sendFrags_besides (s : State) (c : Ch) (p : Pt) (m : MsgOut) (f n : Nat) :
    (s.sendFrags c p m f n).besides c = s.besides c := by
  unfold State.sendFrags
  (try dsimp only)
  repeat' split
  all_goals first | rfl | simp

@[simp] theorem mailPump_besides (s : State) (c : Ch) (id : Nat) :
    (s.mailPump c id).besides c = s.besides c := by
  unfold State.mailPump
  (try dsimp only)
  repeat' split
  all_goals first | rfl | simp

theorem ringDoorbell_besides (s : State) (c : Ch) (k : Nat) (m : Move) (body : Nat → List Byte → State → Ring)
    (h_body : ∀ x0 x1 t u, body x0 x1 t = .done u → u.besides c = t.besides c) :
    ∀ u, (s.ringDoorbell c k m body) = some u → u.besides c = s.besides c := by
  intro u h
  unfold State.ringDoorbell at h
  (try dsimp only at h)
  split at h
  · obtain rfl := Option.some.inj h; simp
  · split at h
    · split at h
      · cases h
      · obtain rfl := Option.some.inj h; simp
    · split at h
      · obtain rfl := Option.some.inj h; simp
      · split at h
        · cases h
        · obtain rfl := Option.some.inj h; simp
        · obtain rfl := Option.some.inj h; simp
        · rename_i t ht
          obtain rfl := Option.some.inj h
          simp [h_body _ _ _ _ ht]

theorem doorbellCar_besides (s : State) (c : Ch) (k kind : Nat) (body : Nat → List Byte → State → Ring)
    (h_body : ∀ x0 x1 t u, body x0 x1 t = .done u → u.besides c = t.besides c) :
    (s.doorbellCar c k kind body).besides c = s.besides c := by
  unfold State.doorbellCar
  (try dsimp only)
  split
  · rename_i m _
    cases hr : s.ringDoorbell c k m body with
    | none => rfl
    | some t => simp [ringDoorbell_besides _ _ _ _ _ h_body _ hr]
  · refine moveCar_besides _ _ _ _ _ (fun id x1 x2 t u h => ?_)
    split at h
    · exact ringDoorbell_besides _ _ _ _ _ h_body _ h
    · cases h

@[simp] theorem onTrain_besides (s : State) (c : Ch) (p : Pt) (lane a : Nat) (data : List Byte) (body : State → State) (h_body : ∀ t, (body t).besides c = t.besides c) :
    (s.onTrain c p lane a data body).besides c = s.besides c := by simp [State.onTrain, h_body]

@[simp] theorem sendHello_besides (s : State) (c : Ch) (p : Pt) :
    (s.sendHello c p).besides c = s.besides c := by simp [State.sendHello]

@[simp] theorem partnerReset_besides (s : State) (c : Ch) (p : Pt) (rank : Nat) :
    (s.partnerReset c p rank).besides c = s.besides c := by
  unfold State.partnerReset
  (try dsimp only)
  repeat' split
  all_goals first | rfl | simp

@[simp] theorem gotHello_besides (s : State) (c : Ch) (p : Pt) (g : Hello) :
    (s.gotHello c p g).besides c = s.besides c := by
  unfold State.gotHello
  (try dsimp only)
  repeat' split
  all_goals first | rfl | simp

@[simp] theorem resume_besides (s : State) (c : Ch) :
    (s.resume c).besides c = s.besides c := by simp [State.resume]

@[simp] theorem sendCtrl_besides (s : State) (c : Ch) (p : Pt) (next : Nat) (nak : Bool) :
    (s.sendCtrl c p next nak).besides c = s.besides c := by simp [State.sendCtrl]

@[simp] theorem sendAgain_besides (s : State) (c : Ch) (w : List PartnerOp × List MsgOut) :
    (s.sendAgain c w).besides c = s.besides c := by simp [State.sendAgain]

@[simp] theorem setLinkEnable_besides (s : State) (c : Ch) (p : Pt) (on : Bool) :
    (s.setLinkEnable c p on).besides c = s.besides c := by simp [State.setLinkEnable]

@[simp] theorem respond_besides (s : State) (c : Ch) (came : Came) (op rank : Nat) (h : RespHead) (a : Nat) (data : List Byte) (poisoned : List Nat) :
    (s.respond c came op rank h a data poisoned).besides c = s.besides c := by
  unfold State.respond
  (try dsimp only)
  repeat' split
  all_goals first | rfl | simp

@[simp] theorem inSequence_besides (s : State) (c : Ch) (rank port seq : Nat) (body again : State → State) (h_body : ∀ t, (body t).besides c = t.besides c) (h_again : ∀ t, (again t).besides c = t.besides c) :
    (s.inSequence c rank port seq body again).besides c = s.besides c := by
  unfold State.inSequence
  (try dsimp only)
  repeat' split
  all_goals first | rfl | simp [h_body, h_again]

@[simp] theorem combine_besides (s : State) (c : Ch) (addr key arrival : Nat) :
    (s.combine c addr key arrival).besides c = s.besides c := by
  unfold State.combine
  (try dsimp only)
  repeat' split
  all_goals first | rfl | simp

@[simp] theorem serveRead_besides (s : State) (c : Ch) (p : Pt) (came : Came) (h : ReqHead) :
    (s.serveRead c p came h).besides c = s.besides c := by simp [State.serveRead]

@[simp] theorem ackWrite_besides (s : State) (c : Ch) (came : Came) (h : ReqHead) (status : Nat) :
    (s.ackWrite c came h status).besides c = s.besides c := by simp [State.ackWrite]

@[simp] theorem applyWrite_besides (s : State) (c : Ch) (p : Pt) (came : Came) (h : ReqHead) (data : List Byte) (poisoned : List Nat) :
    (s.applyWrite c p came h data poisoned).besides c = s.besides c := by simp [State.applyWrite]

@[simp] theorem answerAtomic_besides (s : State) (c : Ch) (came : Came) (h : AtomHead) (status result : Nat) :
    (s.answerAtomic c came h status result).besides c = s.besides c := by simp [State.answerAtomic]

@[simp] theorem applyAtomic_besides (s : State) (c : Ch) (p : Pt) (came : Came) (op : Nat) (h : AtomHead) :
    (s.applyAtomic c p came op h).besides c = s.besides c := by
  unfold State.applyAtomic
  (try dsimp only)
  repeat' split
  all_goals first | rfl | simp

@[simp] theorem applyRound_besides (s : State) (c : Ch) (r : Round) :
    (s.applyRound c r).besides c = s.besides c := by simp [State.applyRound]

@[simp] theorem holdAtomic_besides (s : State) (c : Ch) (p : Pt) (came : Came) (op : Nat) (h : AtomHead) :
    (s.holdAtomic c p came op h).besides c = s.besides c := by simp [State.holdAtomic]

@[simp] theorem applyInner_besides (s : State) (c : Ch) (arrival : Nat) (x : Inner) :
    (s.applyInner c arrival x).besides c = s.besides c := by
  unfold State.applyInner
  (try dsimp only)
  repeat' split
  all_goals first | rfl | simp

@[simp] theorem releaseHeld_besides (s : State) (c : Ch) (n : Nat) :
    (s.releaseHeld c n).besides c = s.besides c := by
  induction n generalizing s with
  | zero => rfl
  | succ n ih =>
    unfold State.releaseHeld
    split
    · rfl
    · rw [ih]; simp

@[simp] theorem combineInner_besides (s : State) (c : Ch) (arrival : Nat) (x : Inner) :
    (s.combineInner c arrival x).besides c = s.besides c := by
  cases x <;> simp [State.combineInner]

@[simp] theorem answerAgain_besides (s : State) (c : Ch) (arrival : Nat) (x : Inner) :
    (s.answerAgain c arrival x).besides c = s.besides c := by
  unfold State.answerAgain
  (try dsimp only)
  repeat' split
  all_goals first | rfl | simp

@[simp] theorem takeOp_besides (s : State) (c : Ch) (p : Pt) (came : Came) (x : Inner) :
    (s.takeOp c p came x).besides c = s.besides c := by
  unfold State.takeOp
  refine inSequence_besides _ _ _ _ _ _ _ (fun t => ?_) (fun t => by simp)
  (try dsimp only)
  split <;> simp

@[simp] theorem atomicTrain_besides (s : State) (c : Ch) (p : Pt) (op : Nat) (h : AtomHead) :
    (s.atomicTrain c p op h).besides c = s.besides c := by simp [State.atomicTrain]

@[simp] theorem endOp_besides (s : State) (c : Ch) (o : PartnerOp) :
    (s.endOp c o).besides c = s.besides c := by simp [State.endOp]

@[simp] theorem partnerRefused_besides (s : State) (c : Ch) (p : Pt) (o : PartnerOp) (status : Nat) :
    (s.partnerRefused c p o status).besides c = s.besides c := by simp [State.partnerRefused]

theorem signalCar_besides (s : State) (w : At) (func : Nat) (body : Car → State → Option State)
    (h_body : ∀ e t u, body e t = some u → u.besides w.ch = t.besides w.ch) : (s.signalCar w func body).besides w.ch = s.besides w.ch := by
  unfold State.signalCar
  refine readPoint_besides _ _ _ _ (fun car t u h => ?_)
  dsimp only at h
  split at h
  · cases h
  · split at h
    · obtain rfl := Option.some.inj h; simp
    · split at h
      · cases h
      · obtain ⟨v, hv, hb⟩ := Option.bind_eq_some_iff.mp h
        rw [h_body _ _ _ hb, commonWait_besides _ _ _ _ _ hv]

@[simp] theorem passPost_besides (s : State) (c : Ch) (k : Nat) (car : Car) :
    (s.passPost c k car).besides c = s.besides c := by simp [State.passPost]

@[simp] theorem controlCar_besides (s : State) (w : At) (func : Nat) (body : Car → Cluster → State → Option State) (h_body : ∀ x0 x1 t u, body x0 x1 t = some u → u.besides w.ch = t.besides w.ch) :
    (s.controlCar w func body).besides w.ch = s.besides w.ch := by
  unfold State.controlCar
  first
  | refine issueFrom_besides _ _ _ _ _ (fun e t u h => ?_)
  | refine readPoint_besides _ _ _ _ (fun e t u h => ?_)
  revert h
  repeat' split
  all_goals intro h
  all_goals first
    | (cases h; done)
    | (obtain rfl := Option.some.inj h; simp [h_body]; done)
    | (simp_all [h_body]; done)
    | (have := h_body _ _ _ _ h; simp_all; done)

theorem reportCommit_besides (s : State) (c : Ch) (k : Nat) :
    ∀ u, (s.reportCommit c k) = some u → u.besides c = s.besides c := by
  intro u h
  unfold State.reportCommit at h
  (try dsimp only at h)
  repeat' split at h
  all_goals first
    | (cases h; done)
    | (obtain rfl := Option.some.inj h; simp ; done)

@[simp] theorem replay_besides (s : State) (c : Ch) (o : Occ) (rung : Nat) (moved : List (Nat × Nat)) (causeO causeT : Bool) :
    (s.replay c o rung moved causeO causeT).besides c = s.besides c := by simp [State.replay]

@[simp] theorem commitOcc_besides (s : State) (c : Ch) (o : Occ) :
    (s.commitOcc c o).besides c = s.besides c := by simp [State.commitOcc]

@[simp] theorem logMismatches_besides (s : State) (c : Ch) (o : Occ) (g : Nat) :
    (s.logMismatches c o g).besides c = s.besides c := by simp [State.logMismatches]

@[simp] theorem logBoundary_besides (s : State) (c : Ch) (code layer before after param : Nat) :
    (s.logBoundary c code layer before after param).besides c = s.besides c := by simp [State.logBoundary]

@[simp] theorem startRung_besides (s : State) (c : Ch) (layer rc : Nat) :
    (s.startRung c layer rc).besides c = s.besides c := by simp [State.startRung]

@[simp] theorem stepExponent_besides (s : State) (c : Ch) (layer rc : Nat) (stats : Tab (Option Int × Bool)) :
    (s.stepExponent c layer rc stats).besides c = s.besides c := by simp [State.stepExponent]

@[simp] theorem stepEnd_besides (s : State) (c : Ch) (i : Image) :
    (s.stepEnd c i).besides c = s.besides c := by
  unfold State.stepEnd
  (try dsimp only)
  repeat' split
  all_goals first | rfl | simp

@[simp] theorem average_besides (s : State) (c : Ch) (k : Committed) :
    (s.average c k).besides c = s.besides c := by simp [State.average]

@[simp] theorem averages_besides (s : State) (c : Ch) :
    (s.averages c).besides c = s.besides c := by simp [State.averages]

@[simp] theorem legRegions_besides (s : State) (c : Ch) (i : Image) (leg : Nat) :
    (s.legRegions c i leg).besides c = s.besides c := by simp [State.legRegions]

@[simp] theorem legDone_besides (s : State) (c : Ch) (i : Image) (next : Nat) :
    (s.legDone c i next).besides c = s.besides c := by simp [State.legDone]

@[simp] theorem iterationDone_besides (s : State) (c : Ch) :
    (s.iterationDone c).besides c = s.besides c := by simp [State.iterationDone]

@[simp] theorem legExit_besides (s : State) (c : Ch) (i : Image) (last : Bool) (diverged : Option (List Byte)) :
    (s.legExit c i last diverged).besides c = s.besides c := by
  unfold State.legExit
  repeat' split
  all_goals first | rfl | simp

@[simp] theorem boundary_besides (s : State) (c : Ch) (i : Image) :
    (s.boundary c i).besides c = s.besides c := by simp [State.boundary]

@[simp] theorem holdStill_besides (s : State) (c : Ch) (code : Nat) :
    (s.holdStill c code).besides c = s.besides c := by simp [State.holdStill]

@[simp] theorem ackMail_besides (s : State) (c : Ch) (rank status queue msg next : Nat) :
    (s.ackMail c rank status queue msg next).besides c = s.besides c := by
  unfold State.ackMail
  (try dsimp only)
  repeat' split
  all_goals first | rfl | simp

@[simp] theorem mailWhole_besides (s : State) (c : Ch) (p : Pt) (h : MailHead) :
    (s.mailWhole c p h).besides c = s.besides c := by simp [State.mailWhole]

@[simp] theorem takeFrags_besides (s : State) (c : Ch) (p : Pt) (h : MailHead) (next : Nat) (data : List Byte) (poisoned : List Nat) :
    (s.takeFrags c p h next data poisoned).besides c = s.besides c := by simp [State.takeFrags]

@[simp] theorem takeMail_besides (s : State) (c : Ch) (p : Pt) (h : MailHead) (data : List Byte) (poisoned : List Nat) :
    (s.takeMail c p h data poisoned).besides c = s.besides c := by
  unfold State.takeMail
  (try dsimp only)
  repeat' split
  all_goals first | rfl | simp

@[simp] theorem yardPost_besides (s : State) (c : Ch) (i : Image) (dst tag msg : Nat) (data : List Byte) :
    (s.yardPost c i dst tag msg data).besides c = s.besides c := by simp [State.yardPost]

@[simp] theorem yardPump_besides (s : State) (c : Ch) :
    (s.yardPump c).besides c = s.besides c := by
  unfold State.yardPump
  split
  · rfl
  · exact foldl_besides c _ (fun t o => by split <;> simp) _ _

@[simp] theorem undeliverable_besides (s : State) (c : Ch) (m : MsgOut) (source : Nat) :
    (s.undeliverable c m source).besides c = s.besides c := by simp [State.undeliverable]

@[simp] theorem resendMail_besides (s : State) (c : Ch) (m : MsgOut) :
    (s.resendMail c m).besides c = s.besides c := by simp [State.resendMail]

@[simp] theorem yardSend_besides (s : State) (c : Ch) (dst kind seg owner chunk : Nat) (data : List Byte) :
    (s.yardSend c dst kind seg owner chunk data).besides c = s.besides c := by simp [State.yardSend]

@[simp] theorem yardDone_besides (s : State) (c : Ch) (q : YardCar) :
    (s.yardDone c q).besides c = s.besides c := by
  unfold State.yardDone
  (try dsimp only)
  repeat' split
  all_goals first | rfl | simp

@[simp] theorem tryDeliver_besides (s : State) (c : Ch) (i : Image) :
    (s.tryDeliver c i).besides c = s.besides c := by simp [State.tryDeliver]

@[simp] theorem tryAwait_besides (s : State) (c : Ch) (i : Image) :
    (s.tryAwait c i).besides c = s.besides c := by simp [State.tryAwait]

@[simp] theorem storeParts_besides (s : State) (c : Ch) (parts : List (Nat × Nat)) (bs : List Byte) :
    (s.storeParts c parts bs).besides c = s.besides c := by
  unfold State.storeParts
  induction parts generalizing s bs with
  | nil => rfl
  | cons p l ih => rw [List.foldl_cons, ih]; simp

@[simp] theorem putCopy_besides (s : State) (c : Ch) (i : Image) (seg owner chunk : Nat) (bs : List Byte) :
    (s.putCopy c i seg owner chunk bs).besides c = s.besides c := by simp [State.putCopy]

@[simp] theorem passOn_besides (s : State) (c : Ch) (i : Image) (seg owner chunk : Nat) (bs : List Byte) :
    (s.passOn c i seg owner chunk bs).besides c = s.besides c := by simp [State.passOn]

@[simp] theorem publishChunk_besides (s : State) (c : Ch) (i : Image) (seg chunk : Nat) (bs : List Byte) :
    (s.publishChunk c i seg chunk bs).besides c = s.besides c := by simp [State.publishChunk]

@[simp] theorem yardRoot_besides (s : State) (c : Ch) (i : Image) (seg chunk : Nat) (ws : List W32) :
    (s.yardRoot c i seg chunk ws).besides c = s.besides c := by
  unfold State.yardRoot
  (try dsimp only)
  split
  · split <;> simp
  · cases i.backupRank (s.ch c).rank <;> simp

@[simp] theorem useValue_besides (s : State) (c : Ch) (i : Image) (seg chunk lm : Nat) (ws : List W32) (slot : Option Nat) :
    (s.useValue c i seg chunk lm ws slot).besides c = s.besides c := by simp [State.useValue]

@[simp] theorem useBackup_besides (s : State) (c : Ch) (i : Image) (q : QuadCopy) (after : Nat) :
    (s.useBackup c i q after).besides c = s.besides c := by simp [State.useBackup]

@[simp] theorem deadlineUse_besides (s : State) (c : Ch) (i : Image) (seg chunk lm due : Nat) :
    (s.deadlineUse c i seg chunk lm due).besides c = s.besides c := by
  unfold State.deadlineUse
  (try dsimp only)
  repeat' split
  all_goals first | rfl | simp

@[simp] theorem compareCopies_besides (s : State) (c : Ch) (seg chunk lm : Nat) :
    (s.compareCopies c seg chunk lm).besides c = s.besides c := by
  unfold State.compareCopies
  (try dsimp only)
  repeat' split
  all_goals first | rfl | simp

@[simp] theorem useCopy_besides (s : State) (c : Ch) (i : Image) (q : QuadCopy) :
    (s.useCopy c i q).besides c = s.besides c := by simp [State.useCopy]

@[simp] theorem copyDone_besides (s : State) (c : Ch) (i : Image) (seg chunk m : Nat) (data : List Byte) (slot : Option Nat) :
    (s.copyDone c i seg chunk m data slot).besides c = s.besides c := by
  unfold State.copyDone
  dsimp only
  split
  · exact useValue_besides _ _ _ _ _ _ _ _
  · rw [compareCopies_besides, useCopy_besides]
    split
    · exact deadlineUse_besides _ _ _ _ _ _ _
    · rfl

@[simp] theorem placeNode_besides (s : State) (c : Ch) (i : Image) (seg owner chunk level pos : Nat) (ws : List W32) :
    (s.placeNode c i seg owner chunk level pos ws).besides c = s.besides c := by simp [State.placeNode]

@[simp] theorem askCredits_besides (s : State) (c : Ch) (i : Image) (seg : Nat) (kinds : List Nat) :
    (s.askCredits c i seg kinds).besides c = s.besides c := by simp [State.askCredits]

theorem yardCar_besides (s : State) (w : At) (func amode : Nat) (body : Image → Car → State → State)
    (h_body : ∀ i e t, (body i e t).besides w.ch = t.besides w.ch) : (s.yardCar w func amode body).besides w.ch = s.besides w.ch := by
  unfold State.yardCar
  refine readPoint_besides _ _ _ _ (fun car t u h => ?_)
  dsimp only at h
  split at h
  · cases h
  · split at h
    · cases h
    · split at h
      · obtain rfl := Option.some.inj h; simp
      · split at h
        · cases h
        · obtain ⟨v, hv, rfl⟩ := Option.map_eq_some_iff.mp h
          rw [h_body, commonWait_besides _ _ _ _ _ hv]

@[simp] theorem holdCar_besides (s : State) (w : At) (car : Car) :
    (s.holdCar w car).besides w.ch = s.besides w.ch := by simp [State.holdCar]

@[simp] theorem accumulate_besides (s : State) (w : At) (i : Image) (car : Car) (add : Bool) :
    (s.accumulate w i car add).besides w.ch = s.besides w.ch := by
  unfold State.accumulate
  (try dsimp only)
  repeat' split
  all_goals first | rfl | simp

@[simp] theorem enterLeaves_besides (s : State) (w : At) (i : Image) (car : Car) (final : Bool) :
    (s.enterLeaves w i car final).besides w.ch = s.besides w.ch := by
  unfold State.enterLeaves
  (try dsimp only)
  repeat' split
  all_goals first | rfl | simp

@[simp] theorem ackYard_besides (s : State) (c : Ch) (m : YardMsg) (status : Nat) :
    (s.ackYard c m status).besides c = s.besides c := by simp [State.ackYard]

@[simp] theorem uncredited_besides (s : State) (c : Ch) (kind : Nat) (m : YardMsg) :
    (s.uncredited c kind m).besides c = s.besides c := by
  unfold State.uncredited
  all_goals first | rfl | simp

@[simp] theorem poisonedYard_besides (s : State) (c : Ch) (m : YardMsg) :
    (s.poisonedYard c m).besides c = s.besides c := by
  unfold State.poisonedYard
  all_goals first | rfl | simp

@[simp] theorem atYard_besides (s : State) (c : Ch) (kind : Nat) (m : YardMsg) (body : Image → State → State) (h_body : ∀ x0 t, (body x0 t).besides c = t.besides c) :
    (s.atYard c kind m body).besides c = s.besides c := by
  unfold State.atYard
  repeat' split
  all_goals first | rfl | simp [h_body]

@[simp] theorem yardTake_besides (s : State) (c : Ch) (kind : Nat) (m : YardMsg) (body : Image → Nat → State → State)
    (h_body : ∀ x0 x1 t, (body x0 x1 t).besides c = t.besides c) :
    (s.yardTake c kind m body).besides c = s.besides c := by
  unfold State.yardTake
  refine atYard_besides _ _ _ _ _ (fun i t => ?_)
  (try dsimp only)
  split
  · simp
  · split
    · simp
    · split
      · simp
      · simp [h_body]

@[simp] theorem takeLeaf_besides (s : State) (c : Ch) (m : YardMsg) :
    (s.takeLeaf c m).besides c = s.besides c := by simp [State.takeLeaf]

@[simp] theorem takePair_besides (s : State) (c : Ch) (m : YardMsg) :
    (s.takePair c m).besides c = s.besides c := by simp [State.takePair]

@[simp] theorem takeQuad_besides (s : State) (c : Ch) (m : YardMsg) :
    (s.takeQuad c m).besides c = s.besides c := by
  unfold State.takeQuad
  (try dsimp only)
  all_goals first | rfl | simp

@[simp] theorem takeRoot_besides (s : State) (c : Ch) (m : YardMsg) :
    (s.takeRoot c m).besides c = s.besides c := by simp [State.takeRoot]

@[simp] theorem takeSlice_besides (s : State) (c : Ch) (kind : Nat) (m : YardMsg) :
    (s.takeSlice c kind m).besides c = s.besides c := by simp [State.takeSlice]

@[simp] theorem takeCredit_besides (s : State) (c : Ch) (m : YardMsg) :
    (s.takeCredit c m).besides c = s.besides c := by
  unfold State.takeCredit
  refine atYard_besides _ _ _ _ _ (fun i t => ?_)
  (try dsimp only)
  split
  · simp
  · split <;> simp

@[simp] theorem issueCredit_besides (s : State) (c : Ch) (i : Image) (q : YardCredit) :
    (s.issueCredit c i q).besides c = s.besides c := by simp [State.issueCredit]

@[simp] theorem yardMessage_besides (s : State) (c : Ch) (kind : Nat) (m : YardMsg) :
    (s.yardMessage c kind m).besides c = s.besides c := by
  unfold State.yardMessage
  repeat' split
  all_goals first | rfl | simp

@[simp] theorem yardTrain_besides (s : State) (c : Ch) (h : MailHead) (data : List Byte) (poisoned : List Nat) :
    (s.yardTrain c h data poisoned).besides c = s.besides c := by
  unfold State.yardTrain
  (try dsimp only)
  repeat' split
  all_goals first | rfl | simp

@[simp] theorem loadFailed_besides (s : State) (c : Ch) (result : Nat) :
    (s.loadFailed c result).besides c = s.besides c := by simp [State.loadFailed]

@[simp] theorem loadDone_besides (s : State) (c : Ch) (g : Staging) (i : Image) :
    (s.loadDone c g i).besides c = s.besides c := by simp [State.loadDone]

@[simp] theorem placed_besides (s : State) (c : Ch) (g : Staging) (i : Image) :
    (s.placed c g i).besides c = s.besides c := by simp [State.placed]

@[simp] theorem finishLoad_besides (s : State) (c : Ch) (a : Nat) :
    (s.finishLoad c a).besides c = s.besides c := by
  unfold State.finishLoad
  (try dsimp only)
  repeat' split
  all_goals first | rfl | simp

@[simp] theorem startLoad_besides (s : State) (c : Ch) (a : Nat) :
    (s.startLoad c a).besides c = s.besides c := by simp [State.startLoad]

@[simp] theorem enterFault_besides (s : State) (c : Ch) (code : Nat) (param : List Byte) :
    (s.enterFault c code param).besides c = s.besides c := by simp [State.enterFault]

@[simp] theorem channelOff_besides (s : State) (c : Ch) :
    (s.channelOff c).besides c = s.besides c := by simp [State.channelOff]

@[simp] theorem haltCars_besides (s : State) (c : Ch) :
    (s.haltCars c).besides c = s.besides c := by simp [State.haltCars]

@[simp] theorem safeChannel_besides (s : State) (c : Ch) (trip : Bool) :
    (s.safeChannel c trip).besides c = s.besides c := by simp [State.safeChannel]

@[simp] theorem logPair_besides (s : State) (c : Ch) (r : Rg) (p old new : Nat) (a b : Int) (model : W32) :
    (s.logPair c r p old new a b model).besides c = s.besides c := by simp [State.logPair]

@[simp] theorem forecastRegion_besides (s : State) (c : Ch) (r : Rg) (rd : RegionReading) :
    (s.forecastRegion c r rd).besides c = s.besides c := by simp [State.forecastRegion]

@[simp] theorem logLost_besides (s : State) (old : Module) (d : Ch) :
    (s.logLost old).besides d = s.besides d := by simp [State.logLost]

@[simp] theorem logRange_besides (s : State) (old : Module) (d : Ch) :
    (s.logRange old).besides d = s.besides d := by simp [State.logRange]

@[simp] theorem assignSensor_besides (s : State) (i : Nat) (d : Ch) :
    (s.assignSensor i).besides d = s.besides d := by simp [State.assignSensor]

@[simp] theorem readSensors_besides (s : State) (answers : List (Nat × Nat)) (d : Ch) :
    (s.readSensors answers).besides d = s.besides d := by
  unfold State.readSensors
  refine foldl_besides d _ (fun t i => ?_) _ _
  (try dsimp only)
  split <;> split <;> simp

@[simp] theorem markLife_besides (s : State) (c : Ch) :
    (s.markLife c).besides c = s.besides c := by simp [State.markLife]

@[simp] theorem startRun_besides (s : State) (c : Ch) :
    (s.startRun c).besides c = s.besides c := by simp [State.startRun]

@[simp] theorem resumeRun_besides (s : State) (c : Ch) :
    (s.resumeRun c).besides c = s.besides c := by simp [State.resumeRun]

@[simp] theorem toStandby_besides (s : State) (c : Ch) :
    (s.toStandby c).besides c = s.besides c := by simp [State.toStandby]

@[simp] theorem wake_besides (s : State) (c : Ch) :
    (s.wake c).besides c = s.besides c := by
  unfold State.wake
  (try dsimp only)
  repeat' split
  all_goals first | rfl | simp

@[simp] theorem release_besides (s : State) (c : Ch) :
    (s.release c).besides c = s.besides c := by simp [State.release]

@[simp] theorem startBoot_besides (s : State) (c : Ch) (powerOn : Bool) :
    (s.startBoot c powerOn).besides c = s.besides c := by simp [State.startBoot]

@[simp] theorem powerOff_besides (s : State) (c : Ch) :
    (s.powerOff c).besides c = s.besides c := by simp [State.powerOff]

@[simp] theorem command_besides (s : State) (c : Ch) (cmd : Nat) :
    (s.command c cmd).besides c = s.besides c := by
  unfold State.command
  repeat' split
  all_goals first | rfl | simp

@[simp] theorem putNonce_besides (s : State) (v : Via) (scope : Option Ch) (o : Nat) (bs : List Byte) (d : Ch) :
    (s.putNonce v scope o bs).besides d = s.besides d := by simp [State.putNonce]

@[simp] theorem setRun_besides (s : State) (c : Ch) (f g : Chan → Chan) :
    (s.setRun c f g).besides c = s.besides c := by simp [State.setRun]

@[simp] theorem setDepot_besides (s : State) (c : Ch) (n : Nat) :
    (s.setDepot c n).besides c = s.besides c := by simp [State.setDepot]

@[simp] theorem setFar_besides (s : State) (c : Ch) (on : Bool) :
    (s.setFar c on).besides c = s.besides c := by simp [State.setFar]

@[simp] theorem setLayers_besides (s : State) (c : Ch) (o : Nat) (v : List Byte) :
    (s.setLayers c o v).besides c = s.besides c := by simp [State.setLayers]

@[simp] theorem openTxn_besides (s : State) (v : Via) (d : Ch) :
    (s.openTxn v).besides d = s.besides d := by simp [State.openTxn]

@[simp] theorem stageWrite_besides (s : State) (v : Via) (r : Request) (d : Ch) :
    (s.stageWrite v r).besides d = s.besides d := by
  unfold State.stageWrite
  repeat' split
  all_goals rfl

@[simp] theorem discardDatagram_besides (s : State) (d : Ch) :
    s.discardDatagram.besides d = s.besides d := by simp [State.discardDatagram]

@[simp] theorem putTail_besides (s : State) (c : Ch) (value : Nat) :
    (s.putTail c value).besides c = s.besides c := by simp [State.putTail]

@[simp] theorem notify_besides (s : State) (c : Ch) (r : EvtRing) :
    (s.notify c r).1.besides c = s.besides c := by simp [State.notify]

@[simp] theorem putConsumed_besides (s : State) (c : Ch) (value : Nat) :
    (s.putConsumed c value).besides c = s.besides c := by simp [State.putConsumed]

@[simp] theorem pageStore_besides (s : State) (c : Ch) (o : Nat) (b : Byte) :
    (s.pageStore c o b).besides c = s.besides c := by simp [State.pageStore]

@[simp] theorem hostData_besides (s : State) (c : Ch) (o : HostOp) (data : List Byte) (poisoned : Bool) :
    (s.hostData c o data poisoned).besides c = s.besides c := by simp [State.hostData]

@[simp] theorem loseHost_besides (s : State) (c : Ch) (hold : Nat) (param : List Byte) :
    (s.loseHost c hold param).besides c = s.besides c := by simp [State.loseHost]

@[simp] theorem bootCause_besides (s : State) (c : Ch) (fault : Nat) :
    (s.bootCause c fault).besides c = s.besides c := by simp [State.bootCause]

@[simp] theorem contain_besides (s : State) (c : Ch) (cause fault : Nat) :
    (s.contain c cause fault).besides c = s.besides c := by
  unfold State.contain
  repeat' split
  all_goals first | rfl | simp

@[simp] theorem causeOf_besides (s : State) (c : Ch) (source code : Nat) (ps : List Param) (cause fault : Nat) :
    (s.causeOf c source code ps cause fault).besides c = s.besides c := by simp [State.causeOf]

@[simp] theorem farDrop_besides (s : State) (c : Ch) :
    (s.farDrop c).besides c = s.besides c := by simp [State.farDrop]

@[simp] theorem logPowerLoss_besides (s : State) (cause volts : Nat) (d : Ch) :
    (s.logPowerLoss cause volts).besides d = s.besides d := by simp [State.logPowerLoss]

@[simp] theorem verifyFirmware_besides (s : State) (d : Ch) :
    s.verifyFirmware.besides d = s.besides d := by simp [State.verifyFirmware]

@[simp] theorem bootRegion_besides (s : State) (c : Ch) (r : Nat) (t : RegionBoot) :
    (s.bootRegion c r t).besides c = s.besides c := by simp [State.bootRegion]

@[simp] theorem vecStore_besides (s : State) (c : Ch) (k : Nat) (car : Car) (r : VecRec) (ws : List W32) :
    (s.vecStore c k car r ws).1.besides c = s.besides c := by
  unfold State.vecStore
  (try dsimp only)
  repeat' split
  all_goals first | rfl | simp

@[simp] theorem putWords_besides (s : State) (c : Ch) (k : Nat) (reg : Bool) (fieldV : Nat) (ws : List W32) :
    (s.putWords c k reg fieldV ws).besides c = s.besides c := by simp [State.putWords]

@[simp] theorem vecCar_besides (s : State) (w : At) (opc func : Nat) (tell : Bool) (body : Chan → Car → VecRec → State → State × List W32 × Counts) (h_body : ∀ x0 x1 x2 t, (body x0 x1 x2 t).1.besides w.ch = t.besides w.ch) :
    (s.vecCar w opc func tell body).besides w.ch = s.besides w.ch := by
  unfold State.vecCar
  first
  | refine issueFrom_besides _ _ _ _ _ (fun e t u h => ?_)
  | refine readPoint_besides _ _ _ _ (fun e t u h => ?_)
  revert h
  (try dsimp only)
  repeat' split
  all_goals intro h
  all_goals first
    | (cases h; done)
    | (obtain rfl := Option.some.inj h; simp [h_body]; done)

@[simp] theorem elementwise_besides (s : State) (w : At) (opc func : Nat) (op : VecRec → W32 → W32 → W32 → W32) :
    (s.elementwise w opc func op).besides w.ch = s.besides w.ch := by simp [State.elementwise]

@[simp] theorem addOor_besides (s : State) (c : Ch) (k n : Nat) :
    (s.addOor c k n).besides c = s.besides c := by simp [State.addOor]

@[simp] theorem scanCar_besides (s : State) (w : At) (func : Nat) :
    (s.scanCar w func).besides w.ch = s.besides w.ch := by simp [State.scanCar]

@[simp] theorem fillCar_besides (s : State) (w : At) (func : Nat) (tell : Bool) (op : VecRec → Ticket → W32 → W32) :
    (s.fillCar w func tell op).besides w.ch = s.besides w.ch := by simp [State.fillCar]

@[simp] theorem optCar_besides (s : State) (w : At) (kind : Nat) : (s.optCar w kind).besides w.ch = s.besides w.ch := by
  unfold State.optCar
  refine vecCar_besides _ _ _ _ _ _ (fun x car r t => ?_)
  dsimp only
  split
  · split
    · split <;> simp
    · split <;> simp
  · split <;> simp

@[simp] theorem reduceCar_besides (s : State) (w : At) (func : Nat) (step comb : W32 → W32 → W32) (start : Option W32) (pre : W32 → W32) :
    (s.reduceCar w func step comb start pre).besides w.ch = s.besides w.ch := by simp [State.reduceCar]

end Sys2Proof.Machine
end

