-- ==== Sys2Proof/Laws/Clock.lean ====
section
/-! SUPPORT. What the shared operations leave of the clock: none of them takes a command from the queue, counts, or releases the count. -/


namespace Sys2Proof.Machine

@[simp] theorem foldl_clock {α : Type} (f : State → α → State) (h : ∀ t x, (f t x).clock = t.clock) (l : List α) (s : State) :
    (l.foldl f s).clock = s.clock := by
  induction l generalizing s with
  | nil => rfl
  | cons x l ih => rw [List.foldl_cons, ih, h]

@[simp] theorem eachCh_clock (s : State) (f : Ch → State → State) (h : ∀ c t, (f c t).clock = t.clock) :
    (s.eachCh f).clock = s.clock := foldl_clock _ (fun t c => h c t) _ _

@[simp] theorem mk_clock (p n b k m x o) : (State.mk p n b k m x o).clock = (p, n, b) := id rfl

@[simp] theorem fold_clock (s : State) : (s.pending, s.count, s.counting) = s.clock := id rfl

@[simp] theorem ite_clock (p : Prop) [Decidable p] (a b : State) : (if p then a else b).clock = if p then a.clock else b.clock :=
  apply_ite State.clock p a b

@[simp] theorem store_clock (s : State) (c : Ch) (a : Nat) (bs : List Byte) :
    (s.store c a bs).clock = s.clock := by simp [State.store]

@[simp] theorem toFlash_clock (s : State) (e : LogEntry) :
    (s.toFlash e).clock = s.clock := by simp [State.toFlash]

@[simp] theorem logAs_clock (s : State) (c : Ch) (order source code : Nat) (param : List Byte) :
    (s.logAs c order source code param).clock = s.clock := by simp [State.logAs]

@[simp] theorem log_clock (s : State) (c : Ch) (source code : Nat) (ps : List Param) :
    (s.log c source code ps).clock = s.clock := by simp [State.log]

@[simp] theorem logM_clock (s : State) (source code : Nat) (ps : List Param) :
    (s.logM source code ps).clock = s.clock := by simp [State.logM]

@[simp] theorem setChState_clock (s : State) (c : Ch) (st : ChState) :
    (s.setChState c st).clock = s.clock := by simp [State.setChState]

@[simp] theorem addDown_clock (s : State) (c : Ch) (since : Nat) :
    (s.addDown c since).clock = s.clock := by simp [State.addDown]

@[simp] theorem sendHostOp_clock (s : State) (c : Ch) (o : HostOp) :
    (s.sendHostOp c o).clock = s.clock := by simp [State.sendHostOp]

@[simp] theorem hostPump_clock (s : State) (c : Ch) :
    (s.hostPump c).clock = s.clock := by simp [State.hostPump]

@[simp] theorem hostOp_clock (s : State) (c : Ch) (o : HostOp) :
    (s.hostOp c o).clock = s.clock := by simp [State.hostOp]

@[simp] theorem writeBack_clock (s : State) (c : Ch) (ls : List DepotLine) :
    (s.writeBack c ls).clock = s.clock := by simp [State.writeBack]

@[simp] theorem depotPut_clock (s : State) (c : Ch) (host : Bool) (a : Nat) (x : Sector) :
    (s.depotPut c host a x).clock = s.clock := by
  unfold State.depotPut
  (try dsimp only)
  repeat' split
  all_goals first | rfl | simp

@[simp] theorem depotWriteBack_clock (s : State) (c : Ch) :
    (s.depotWriteBack c).clock = s.clock := by simp [State.depotWriteBack]

@[simp] theorem depotEmpty_clock (s : State) (c : Ch) :
    (s.depotEmpty c).clock = s.clock := by simp [State.depotEmpty]

@[simp] theorem enterHold_clock (s : State) (c : Ch) (code order : Nat) (param : List Byte) :
    (s.enterHold c code order param).clock = s.clock := by simp [State.enterHold]

@[simp] theorem holdNow_clock (s : State) (c : Ch) (code order : Nat) (param : List Byte) :
    (s.holdNow c code order param).clock = s.clock := by simp [State.holdNow]

@[simp] theorem stopFor_clock (s : State) (c : Ch) (code order : Nat) (param : List Byte) :
    (s.stopFor c code order param).clock = s.clock := by
  unfold State.stopFor
  repeat' split
  all_goals first | rfl | simp

@[simp] theorem containment_clock (s : State) (c : Ch) (cause : Nat) :
    (s.containment c cause).clock = s.clock := by simp [State.containment]

@[simp] theorem consumePoison_clock (s : State) (c : Ch) (addr source : Nat) :
    (s.consumePoison c addr source).clock = s.clock := by simp [State.consumePoison]

@[simp] theorem spoil_clock (s : State) (c : Ch) (f : MemFault) (source : Nat) :
    (s.spoil c f source).clock = s.clock := by
  unfold State.spoil
  (try dsimp only)
  repeat' split
  all_goals first | rfl | simp

@[simp] theorem damage_clock (s : State) (c : Ch) (f : MemFault) (source : Nat) :
    (s.damage c f source).clock = s.clock := by
  unfold State.damage
  repeat' split
  all_goals first | rfl | simp

@[simp] theorem meetAll_clock (s : State) (c : Ch) (faults : List MemFault) :
    (s.meetAll c faults).clock = s.clock := by simp [State.meetAll]

@[simp] theorem meet_clock (s : State) (w : At) :
    (s.meet w).clock = s.clock := by simp [State.meet]

@[simp] theorem addSignal_clock (s : State) (c : Ch) (k sig amount : Nat) :
    (s.addSignal c k sig amount).clock = s.clock := by simp [State.addSignal]

@[simp] theorem touch_clock (s : State) (c : Ch) :
    (s.touch c).clock = s.clock := by simp [State.touch]

@[simp] theorem progress_clock (s : State) (c : Ch) :
    (s.progress c).clock = s.clock := by simp [State.progress]

@[simp] theorem carInvalid_clock (s : State) (c : Ch) (k : Nat) (car : Car) (pos row : Nat) :
    (s.carInvalid c k car pos row).clock = s.clock := by simp [State.carInvalid]

@[simp] theorem pendPost_clock (s : State) (c : Ch) (k : Nat) (car : Car) (id : Nat) :
    (s.pendPost c k car id).clock = s.clock := by simp [State.pendPost]

@[simp] theorem newId_clock (s : State) (c : Ch) :
    (s.newId c).2.clock = s.clock := by simp [State.newId]

@[simp] theorem issued_clock (s : State) (c : Ch) :
    (s.issued c).clock = s.clock := by simp [State.issued]

@[simp] theorem withRead_clock (s : State) (c : Ch) (k : Nat) :
    (s.withRead c k).1.clock = s.clock := by simp [State.withRead]

theorem readStop_clock (s : State) (c : Ch) (k : Nat) :
    ∀ u, (s.readStop c k) = some u → u.clock = s.clock := by
  intro u h
  unfold State.readStop at h
  (try dsimp only at h)
  repeat' split at h
  all_goals first
    | (cases h; done)
    | (obtain rfl := Option.some.inj h; simp ; done)

@[simp] theorem popCar_clock (s : State) (c : Ch) (k q : Nat) :
    (s.popCar c k q).clock = s.clock := by simp [State.popCar]

@[simp] theorem settle_clock (s : State) (c : Ch) :
    (s.settle c).clock = s.clock := by
  unfold State.settle
  (try dsimp only)
  repeat' split
  all_goals first | rfl | simp

theorem issueFrom_clock (s : State) (c : Ch) (k q : Nat) (body : QCar → State → Option State)
    (h : ∀ e t u, body e t = some u → u.clock = t.clock) : (s.issueFrom c k q body).clock = s.clock := by
  unfold State.issueFrom
  split
  · rename_i t ht; simp [readStop_clock _ _ _ _ ht]
  · dsimp only
    split
    · rename_i e he
      cases hb : body e (s.withRead c k).1 with
      | none => rfl
      | some u => simp [h _ _ _ hb]
    · rfl

theorem readPoint_clock (s : State) (c : Ch) (k : Nat) (body : Car → State → Option State)
    (h : ∀ e t u, body e t = some u → u.clock = t.clock) : (s.readPoint c k body).clock = s.clock := by
  unfold State.readPoint
  split
  · rename_i t ht; simp [readStop_clock _ _ _ _ ht]
  · dsimp only
    split
    · rename_i car hc
      split
      · cases hb : body car (s.withRead c k).1 with
        | none => rfl
        | some u => simp [h _ _ _ hb]
      · rfl
    · rfl

@[simp] theorem pass_clock (s : State) (c : Ch) (k : Nat) :
    (s.pass c k).clock = s.clock := by simp [State.pass]

theorem commonWait_clock (s : State) (c : Ch) (k : Nat) (car : Car) :
    ∀ u, (s.commonWait c k car) = some u → u.clock = s.clock := by
  intro u h
  unfold State.commonWait at h
  (try dsimp only at h)
  repeat' split at h
  all_goals first
    | (cases h; done)
    | (obtain rfl := Option.some.inj h; simp ; done)

@[simp] theorem sendDatagram_clock (s : State) (i3c : Bool) (d : List Byte) :
    (s.sendDatagram i3c d).clock = s.clock := by simp [State.sendDatagram]

@[simp] theorem replySession_clock (s : State) (x : Session) (d : List Byte) (status : Nat) (value : List Byte) :
    (s.replySession x d status value).clock = s.clock := by simp [State.replySession]

@[simp] theorem reply_clock (s : State) (q : Reply) (status : Nat) (value : List Byte) :
    (s.reply q status value).clock = s.clock := by
  unfold State.reply
  (try dsimp only)
  repeat' split
  all_goals rfl

@[simp] theorem answerWake_clock (s : State) (c : Ch) (status : Nat) :
    (s.answerWake c status).clock = s.clock := by simp [State.answerWake]

@[simp] theorem logNum_clock (s : State) (c : Ch) (source code layer occ gauges pass causes engine param : Nat) :
    (s.logNum c source code layer occ gauges pass causes engine param).clock = s.clock := by simp [State.logNum]

@[simp] theorem meetFaults_clock (s : State) (c : Ch) (source : Nat) (ranges : List (Nat × Nat)) (faults : List MemFault) :
    (s.meetFaults c source ranges faults).clock = s.clock := by simp [State.meetFaults]

@[simp] theorem tileExit_clock (s : State) (c : Ch) (k : Nat) (e : QCar) (r : TileRec) (ch : Chain) (n : Nat) :
    (s.tileExit c k e r ch n).clock = s.clock := by simp [State.tileExit]

@[simp] theorem setChain_clock (s : State) (c : Ch) (k eng : Nat) (ch : Option Chain) :
    (s.setChain c k eng ch).clock = s.clock := by simp [State.setChain]

@[simp] theorem queueCheck_clock (s : State) (c : Ch) (k : Nat) (e : QCar) (r : TileRec) (ch : Chain) (ids : List Nat) :
    (s.queueCheck c k e r ch ids).clock = s.clock := by
  unfold State.queueCheck
  (try dsimp only)
  repeat' split
  all_goals rfl

@[simp] theorem addCycles_clock (s : State) (c : Ch) (k unit n : Nat) :
    (s.addCycles c k unit n).clock = s.clock := by simp [State.addCycles]

@[simp] theorem runMatmul_clock (s : State) (c : Ch) (k : Nat) (e : QCar) (r : TileRec) (blocks : List Nat) :
    (s.runMatmul c k e r blocks).clock = s.clock := by simp [State.runMatmul]

@[simp] theorem tileCar_clock (s : State) (c : Ch) (k eng op : Nat) (faults : List MemFault) (body : QCar → TileRec → List Nat → State → State) (h_body : ∀ x0 x1 x2 t, (body x0 x1 x2 t).clock = t.clock) :
    (s.tileCar c k eng op faults body).clock = s.clock := by
  unfold State.tileCar
  first
  | refine issueFrom_clock _ _ _ _ _ (fun e t u h => ?_)
  | refine readPoint_clock _ _ _ _ (fun e t u h => ?_)
  revert h
  (try dsimp only)
  repeat' split
  all_goals intro h
  all_goals first
    | (cases h; done)
    | (obtain rfl := Option.some.inj h; simp [h_body]; done)

@[simp] theorem runReduce_clock (s : State) (c : Ch) (k : Nat) (e : QCar) (r : TileRec) (blocks : List Nat) :
    (s.runReduce c k e r blocks).clock = s.clock := by simp [State.runReduce]

@[simp] theorem stopTile_clock (s : State) (c : Ch) (k eng : Nat) :
    (s.stopTile c k eng).clock = s.clock := by
  unfold State.stopTile
  (try dsimp only)
  split
  · rfl
  · split
    · rfl
    · split
      · refine (foldl_clock _ (fun t x => ?_) _ _).trans ?_
        · split <;> simp
        · simp
      · simp

@[simp] theorem stopTiles_clock (s : State) (c : Ch) (r : Nat) :
    (s.stopTiles c r).clock = s.clock := by simp [State.stopTiles]

@[simp] theorem reefDecide_clock (s : State) (c : Ch) :
    (s.reefDecide c).clock = s.clock := by simp [State.reefDecide]

@[simp] theorem reefAll_clock (s : State) :
    s.reefAll.clock = s.clock := by simp [State.reefAll]

@[simp] theorem equalShares_clock (s : State) :
    s.equalShares.clock = s.clock := by simp [State.equalShares]

@[simp] theorem computeShares_clock (s : State) :
    s.computeShares.clock = s.clock := by simp [State.computeShares]

@[simp] theorem ease_clock (s : State) (scope : EaseScope) (f : Nat → Nat) :
    (s.ease scope f).clock = s.clock := by
  unfold State.ease
  repeat' split
  all_goals rfl

@[simp] theorem dropImageFor_clock (s : State) (c : Ch) (r : Nat) :
    (s.dropImageFor c r).clock = s.clock := by
  unfold State.dropImageFor
  repeat' split
  all_goals first | rfl | simp

@[simp] theorem loseRegion_clock (s : State) (c : Ch) (r : Rg) (cause : Nat) :
    (s.loseRegion c r cause).clock = s.clock := by
  unfold State.loseRegion
  (try dsimp only)
  have h : ∀ t : State, (if (t.ch c).ctl.st = .running then t.stopTiles c r.val else t).clock = t.clock := fun t => by
    split <;> simp
  repeat' split
  all_goals simp

@[simp] theorem cancelUp_clock (s : State) (c : Ch) (g : Change) (cause region : Nat) :
    (s.cancelUp c g cause region).clock = s.clock := by simp [State.cancelUp]

@[simp] theorem switchStep_clock (s : State) (c : Ch) (g : Change) :
    (s.switchStep c g).clock = s.clock := by simp [State.switchStep]

@[simp] theorem switchOn_clock (s : State) (c : Ch) (r : Nat) :
    (s.switchOn c r).clock = s.clock := by simp [State.switchOn]

@[simp] theorem switchOff_clock (s : State) (c : Ch) (r : Nat) :
    (s.switchOff c r).clock = s.clock := by simp [State.switchOff]

@[simp] theorem switchTo_clock (s : State) (c : Ch) (mask : Nat) :
    (s.switchTo c mask).clock = s.clock := by simp [State.switchTo]

@[simp] theorem wakeDone_clock (s : State) (c : Ch) :
    (s.wakeDone c).clock = s.clock := by simp [State.wakeDone]

@[simp] theorem logAlign_clock (s : State) (st hops rank : Nat) :
    (s.logAlign st hops rank).clock = s.clock := by simp [State.logAlign]

@[simp] theorem logAlignAlone_clock (s : State) (st hops : Nat) :
    (s.logAlignAlone st hops).clock = s.clock := by simp [State.logAlignAlone]

@[simp] theorem alignOwn_clock (s : State) :
    s.alignOwn.clock = s.clock := by simp [State.alignOwn]

@[simp] theorem rankWritten_clock (s : State) (was : Bool) :
    (s.rankWritten was).clock = s.clock := by simp [State.rankWritten]

@[simp] theorem timeAlign_clock (s : State) (i : Nat) :
    (s.timeAlign i).clock = s.clock := by
  unfold State.timeAlign
  (try dsimp only)
  repeat' split
  all_goals first | rfl | simp

@[simp] theorem outsiderHit_clock (s : State) (c : Ch) (gs : List Nat) (source writer : Nat) :
    (s.outsiderHit c gs source writer).clock = s.clock := by
  unfold State.outsiderHit
  (try dsimp only)
  repeat' split
  all_goals first | rfl | simp

@[simp] theorem depotGranule_clock (s : State) (c : Ch) (write : Bool) (g : Nat) :
    (s.depotGranule c write g).clock = s.clock := by simp [State.depotGranule]

@[simp] theorem depotPass_clock (s : State) (c : Ch) (a n : Nat) (write : Bool) :
    (s.depotPass c a n write).clock = s.clock := by simp [State.depotPass]

@[simp] theorem depotStore_clock (s : State) (c : Ch) (a : Nat) (bs : List Byte) :
    (s.depotStore c a bs).clock = s.clock := by simp [State.depotStore]

@[simp] theorem fillHost_clock (s : State) (c : Ch) (a : Nat) (bs : List Byte) (poisoned : Bool) :
    (s.fillHost c a bs poisoned).1.clock = s.clock := by
  unfold State.fillHost
  repeat' split
  all_goals first | rfl | simp

@[simp] theorem writeHost_clock (s : State) (c : Ch) (a : Nat) (bs : List Byte) (poisoned : Bool) (under : List Byte × Bool) :
    (s.writeHost c a bs poisoned under).clock = s.clock := by simp [State.writeHost]

@[simp] theorem outsiderWrite_clock (s : State) (c : Ch) (a : Nat) (bs : List Byte) (poisoned : List Nat) (source writer : Nat) :
    (s.outsiderWrite c a bs poisoned source writer).clock = s.clock := by simp [State.outsiderWrite]

@[simp] theorem postHost_clock (s : State) (c : Ch) (a : Nat) (bs : List Byte) :
    (s.postHost c a bs).clock = s.clock := by simp [State.postHost]

@[simp] theorem dbComplete_clock (s : State) (c : Ch) (e : Nat × Nat) (status result : Nat) :
    (s.dbComplete c e status result).clock = s.clock := by simp [State.dbComplete]

@[simp] theorem loadReported_clock (s : State) (c : Ch) (result : Nat) :
    (s.loadReported c result).clock = s.clock := by
  unfold State.loadReported
  repeat' split
  all_goals first | rfl | simp

@[simp] theorem pump_clock (s : State) (c : Ch) (p : Pt) :
    (s.pump c p).clock = s.clock := by simp [State.pump]

@[simp] theorem sendTrain_clock (s : State) (c : Ch) (p : Pt) (vl op : Nat) (head : List Byte) (a : Nat) (data : List Byte) (poisoned : List Nat) :
    (s.sendTrain c p vl op head a data poisoned).clock = s.clock := by simp [State.sendTrain]

@[simp] theorem sendControl_clock (s : State) (c : Ch) (p : Pt) (kind train index : Nat) (waybill : W32) (payload : List Byte) :
    (s.sendControl c p kind train index waybill payload).clock = s.clock := by simp [State.sendControl]

@[simp] theorem solicit_clock (s : State) (c : Ch) (p : Pt) (target : List Byte) :
    (s.solicit c p target).clock = s.clock := by simp [State.solicit]

@[simp] theorem sendMailOn_clock (s : State) (c : Ch) (p : Pt) (vl op rank : Nat) (headAt : Nat → List Byte) (a : Nat) (data : List Byte) (poisoned : List Nat) :
    (s.sendMailOn c p vl op rank headAt a data poisoned).clock = s.clock := by simp [State.sendMailOn]

@[simp] theorem sendOp_clock (s : State) (c : Ch) (o : PartnerOp) :
    (s.sendOp c o).clock = s.clock := by
  unfold State.sendOp
  (try dsimp only)
  repeat' split
  all_goals first | rfl | simp

@[simp] theorem newOp_clock (s : State) (c : Ch) (p : Pt) (o : PartnerOp) :
    (s.newOp c p o).clock = s.clock := by
  unfold State.newOp
  (try dsimp only)
  repeat' split
  all_goals first | rfl | simp

@[simp] theorem fetchPiece_clock (s : State) (c : Ch) (k id : Nat) (put : Staged → State → State) (p : Nat × Nat) (h_put : ∀ x0 t, (put x0 t).clock = t.clock) :
    (s.fetchPiece c k id put p).clock = s.clock := by
  unfold State.fetchPiece
  (try dsimp only)
  repeat' split
  all_goals first | rfl | simp [h_put]

@[simp] theorem stage_clock (s : State) (c : Ch) (k id : Nat) (g : Staged) :
    (s.stage c k id g).clock = s.clock := by simp [State.stage]

@[simp] theorem noteFarWrite_clock (s : State) (c : Ch) (id a n : Nat) :
    (s.noteFarWrite c id a n).clock = s.clock := by simp [State.noteFarWrite]

@[simp] theorem noteFarRead_clock (s : State) (c : Ch) (id : Nat) (u : MoveUnit) :
    (s.noteFarRead c id u).clock = s.clock := by simp [State.noteFarRead]

@[simp] theorem writeOwned_clock (s : State) (c : Ch) (id h : Nat) (bs : List Byte) (bad : Bool) :
    (s.writeOwned c id h bs bad).clock = s.clock := by
  unfold State.writeOwned
  (try dsimp only)
  repeat' split
  all_goals first | rfl | simp

@[simp] theorem writeDst_clock (s : State) (c : Ch) (id a : Nat) (bs : List Byte) (bad : List Nat) :
    (s.writeDst c id a bs bad).clock = s.clock := by
  unfold State.writeDst
  (try dsimp only)
  repeat' split
  all_goals first | rfl | simp

@[simp] theorem mapFault_clock (s : State) (c : Ch) (k : Nat) (m : Move) (f : MapFault) :
    (s.mapFault c k m f).clock = s.clock := by simp [State.mapFault]

@[simp] theorem retire_clock (s : State) (c : Ch) (k : Nat) (m : Move) :
    (s.retire c k m).clock = s.clock := by simp [State.retire]

@[simp] theorem carryOut_clock (s : State) (c : Ch) (m : Move) (us : List (MoveUnit × List Byte)) :
    (s.carryOut c m us).clock = s.clock := by simp [State.carryOut]

@[simp] theorem finishMove_clock (s : State) (c : Ch) (k : Nat) (m : Move) :
    (s.finishMove c k m).clock = s.clock := by
  unfold State.finishMove
  (try dsimp only)
  repeat' split
  all_goals first | rfl | simp

@[simp] theorem fetchAhead_clock (s : State) (c : Ch) (k id a : Nat) :
    (s.fetchAhead c k id a).clock = s.clock := by
  unfold State.fetchAhead
  (try dsimp only)
  repeat' split
  all_goals first | rfl | simp

@[simp] theorem fetchAll_clock (s : State) (c : Ch) (k : Nat) (m : Move) :
    (s.fetchAll c k m).clock = s.clock := by
  unfold State.fetchAll
  all_goals first | rfl | simp

@[simp] theorem advanceMove_clock (s : State) (c : Ch) (k id n : Nat) :
    (s.advanceMove c k id n).clock = s.clock := by
  induction n generalizing s with
  | zero => rfl
  | succ n ih =>
    unfold State.advanceMove
    (try dsimp only)
    split
    · rfl
    · split
      · simp
      · split
        · split <;> simp
        · split
          · simp
          · split
            · simp
            · rw [ih]; simp

@[simp] theorem advanceAll_clock (s : State) (c : Ch) (k : Nat) :
    (s.advanceAll c k).clock = s.clock := by
  unfold State.advanceAll
  exact foldl_clock _ (fun t m => by simp) _ _

@[simp] theorem demand_clock (s : State) (c : Ch) (k id : Nat) (faults : List MemFault) :
    (s.demand c k id faults).clock = s.clock := by
  unfold State.demand
  (try dsimp only)
  split
  · rfl
  · split
    · simp
    · simp only [advanceMove_clock, clock_onCluster, clock_onMem]
      exact foldl_clock _ (fun t f => by split <;> simp) _ _

@[simp] theorem moveCar_clock (s : State) (c : Ch) (k : Nat) (want : QCar → Nat → Bool) (body : Nat → Nat → QCar → State → Option State) (h_body : ∀ x0 x1 x2 t u, body x0 x1 x2 t = some u → u.clock = t.clock) :
    (s.moveCar c k want body).clock = s.clock := by
  unfold State.moveCar
  first
  | refine issueFrom_clock _ _ _ _ _ (fun e t u h => ?_)
  | refine readPoint_clock _ _ _ _ (fun e t u h => ?_)
  revert h
  (try dsimp only)
  repeat' split
  all_goals intro h
  all_goals first
    | (cases h; done)
    | (obtain rfl := Option.some.inj h; simp; done)
    | (simp_all; done)
    | (have := h_body _ _ _ _ _ h; simp_all; done)

@[simp] theorem runMove_clock (s : State) (c : Ch) (k mode : Nat) (ahead : List Nat) (faults : List MemFault) :
    (s.runMove c k mode ahead faults).clock = s.clock := by simp [State.runMove]

@[simp] theorem arrive_clock (s : State) (c : Ch) (id a : Nat) (bs : List Byte) (bad : List Nat) :
    (s.arrive c id a bs bad).clock = s.clock := by
  unfold State.arrive
  (try dsimp only)
  repeat' split
  all_goals first | rfl | simp

@[simp] theorem restartCar_clock (s : State) (c : Ch) (k eng : Nat) (f : Refetch) (r : TileRec) :
    (s.restartCar c k eng f r).clock = s.clock := by
  unfold State.restartCar
  (try dsimp only)
  repeat' split
  all_goals simp

@[simp] theorem worldCar_clock (s : State) (c : Ch) (k op : Nat) (body : QCar → Image → Nat → Nat → State → State) (h_body : ∀ x0 x1 x2 x3 t, (body x0 x1 x2 x3 t).clock = t.clock) :
    (s.worldCar c k op body).clock = s.clock := by
  unfold State.worldCar
  first
  | refine issueFrom_clock _ _ _ _ _ (fun e t u h => ?_)
  | refine readPoint_clock _ _ _ _ (fun e t u h => ?_)
  revert h
  (try dsimp only)
  repeat' split
  all_goals intro h
  all_goals first
    | (cases h; done)
    | (obtain rfl := Option.some.inj h; simp [h_body]; done)

@[simp] theorem worldDone_clock (s : State) (c : Ch) (k : Nat) (e : QCar) :
    (s.worldDone c k e).clock = s.clock := by simp [State.worldDone]

@[simp] theorem endSlots_clock (c : Ch) (k : Nat) (i : Image) (v ring : Nat) (l : List Nat) (s : State) :
    (s.endSlots c k i v ring l).clock = s.clock := by
  induction l generalizing s with
  | nil => rfl
  | cons n ns ih =>
    unfold State.endSlots
    dsimp only
    split
    · simp
    · rw [ih]; simp

@[simp] theorem resetSlot_clock (s : State) (c : Ch) (i : Image) (n : Nat) :
    (s.resetSlot c i n).clock = s.clock := by simp [State.resetSlot]

@[simp] theorem resetSlots_clock (c : Ch) (i : Image) (v : Nat) (l : List Nat) (s : State) :
    (s.resetSlots c i v l).1.clock = s.clock := by
  induction l generalizing s with
  | nil => rfl
  | cons n ns ih =>
    unfold State.resetSlots
    dsimp only
    split
    · rfl
    · split
      · split
        · rfl
        · rw [ih]; simp
      · rw [ih]

@[simp] theorem sendFragTrain_clock (s : State) (c : Ch) (p : Pt) (m : MsgOut) (f n : Nat) (data : List Byte) (poisoned : List Nat) :
    (s.sendFragTrain c p m f n data poisoned).clock = s.clock := by
  unfold State.sendFragTrain
  (try dsimp only)
  all_goals first | rfl | simp

@[simp] theorem sendFrags_clock (s : State) (c : Ch) (p : Pt) (m : MsgOut) (f n : Nat) :
    (s.sendFrags c p m f n).clock = s.clock := by
  unfold State.sendFrags
  (try dsimp only)
  repeat' split
  all_goals first | rfl | simp

@[simp] theorem mailPump_clock (s : State) (c : Ch) (id : Nat) :
    (s.mailPump c id).clock = s.clock := by
  unfold State.mailPump
  (try dsimp only)
  repeat' split
  all_goals first | rfl | simp

theorem ringDoorbell_clock (s : State) (c : Ch) (k : Nat) (m : Move) (body : Nat → List Byte → State → Ring)
    (h_body : ∀ x0 x1 t u, body x0 x1 t = .done u → u.clock = t.clock) :
    ∀ u, (s.ringDoorbell c k m body) = some u → u.clock = s.clock := by
  intro u h
  unfold State.ringDoorbell at h
  (try dsimp only at h)
  split at h
  · obtain rfl := Option.some.inj h; simp
  · split at h
    · split at h
      · cases h
      · obtain rfl := Option.some.inj h; simp
    · split at h
      · obtain rfl := Option.some.inj h; simp
      · split at h
        · cases h
        · obtain rfl := Option.some.inj h; simp
        · obtain rfl := Option.some.inj h; simp
        · rename_i t ht
          obtain rfl := Option.some.inj h
          simp [h_body _ _ _ _ ht]

theorem doorbellCar_clock (s : State) (c : Ch) (k kind : Nat) (body : Nat → List Byte → State → Ring)
    (h_body : ∀ x0 x1 t u, body x0 x1 t = .done u → u.clock = t.clock) :
    (s.doorbellCar c k kind body).clock = s.clock := by
  unfold State.doorbellCar
  (try dsimp only)
  split
  · rename_i m _
    cases hr : s.ringDoorbell c k m body with
    | none => rfl
    | some t => simp [ringDoorbell_clock _ _ _ _ _ h_body _ hr]
  · refine moveCar_clock _ _ _ _ _ (fun id x1 x2 t u h => ?_)
    split at h
    · exact ringDoorbell_clock _ _ _ _ _ h_body _ h
    · cases h

@[simp] theorem onTrain_clock (s : State) (c : Ch) (p : Pt) (lane a : Nat) (data : List Byte) (body : State → State) (h_body : ∀ t, (body t).clock = t.clock) :
    (s.onTrain c p lane a data body).clock = s.clock := by simp [State.onTrain, h_body]

@[simp] theorem sendHello_clock (s : State) (c : Ch) (p : Pt) :
    (s.sendHello c p).clock = s.clock := by simp [State.sendHello]

@[simp] theorem partnerReset_clock (s : State) (c : Ch) (p : Pt) (rank : Nat) :
    (s.partnerReset c p rank).clock = s.clock := by
  unfold State.partnerReset
  (try dsimp only)
  repeat' split
  all_goals first | rfl | simp

@[simp] theorem gotHello_clock (s : State) (c : Ch) (p : Pt) (g : Hello) :
    (s.gotHello c p g).clock = s.clock := by
  unfold State.gotHello
  (try dsimp only)
  repeat' split
  all_goals first | rfl | simp

@[simp] theorem resume_clock (s : State) (c : Ch) :
    (s.resume c).clock = s.clock := by simp [State.resume]

@[simp] theorem sendCtrl_clock (s : State) (c : Ch) (p : Pt) (next : Nat) (nak : Bool) :
    (s.sendCtrl c p next nak).clock = s.clock := by simp [State.sendCtrl]

@[simp] theorem sendAgain_clock (s : State) (c : Ch) (w : List PartnerOp × List MsgOut) :
    (s.sendAgain c w).clock = s.clock := by simp [State.sendAgain]

@[simp] theorem setLinkEnable_clock (s : State) (c : Ch) (p : Pt) (on : Bool) :
    (s.setLinkEnable c p on).clock = s.clock := by simp [State.setLinkEnable]

@[simp] theorem respond_clock (s : State) (c : Ch) (came : Came) (op rank : Nat) (h : RespHead) (a : Nat) (data : List Byte) (poisoned : List Nat) :
    (s.respond c came op rank h a data poisoned).clock = s.clock := by
  unfold State.respond
  (try dsimp only)
  repeat' split
  all_goals first | rfl | simp

@[simp] theorem inSequence_clock (s : State) (c : Ch) (rank port seq : Nat) (body again : State → State) (h_body : ∀ t, (body t).clock = t.clock) (h_again : ∀ t, (again t).clock = t.clock) :
    (s.inSequence c rank port seq body again).clock = s.clock := by
  unfold State.inSequence
  (try dsimp only)
  repeat' split
  all_goals first | rfl | simp [h_body, h_again]

@[simp] theorem combine_clock (s : State) (c : Ch) (addr key arrival : Nat) :
    (s.combine c addr key arrival).clock = s.clock := by
  unfold State.combine
  (try dsimp only)
  repeat' split
  all_goals rfl

@[simp] theorem serveRead_clock (s : State) (c : Ch) (p : Pt) (came : Came) (h : ReqHead) :
    (s.serveRead c p came h).clock = s.clock := by simp [State.serveRead]

@[simp] theorem ackWrite_clock (s : State) (c : Ch) (came : Came) (h : ReqHead) (status : Nat) :
    (s.ackWrite c came h status).clock = s.clock := by simp [State.ackWrite]

@[simp] theorem applyWrite_clock (s : State) (c : Ch) (p : Pt) (came : Came) (h : ReqHead) (data : List Byte) (poisoned : List Nat) :
    (s.applyWrite c p came h data poisoned).clock = s.clock := by simp [State.applyWrite]

@[simp] theorem answerAtomic_clock (s : State) (c : Ch) (came : Came) (h : AtomHead) (status result : Nat) :
    (s.answerAtomic c came h status result).clock = s.clock := by simp [State.answerAtomic]

@[simp] theorem applyAtomic_clock (s : State) (c : Ch) (p : Pt) (came : Came) (op : Nat) (h : AtomHead) :
    (s.applyAtomic c p came op h).clock = s.clock := by
  unfold State.applyAtomic
  (try dsimp only)
  repeat' split
  all_goals first | rfl | simp

@[simp] theorem applyRound_clock (s : State) (c : Ch) (r : Round) :
    (s.applyRound c r).clock = s.clock := by simp [State.applyRound]

@[simp] theorem holdAtomic_clock (s : State) (c : Ch) (p : Pt) (came : Came) (op : Nat) (h : AtomHead) :
    (s.holdAtomic c p came op h).clock = s.clock := by simp [State.holdAtomic]

@[simp] theorem applyInner_clock (s : State) (c : Ch) (arrival : Nat) (x : Inner) :
    (s.applyInner c arrival x).clock = s.clock := by
  unfold State.applyInner
  (try dsimp only)
  repeat' split
  all_goals first | rfl | simp

@[simp] theorem releaseHeld_clock (s : State) (c : Ch) (n : Nat) :
    (s.releaseHeld c n).clock = s.clock := by
  induction n generalizing s with
  | zero => rfl
  | succ n ih =>
    unfold State.releaseHeld
    split
    · rfl
    · rw [ih]; simp

@[simp] theorem combineInner_clock (s : State) (c : Ch) (arrival : Nat) (x : Inner) :
    (s.combineInner c arrival x).clock = s.clock := by
  cases x <;> simp [State.combineInner]

@[simp] theorem answerAgain_clock (s : State) (c : Ch) (arrival : Nat) (x : Inner) :
    (s.answerAgain c arrival x).clock = s.clock := by
  unfold State.answerAgain
  (try dsimp only)
  repeat' split
  all_goals first | rfl | simp

@[simp] theorem takeOp_clock (s : State) (c : Ch) (p : Pt) (came : Came) (x : Inner) :
    (s.takeOp c p came x).clock = s.clock := by
  unfold State.takeOp
  refine inSequence_clock _ _ _ _ _ _ _ (fun t => ?_) (fun t => by simp)
  (try dsimp only)
  split <;> simp

@[simp] theorem atomicTrain_clock (s : State) (c : Ch) (p : Pt) (op : Nat) (h : AtomHead) :
    (s.atomicTrain c p op h).clock = s.clock := by simp [State.atomicTrain]

@[simp] theorem endOp_clock (s : State) (c : Ch) (o : PartnerOp) :
    (s.endOp c o).clock = s.clock := by simp [State.endOp]

@[simp] theorem partnerRefused_clock (s : State) (c : Ch) (p : Pt) (o : PartnerOp) (status : Nat) :
    (s.partnerRefused c p o status).clock = s.clock := by simp [State.partnerRefused]

theorem signalCar_clock (s : State) (w : At) (func : Nat) (body : Car → State → Option State)
    (h_body : ∀ e t u, body e t = some u → u.clock = t.clock) : (s.signalCar w func body).clock = s.clock := by
  unfold State.signalCar
  refine readPoint_clock _ _ _ _ (fun car t u h => ?_)
  dsimp only at h
  split at h
  · cases h
  · split at h
    · obtain rfl := Option.some.inj h; simp
    · split at h
      · cases h
      · obtain ⟨v, hv, hb⟩ := Option.bind_eq_some_iff.mp h
        rw [h_body _ _ _ hb, commonWait_clock _ _ _ _ _ hv]

@[simp] theorem passPost_clock (s : State) (c : Ch) (k : Nat) (car : Car) :
    (s.passPost c k car).clock = s.clock := by simp [State.passPost]

@[simp] theorem controlCar_clock (s : State) (w : At) (func : Nat) (body : Car → Cluster → State → Option State) (h_body : ∀ x0 x1 t u, body x0 x1 t = some u → u.clock = t.clock) :
    (s.controlCar w func body).clock = s.clock := by
  unfold State.controlCar
  first
  | refine issueFrom_clock _ _ _ _ _ (fun e t u h => ?_)
  | refine readPoint_clock _ _ _ _ (fun e t u h => ?_)
  revert h
  repeat' split
  all_goals intro h
  all_goals first
    | (cases h; done)
    | (obtain rfl := Option.some.inj h; simp [h_body]; done)
    | (simp_all [h_body]; done)
    | (have := h_body _ _ _ _ h; simp_all; done)

theorem reportCommit_clock (s : State) (c : Ch) (k : Nat) :
    ∀ u, (s.reportCommit c k) = some u → u.clock = s.clock := by
  intro u h
  unfold State.reportCommit at h
  (try dsimp only at h)
  repeat' split at h
  all_goals first
    | (cases h; done)
    | (obtain rfl := Option.some.inj h; simp ; done)

@[simp] theorem replay_clock (s : State) (c : Ch) (o : Occ) (rung : Nat) (moved : List (Nat × Nat)) (causeO causeT : Bool) :
    (s.replay c o rung moved causeO causeT).clock = s.clock := by simp [State.replay]

@[simp] theorem commitOcc_clock (s : State) (c : Ch) (o : Occ) :
    (s.commitOcc c o).clock = s.clock := by simp [State.commitOcc]

@[simp] theorem logMismatches_clock (s : State) (c : Ch) (o : Occ) (g : Nat) :
    (s.logMismatches c o g).clock = s.clock := by simp [State.logMismatches]

@[simp] theorem logBoundary_clock (s : State) (c : Ch) (code layer before after param : Nat) :
    (s.logBoundary c code layer before after param).clock = s.clock := by simp [State.logBoundary]

@[simp] theorem startRung_clock (s : State) (c : Ch) (layer rc : Nat) :
    (s.startRung c layer rc).clock = s.clock := by simp [State.startRung]

@[simp] theorem stepExponent_clock (s : State) (c : Ch) (layer rc : Nat) (stats : Tab (Option Int × Bool)) :
    (s.stepExponent c layer rc stats).clock = s.clock := by simp [State.stepExponent]

@[simp] theorem stepEnd_clock (s : State) (c : Ch) (i : Image) :
    (s.stepEnd c i).clock = s.clock := by
  unfold State.stepEnd
  (try dsimp only)
  repeat' split
  all_goals first | rfl | simp

@[simp] theorem average_clock (s : State) (c : Ch) (k : Committed) :
    (s.average c k).clock = s.clock := by simp [State.average]

@[simp] theorem averages_clock (s : State) (c : Ch) :
    (s.averages c).clock = s.clock := by simp [State.averages]

@[simp] theorem legRegions_clock (s : State) (c : Ch) (i : Image) (leg : Nat) :
    (s.legRegions c i leg).clock = s.clock := by simp [State.legRegions]

@[simp] theorem legDone_clock (s : State) (c : Ch) (i : Image) (next : Nat) :
    (s.legDone c i next).clock = s.clock := by simp [State.legDone]

@[simp] theorem iterationDone_clock (s : State) (c : Ch) :
    (s.iterationDone c).clock = s.clock := by simp [State.iterationDone]

@[simp] theorem legExit_clock (s : State) (c : Ch) (i : Image) (last : Bool) (diverged : Option (List Byte)) :
    (s.legExit c i last diverged).clock = s.clock := by
  unfold State.legExit
  repeat' split
  all_goals first | rfl | simp

@[simp] theorem boundary_clock (s : State) (c : Ch) (i : Image) :
    (s.boundary c i).clock = s.clock := by simp [State.boundary]

@[simp] theorem holdStill_clock (s : State) (c : Ch) (code : Nat) :
    (s.holdStill c code).clock = s.clock := by simp [State.holdStill]

@[simp] theorem ackMail_clock (s : State) (c : Ch) (rank status queue msg next : Nat) :
    (s.ackMail c rank status queue msg next).clock = s.clock := by
  unfold State.ackMail
  (try dsimp only)
  repeat' split
  all_goals first | rfl | simp

@[simp] theorem mailWhole_clock (s : State) (c : Ch) (p : Pt) (h : MailHead) :
    (s.mailWhole c p h).clock = s.clock := by simp [State.mailWhole]

@[simp] theorem takeFrags_clock (s : State) (c : Ch) (p : Pt) (h : MailHead) (next : Nat) (data : List Byte) (poisoned : List Nat) :
    (s.takeFrags c p h next data poisoned).clock = s.clock := by simp [State.takeFrags]

@[simp] theorem takeMail_clock (s : State) (c : Ch) (p : Pt) (h : MailHead) (data : List Byte) (poisoned : List Nat) :
    (s.takeMail c p h data poisoned).clock = s.clock := by
  unfold State.takeMail
  (try dsimp only)
  repeat' split
  all_goals first | rfl | simp

@[simp] theorem yardPost_clock (s : State) (c : Ch) (i : Image) (dst tag msg : Nat) (data : List Byte) :
    (s.yardPost c i dst tag msg data).clock = s.clock := by simp [State.yardPost]

@[simp] theorem yardPump_clock (s : State) (c : Ch) :
    (s.yardPump c).clock = s.clock := by
  unfold State.yardPump
  split
  · rfl
  · exact foldl_clock _ (fun t o => by split <;> simp) _ _

@[simp] theorem undeliverable_clock (s : State) (c : Ch) (m : MsgOut) (source : Nat) :
    (s.undeliverable c m source).clock = s.clock := by simp [State.undeliverable]

@[simp] theorem resendMail_clock (s : State) (c : Ch) (m : MsgOut) :
    (s.resendMail c m).clock = s.clock := by simp [State.resendMail]

@[simp] theorem yardSend_clock (s : State) (c : Ch) (dst kind seg owner chunk : Nat) (data : List Byte) :
    (s.yardSend c dst kind seg owner chunk data).clock = s.clock := by simp [State.yardSend]

@[simp] theorem yardDone_clock (s : State) (c : Ch) (q : YardCar) :
    (s.yardDone c q).clock = s.clock := by
  unfold State.yardDone
  (try dsimp only)
  repeat' split
  all_goals rfl

@[simp] theorem tryDeliver_clock (s : State) (c : Ch) (i : Image) :
    (s.tryDeliver c i).clock = s.clock := by simp [State.tryDeliver]

@[simp] theorem tryAwait_clock (s : State) (c : Ch) (i : Image) :
    (s.tryAwait c i).clock = s.clock := by simp [State.tryAwait]

@[simp] theorem storeParts_clock (s : State) (c : Ch) (parts : List (Nat × Nat)) (bs : List Byte) :
    (s.storeParts c parts bs).clock = s.clock := by
  unfold State.storeParts
  induction parts generalizing s bs with
  | nil => rfl
  | cons p l ih => rw [List.foldl_cons, ih]; simp

@[simp] theorem putCopy_clock (s : State) (c : Ch) (i : Image) (seg owner chunk : Nat) (bs : List Byte) :
    (s.putCopy c i seg owner chunk bs).clock = s.clock := by simp [State.putCopy]

@[simp] theorem passOn_clock (s : State) (c : Ch) (i : Image) (seg owner chunk : Nat) (bs : List Byte) :
    (s.passOn c i seg owner chunk bs).clock = s.clock := by simp [State.passOn]

@[simp] theorem publishChunk_clock (s : State) (c : Ch) (i : Image) (seg chunk : Nat) (bs : List Byte) :
    (s.publishChunk c i seg chunk bs).clock = s.clock := by simp [State.publishChunk]

@[simp] theorem yardRoot_clock (s : State) (c : Ch) (i : Image) (seg chunk : Nat) (ws : List W32) :
    (s.yardRoot c i seg chunk ws).clock = s.clock := by
  unfold State.yardRoot
  (try dsimp only)
  split
  · split <;> simp
  · cases i.backupRank (s.ch c).rank <;> simp

@[simp] theorem useValue_clock (s : State) (c : Ch) (i : Image) (seg chunk lm : Nat) (ws : List W32) (slot : Option Nat) :
    (s.useValue c i seg chunk lm ws slot).clock = s.clock := by simp [State.useValue]

@[simp] theorem useBackup_clock (s : State) (c : Ch) (i : Image) (q : QuadCopy) (after : Nat) :
    (s.useBackup c i q after).clock = s.clock := by simp [State.useBackup]

@[simp] theorem deadlineUse_clock (s : State) (c : Ch) (i : Image) (seg chunk lm due : Nat) :
    (s.deadlineUse c i seg chunk lm due).clock = s.clock := by
  unfold State.deadlineUse
  (try dsimp only)
  repeat' split
  all_goals first | rfl | simp

@[simp] theorem compareCopies_clock (s : State) (c : Ch) (seg chunk lm : Nat) :
    (s.compareCopies c seg chunk lm).clock = s.clock := by
  unfold State.compareCopies
  (try dsimp only)
  repeat' split
  all_goals first | rfl | simp

@[simp] theorem useCopy_clock (s : State) (c : Ch) (i : Image) (q : QuadCopy) :
    (s.useCopy c i q).clock = s.clock := by simp [State.useCopy]

@[simp] theorem copyDone_clock (s : State) (c : Ch) (i : Image) (seg chunk m : Nat) (data : List Byte) (slot : Option Nat) :
    (s.copyDone c i seg chunk m data slot).clock = s.clock := by
  unfold State.copyDone
  (try dsimp only)
  repeat' split
  all_goals first | rfl | simp

@[simp] theorem placeNode_clock (s : State) (c : Ch) (i : Image) (seg owner chunk level pos : Nat) (ws : List W32) :
    (s.placeNode c i seg owner chunk level pos ws).clock = s.clock := by simp [State.placeNode]

@[simp] theorem askCredits_clock (s : State) (c : Ch) (i : Image) (seg : Nat) (kinds : List Nat) :
    (s.askCredits c i seg kinds).clock = s.clock := by simp [State.askCredits]

theorem yardCar_clock (s : State) (w : At) (func amode : Nat) (body : Image → Car → State → State)
    (h_body : ∀ i e t, (body i e t).clock = t.clock) : (s.yardCar w func amode body).clock = s.clock := by
  unfold State.yardCar
  refine readPoint_clock _ _ _ _ (fun car t u h => ?_)
  dsimp only at h
  split at h
  · cases h
  · split at h
    · cases h
    · split at h
      · obtain rfl := Option.some.inj h; simp
      · split at h
        · cases h
        · obtain ⟨v, hv, rfl⟩ := Option.map_eq_some_iff.mp h
          rw [h_body, commonWait_clock _ _ _ _ _ hv]

@[simp] theorem holdCar_clock (s : State) (w : At) (car : Car) :
    (s.holdCar w car).clock = s.clock := by simp [State.holdCar]

@[simp] theorem accumulate_clock (s : State) (w : At) (i : Image) (car : Car) (add : Bool) :
    (s.accumulate w i car add).clock = s.clock := by
  unfold State.accumulate
  (try dsimp only)
  repeat' split
  all_goals first | rfl | simp

@[simp] theorem enterLeaves_clock (s : State) (w : At) (i : Image) (car : Car) (final : Bool) :
    (s.enterLeaves w i car final).clock = s.clock := by
  unfold State.enterLeaves
  (try dsimp only)
  repeat' split
  all_goals first | rfl | simp

@[simp] theorem ackYard_clock (s : State) (c : Ch) (m : YardMsg) (status : Nat) :
    (s.ackYard c m status).clock = s.clock := by simp [State.ackYard]

@[simp] theorem uncredited_clock (s : State) (c : Ch) (kind : Nat) (m : YardMsg) :
    (s.uncredited c kind m).clock = s.clock := by
  unfold State.uncredited
  all_goals first | rfl | simp

@[simp] theorem poisonedYard_clock (s : State) (c : Ch) (m : YardMsg) :
    (s.poisonedYard c m).clock = s.clock := by
  unfold State.poisonedYard
  all_goals first | rfl | simp

@[simp] theorem atYard_clock (s : State) (c : Ch) (kind : Nat) (m : YardMsg) (body : Image → State → State) (h_body : ∀ x0 t, (body x0 t).clock = t.clock) :
    (s.atYard c kind m body).clock = s.clock := by
  unfold State.atYard
  repeat' split
  all_goals first | rfl | simp [h_body]

@[simp] theorem yardTake_clock (s : State) (c : Ch) (kind : Nat) (m : YardMsg) (body : Image → Nat → State → State)
    (h_body : ∀ x0 x1 t, (body x0 x1 t).clock = t.clock) :
    (s.yardTake c kind m body).clock = s.clock := by
  unfold State.yardTake
  refine atYard_clock _ _ _ _ _ (fun i t => ?_)
  (try dsimp only)
  split
  · simp
  · split
    · simp
    · split
      · simp
      · simp [h_body]

@[simp] theorem takeLeaf_clock (s : State) (c : Ch) (m : YardMsg) :
    (s.takeLeaf c m).clock = s.clock := by
  unfold State.takeLeaf
  all_goals first | rfl | simp

@[simp] theorem takePair_clock (s : State) (c : Ch) (m : YardMsg) :
    (s.takePair c m).clock = s.clock := by
  unfold State.takePair
  all_goals first | rfl | simp

@[simp] theorem takeQuad_clock (s : State) (c : Ch) (m : YardMsg) :
    (s.takeQuad c m).clock = s.clock := by
  unfold State.takeQuad
  (try dsimp only)
  all_goals first | rfl | simp

@[simp] theorem takeRoot_clock (s : State) (c : Ch) (m : YardMsg) :
    (s.takeRoot c m).clock = s.clock := by
  unfold State.takeRoot
  (try dsimp only)
  all_goals first | rfl | simp

@[simp] theorem takeSlice_clock (s : State) (c : Ch) (kind : Nat) (m : YardMsg) :
    (s.takeSlice c kind m).clock = s.clock := by simp [State.takeSlice]

@[simp] theorem takeCredit_clock (s : State) (c : Ch) (m : YardMsg) :
    (s.takeCredit c m).clock = s.clock := by
  unfold State.takeCredit
  refine atYard_clock _ _ _ _ _ (fun i t => ?_)
  (try dsimp only)
  split
  · simp
  · split <;> simp

@[simp] theorem issueCredit_clock (s : State) (c : Ch) (i : Image) (q : YardCredit) :
    (s.issueCredit c i q).clock = s.clock := by simp [State.issueCredit]

@[simp] theorem yardMessage_clock (s : State) (c : Ch) (kind : Nat) (m : YardMsg) :
    (s.yardMessage c kind m).clock = s.clock := by
  unfold State.yardMessage
  repeat' split
  all_goals first | rfl | simp

@[simp] theorem yardTrain_clock (s : State) (c : Ch) (h : MailHead) (data : List Byte) (poisoned : List Nat) :
    (s.yardTrain c h data poisoned).clock = s.clock := by
  unfold State.yardTrain
  (try dsimp only)
  repeat' split
  all_goals first | rfl | simp

@[simp] theorem loadFailed_clock (s : State) (c : Ch) (result : Nat) :
    (s.loadFailed c result).clock = s.clock := by simp [State.loadFailed]

@[simp] theorem loadDone_clock (s : State) (c : Ch) (g : Staging) (i : Image) :
    (s.loadDone c g i).clock = s.clock := by simp [State.loadDone]

@[simp] theorem placed_clock (s : State) (c : Ch) (g : Staging) (i : Image) :
    (s.placed c g i).clock = s.clock := by simp [State.placed]

@[simp] theorem finishLoad_clock (s : State) (c : Ch) (a : Nat) :
    (s.finishLoad c a).clock = s.clock := by
  unfold State.finishLoad
  (try dsimp only)
  repeat' split
  all_goals first | rfl | simp

@[simp] theorem startLoad_clock (s : State) (c : Ch) (a : Nat) :
    (s.startLoad c a).clock = s.clock := by simp [State.startLoad]

@[simp] theorem enterFault_clock (s : State) (c : Ch) (code : Nat) (param : List Byte) :
    (s.enterFault c code param).clock = s.clock := by simp [State.enterFault]

@[simp] theorem channelOff_clock (s : State) (c : Ch) :
    (s.channelOff c).clock = s.clock := by simp [State.channelOff]

@[simp] theorem haltCars_clock (s : State) (c : Ch) :
    (s.haltCars c).clock = s.clock := by simp [State.haltCars]

@[simp] theorem safeChannel_clock (s : State) (c : Ch) (trip : Bool) :
    (s.safeChannel c trip).clock = s.clock := by simp [State.safeChannel]

@[simp] theorem enterSafe_clock (s : State) (cause : Nat) :
    (s.enterSafe cause).clock = s.clock := by simp [State.enterSafe]

@[simp] theorem logPair_clock (s : State) (c : Ch) (r : Rg) (p old new : Nat) (a b : Int) (model : W32) :
    (s.logPair c r p old new a b model).clock = s.clock := by simp [State.logPair]

@[simp] theorem forecastRegion_clock (s : State) (c : Ch) (r : Rg) (rd : RegionReading) :
    (s.forecastRegion c r rd).clock = s.clock := by simp [State.forecastRegion]

@[simp] theorem logLost_clock (s : State) (old : Module) :
    (s.logLost old).clock = s.clock := by simp [State.logLost]

@[simp] theorem logRange_clock (s : State) (old : Module) :
    (s.logRange old).clock = s.clock := by simp [State.logRange]

@[simp] theorem assignSensor_clock (s : State) (i : Nat) :
    (s.assignSensor i).clock = s.clock := by simp [State.assignSensor]

@[simp] theorem readSensors_clock (s : State) (answers : List (Nat × Nat)) :
    (s.readSensors answers).clock = s.clock := by
  unfold State.readSensors
  refine foldl_clock _ (fun t i => ?_) _ _
  (try dsimp only)
  split <;> split <;> simp

@[simp] theorem leaveSafe_clock (s : State) : s.leaveSafe.clock = s.clock := by
  unfold State.leaveSafe
  (try dsimp only)
  rw [equalShares_clock, eachCh_clock]
  · simp
  · intro c t
    cases (t.ch c).ctl.safeFrom <;> cases (t.ch c).run.image <;>
      simp [foldl_clock, apply_ite State.clock]

@[simp] theorem markLife_clock (s : State) (c : Ch) :
    (s.markLife c).clock = s.clock := by simp [State.markLife]

@[simp] theorem startRun_clock (s : State) (c : Ch) :
    (s.startRun c).clock = s.clock := by simp [State.startRun]

@[simp] theorem resumeRun_clock (s : State) (c : Ch) :
    (s.resumeRun c).clock = s.clock := by simp [State.resumeRun]

@[simp] theorem toStandby_clock (s : State) (c : Ch) :
    (s.toStandby c).clock = s.clock := by simp [State.toStandby]

@[simp] theorem wake_clock (s : State) (c : Ch) :
    (s.wake c).clock = s.clock := by
  unfold State.wake
  (try dsimp only)
  repeat' split
  all_goals first | rfl | simp

@[simp] theorem release_clock (s : State) (c : Ch) :
    (s.release c).clock = s.clock := by simp [State.release]

@[simp] theorem startBoot_clock (s : State) (c : Ch) (powerOn : Bool) :
    (s.startBoot c powerOn).clock = s.clock := by simp [State.startBoot]

@[simp] theorem powerOff_clock (s : State) (c : Ch) :
    (s.powerOff c).clock = s.clock := by simp [State.powerOff]

@[simp] theorem command_clock (s : State) (c : Ch) (cmd : Nat) :
    (s.command c cmd).clock = s.clock := by
  unfold State.command
  repeat' split
  all_goals first | rfl | simp

@[simp] theorem logTxn_clock (s : State) (l : List StagedWrite) (code : Nat) (ps : List Param) :
    (s.logTxn l code ps).clock = s.clock := by simp [State.logTxn]

@[simp] theorem rollBack_clock (s : State) (v : Via) (cause code : Nat) :
    (s.rollBack v cause code).clock = s.clock := by
  unfold State.rollBack
  repeat' split
  all_goals first | rfl | simp

@[simp] theorem closeSession_clock (s : State) (x : Session) (cause txnCause : Nat) :
    (s.closeSession x cause txnCause).clock = s.clock := by simp [State.closeSession]

@[simp] theorem closeSessions_clock (s : State) (p : Session → Bool) (cause txnCause : Nat) :
    (s.closeSessions p cause txnCause).clock = s.clock := by simp [State.closeSessions]

@[simp] theorem restartSm_clock (s : State) :
    s.restartSm.clock = s.clock := by simp [State.restartSm]

@[simp] theorem owned_clock (s : State) :
    s.owned.clock = s.clock := by simp [State.owned]

@[simp] theorem raiseFloor_clock (s : State) (b : List Byte) :
    (s.raiseFloor b).clock = s.clock := by simp [State.raiseFloor]

@[simp] theorem putFloor_clock (s : State) (o : Nat) (v : List Byte) :
    (s.putFloor o v).2.clock = s.clock := by
  unfold State.putFloor
  repeat' split
  all_goals first | rfl | simp

@[simp] theorem stageFirmware_clock (s : State) (b : List Byte) :
    (s.stageFirmware b).2.clock = s.clock := by
  unfold State.stageFirmware
  (try dsimp only)
  repeat' split
  all_goals first | rfl | simp

@[simp] theorem putFirmware_clock (s : State) (o : Nat) (v : List Byte) :
    (s.putFirmware o v).2.clock = s.clock := by
  unfold State.putFirmware
  repeat' split
  all_goals first | rfl | simp

@[simp] theorem transferOwner_clock (s : State) (b : List Byte) :
    (s.transferOwner b).clock = s.clock := by simp [State.transferOwner]

@[simp] theorem putOwner_clock (s : State) (o : Nat) (v : List Byte) :
    (s.putOwner o v).2.clock = s.clock := by
  unfold State.putOwner
  (try dsimp only)
  repeat' split
  all_goals first | rfl | simp

@[simp] theorem newTenant_clock (s : State) (c : Ch) (old new : Nat) :
    (s.newTenant c old new).clock = s.clock := by simp [State.newTenant]

@[simp] theorem setTenant_clock (s : State) (c : Ch) (new : Nat) :
    (s.setTenant c new).clock = s.clock := by simp [State.setTenant]

@[simp] theorem keysChanged_clock (s : State) (old : Tab Byte) :
    (s.keysChanged old).clock = s.clock := by simp [State.keysChanged]

@[simp] theorem putNonce_clock (s : State) (v : Via) (scope : Option Ch) (o : Nat) (bs : List Byte) :
    (s.putNonce v scope o bs).clock = s.clock := by simp [State.putNonce]

@[simp] theorem sendSetup_clock (s : State) (i3c : Bool) (setup step : Nat) (payload : List Byte) :
    (s.sendSetup i3c setup step payload).clock = s.clock := by simp [State.sendSetup]

@[simp] theorem refuseSetup_clock (s : State) (i3c : Bool) (setup step status : Nat) :
    (s.refuseSetup i3c setup step status).clock = s.clock := by simp [State.refuseSetup]

@[simp] theorem setRun_clock (s : State) (c : Ch) (f g : Chan → Chan) :
    (s.setRun c f g).clock = s.clock := by simp [State.setRun]

@[simp] theorem setDepot_clock (s : State) (c : Ch) (n : Nat) :
    (s.setDepot c n).clock = s.clock := by simp [State.setDepot]

@[simp] theorem setFar_clock (s : State) (c : Ch) (on : Bool) :
    (s.setFar c on).clock = s.clock := by simp [State.setFar]

@[simp] theorem setAllowance_clock (s : State) (w : Nat) :
    (s.setAllowance w).clock = s.clock := by simp [State.setAllowance]

@[simp] theorem setLayers_clock (s : State) (c : Ch) (o : Nat) (v : List Byte) :
    (s.setLayers c o v).clock = s.clock := by simp [State.setLayers]

@[simp] theorem putConfig_clock (s : State) (scope : Option Ch) (o : Nat) (v : List Byte) :
    (s.putConfig scope o v).2.clock = s.clock := by
  unfold State.putConfig
  (try dsimp only)
  repeat' split
  all_goals rfl

@[simp] theorem refuse_clock (s : State) (v : Via) (r : Request) (status : Nat) :
    (s.refuse v r status).clock = s.clock := by
  unfold State.refuse
  (try dsimp only)
  repeat' split
  all_goals first | rfl | simp

@[simp] theorem openTxn_clock (s : State) (v : Via) :
    (s.openTxn v).clock = s.clock := by simp [State.openTxn]

@[simp] theorem stageWrite_clock (s : State) (v : Via) (r : Request) :
    (s.stageWrite v r).clock = s.clock := by
  unfold State.stageWrite
  repeat' split
  all_goals rfl

/-- An entry whose writes leave the clock. -/
theorem rwN_clock (acc : Access) (off sub size : Nat) (f : State → Nat) (ok : Nat → Bool) (g : Nat → State → State)
    (h : ∀ n t, (g n t).clock = t.clock) (s : State) (v : Via) (o : Nat) (b : List Byte) :
    ((rwN acc off sub size f ok g).set s v o b).2.clock = s.clock := h _ _

theorem perCh_set (f : Ch → Entry) (P : (State → Via → Nat → List Byte → Nat × State) → Prop) (h : ∀ c, P (f c).set) :
    ∀ e ∈ perCh f, P e.set := by
  intro e he
  simp only [perCh, List.mem_map] at he
  obtain ⟨c, _, rfl⟩ := he
  exact h c

def SetsClock (g : State → Via → Nat → List Byte → Nat × State) : Prop := ∀ s v o b, (g s v o b).2.clock = s.clock

theorem chanEntries_clock (c : Ch) (i : Nat) : ∀ e ∈ (chanEntries c i).2, SetsClock e.set := by
  unfold chanEntries
  repeat' split
  all_goals
    simp [mEntries, jEntries, xEntries, yEntries, pEntries, bEntries, kEntries, eEntries, attestEntries, roN, roFree, roB, roD, rwN,
      rwB, rwS, rwT, rwR, wo, Entry.tenantOnly, SetsClock, apply_ite State.clock]

theorem moduleEntries_clock (i : Nat) : ∀ e ∈ moduleEntries i, SetsClock e.set := by
  unfold moduleEntries
  repeat' split
  all_goals
    simp only [mod1Entries, powerEntries, clockEntries, thermalEntries, securityEntries, attestEntries, txnEntries,
      List.forall_mem_append, List.forall_mem_cons]
    repeat' apply And.intro
    all_goals first
      | exact perCh_set _ _ (fun c s v o b => by simp [roN, roB, roD])
      | (intro s v o b; simp [roN, roB, roD, rwN, rwS, rwT, wo, blockEntry]; done)
      | simp

theorem entry_clock (i sub : Nat) (e : Entry) (h : entry? i sub = some e) (s : State) (v : Via) (o : Nat) (b : List Byte) :
    (e.set s v o b).2.clock = s.clock := by
  have hm := List.mem_of_find?_eq_some h
  unfold allAt at hm
  rcases List.mem_append.mp hm with hm | hm
  · unfold entriesAt at hm
    split at hm
    · exact chanEntries_clock _ _ _ (List.mem_filter.mp hm).1 s v o b
    · exact moduleEntries_clock _ _ (List.mem_filter.mp hm).1 s v o b
  · unfold configEntries at hm
    split at hm <;> split at hm <;> simp only [List.mem_singleton, List.not_mem_nil] at hm
    all_goals subst hm; simp [blockEntry]

@[simp] theorem applyOne_clock (s : State) (v : Via) (w : StagedWrite) : (s.applyOne v w).2.clock = s.clock := by
  unfold State.applyOne
  (try dsimp only)
  split
  · rfl
  · rename_i e he
    split
    · rfl
    · split
      · split <;> simp
      · exact entry_clock _ _ _ he _ _ _ _

@[simp] theorem applyList_clock (v : Via) (l : List StagedWrite) (s : State) (n : Nat) :
    (s.applyList v n l).2.clock = s.clock := by
  induction l generalizing s n with
  | nil => rfl
  | cons w ws ih =>
    unfold State.applyList
    (try dsimp only)
    split
    · simp
    · rw [ih]; simp

@[simp] theorem applyAll_clock (s : State) (v : Via) (ws : List StagedWrite) : (s.applyAll v ws).clock = s.clock := by
  unfold State.applyAll
  simp [foldl_clock]

@[simp] theorem refuseTxn_clock (s : State) (v : Via) (t : Option Txn) (ws : List StagedWrite) (n status late : Nat) :
    (s.refuseTxn v t ws n status late).clock = s.clock := by
  unfold State.refuseTxn
  (try dsimp only)
  repeat' split
  all_goals first | rfl | simp

@[simp] theorem commit_clock (s : State) (v : Via) (t : Txn) :
    (s.commit v t).2.2.clock = s.clock := by
  unfold State.commit
  (try dsimp only)
  repeat' split
  all_goals first | rfl | simp

@[simp] theorem commitOne_clock (s : State) (p : PendCommit) :
    (s.commitOne p).clock = s.clock := by
  unfold State.commitOne
  (try dsimp only)
  repeat' split
  all_goals first | rfl | simp

theorem accept_clock (s : State) (v : Via) (r : Request) (e : Entry) (i sub : Nat) (he : entry? i sub = some e) :
    (s.accept v r e).2.2.clock = s.clock := by
  unfold State.accept
  have hs := entry_clock i sub e he
  (try dsimp only)
  repeat' split
  all_goals simp [hs]

theorem check_entry (s : State) (v : Via) (r : Request) (e : Entry) (h : (s.check v r).2 = some e) :
    entry? r.index r.sub = some e := by
  unfold State.check at h
  repeat' split at h
  all_goals simp_all [entry?]

@[simp] theorem request_clock (s : State) (v : Via) (r : Request) : (s.request v r).2.2.clock = s.clock := by
  unfold State.request
  dsimp only
  split
  · rename_i e he
    split
    · exact accept_clock _ _ _ _ _ _ (check_entry _ _ _ _ he)
    · simp
  · simp

@[simp] theorem carry_clock (s : State) (q : Reply) (v : Via) (r : Request) :
    (s.carry q v r).clock = s.clock := by
  unfold State.carry
  (try dsimp only)
  repeat' split
  all_goals first | rfl | simp

@[simp] theorem serve_clock (s : State) (v : Via) (r : Request) :
    (s.serve v r).clock = s.clock := by simp [State.serve]

@[simp] theorem cfgRecord_clock (s : State) (scope : Option Ch) (w : StagedWrite) :
    (s.cfgRecord scope w).clock = s.clock := by
  unfold State.cfgRecord
  (try dsimp only)
  split
  · cases scope <;> simp
  · split
    · rfl
    · rename_i e he
      have hs := entry_clock _ _ e he
      split
      · simp [hs]
      · cases scope <;> simp [hs]

@[simp] theorem applyConfig_clock (s : State) (scope : Option Ch) :
    (s.applyConfig scope).clock = s.clock := by
  unfold State.applyConfig
  (try dsimp only)
  repeat' split
  all_goals first | rfl | simp

@[simp] theorem discardDatagram_clock (s : State) :
    s.discardDatagram.clock = s.clock := by simp [State.discardDatagram]

@[simp] theorem sessionDatagram_clock (s : State) (x : Session) (d : List Byte) :
    (s.sessionDatagram x d).clock = s.clock := by simp [State.sessionDatagram]

@[simp] theorem serveMailbox_clock (s : State) (c : Ch) :
    (s.serveMailbox c).clock = s.clock := by simp [State.serveMailbox]

@[simp] theorem hostQueue_clock (s : State) (c : Ch) : (s.hostQueue c).clock = s.clock := by
  unfold State.hostQueue
  (try dsimp only)
  generalize hs : (s.ch c).host.startWait = q
  cases q with
  | none => simp [apply_ite State.clock]
  | some e => simp [apply_ite State.clock]

@[simp] theorem putTail_clock (s : State) (c : Ch) (value : Nat) :
    (s.putTail c value).clock = s.clock := by simp [State.putTail]

@[simp] theorem dbRun_clock (s : State) (c : Ch) (e : List Byte) : (s.dbRun c e).2.clock = s.clock := by
  unfold State.dbRun
  (try dsimp only)
  split
  · simp
  · split
    · rfl
    · split
      · rfl
      · rename_i d hd
        split
        · simp
        · exact entry_clock _ _ _ hd _ _ _ _

@[simp] theorem doorbell_clock (s : State) (c : Ch) (mine : Nat → Bool) :
    (s.doorbell c mine).clock = s.clock := by simp [State.doorbell]

@[simp] theorem notify_clock (s : State) (c : Ch) (r : EvtRing) :
    (s.notify c r).1.clock = s.clock := by simp [State.notify]

@[simp] theorem putConsumed_clock (s : State) (c : Ch) (value : Nat) :
    (s.putConsumed c value).clock = s.clock := by simp [State.putConsumed]

@[simp] theorem chGo_clock (s : State) (c : Ch) :
    (s.chGo c).clock = s.clock := by simp [State.chGo]

@[simp] theorem modGo_clock (s : State) :
    s.modGo.clock = s.clock := by simp [State.modGo]

@[simp] theorem pageStore_clock (s : State) (c : Ch) (o : Nat) (b : Byte) :
    (s.pageStore c o b).clock = s.clock := by simp [State.pageStore]

@[simp] theorem pageWrite_clock (s : State) (c : Ch) (o : Nat) (bs : List Byte) :
    (s.pageWrite c o bs).clock = s.clock := by simp [State.pageWrite]

@[simp] theorem hostData_clock (s : State) (c : Ch) (o : HostOp) (data : List Byte) (poisoned : Bool) :
    (s.hostData c o data poisoned).clock = s.clock := by simp [State.hostData]

@[simp] theorem loseHost_clock (s : State) (c : Ch) (hold : Nat) (param : List Byte) :
    (s.loseHost c hold param).clock = s.clock := by simp [State.loseHost]

@[simp] theorem tick_clock (s : State) :
    s.tick.clock = (s.pending, if s.counting then s.count + 1 else s.count, s.counting) := by
  unfold State.tick
  (try dsimp only)
  rw [eachCh_clock _ _ (fun c t => by simp)]
  split <;> simp_all [State.clock]

@[simp] theorem bootCause_clock (s : State) (c : Ch) (fault : Nat) :
    (s.bootCause c fault).clock = s.clock := by simp [State.bootCause]

@[simp] theorem contain_clock (s : State) (c : Ch) (cause fault : Nat) :
    (s.contain c cause fault).clock = s.clock := by
  unfold State.contain
  repeat' split
  all_goals first | rfl | simp

@[simp] theorem causeOf_clock (s : State) (c : Ch) (source code : Nat) (ps : List Param) (cause fault : Nat) :
    (s.causeOf c source code ps cause fault).clock = s.clock := by simp [State.causeOf]

@[simp] theorem farDrop_clock (s : State) (c : Ch) :
    (s.farDrop c).clock = s.clock := by simp [State.farDrop]

@[simp] theorem logPowerLoss_clock (s : State) (cause volts : Nat) :
    (s.logPowerLoss cause volts).clock = s.clock := by simp [State.logPowerLoss]

@[simp] theorem verifyFirmware_clock (s : State) :
    s.verifyFirmware.clock = s.clock := by simp [State.verifyFirmware]

@[simp] theorem bootAll_clock (s : State) :
    s.bootAll.clock = s.clock := by simp [State.bootAll]

@[simp] theorem bootOff_clock (s : State) : s.bootOff.clock = s.clock := by
  unfold State.bootOff
  refine eachCh_clock _ _ (fun c t => ?_)
  split <;> simp

@[simp] theorem firstReady_clock (s : State) :
    s.firstReady.clock = s.clock := by simp [State.firstReady]

@[simp] theorem readyAgain_clock (s : State) :
    s.readyAgain.clock = s.clock := by simp [State.readyAgain]

@[simp] theorem bootRegion_clock (s : State) (c : Ch) (r : Nat) (t : RegionBoot) :
    (s.bootRegion c r t).clock = s.clock := by
  unfold State.bootRegion
  (try dsimp only)
  repeat' split
  all_goals first | rfl | simp

@[simp] theorem vecStore_clock (s : State) (c : Ch) (k : Nat) (car : Car) (r : VecRec) (ws : List W32) :
    (s.vecStore c k car r ws).1.clock = s.clock := by
  unfold State.vecStore
  (try dsimp only)
  repeat' split
  all_goals rfl

@[simp] theorem putWords_clock (s : State) (c : Ch) (k : Nat) (reg : Bool) (fieldV : Nat) (ws : List W32) :
    (s.putWords c k reg fieldV ws).clock = s.clock := by simp [State.putWords]

@[simp] theorem vecCar_clock (s : State) (w : At) (opc func : Nat) (tell : Bool) (body : Chan → Car → VecRec → State → State × List W32 × Counts) (h_body : ∀ x0 x1 x2 t, (body x0 x1 x2 t).1.clock = t.clock) :
    (s.vecCar w opc func tell body).clock = s.clock := by
  unfold State.vecCar
  first
  | refine issueFrom_clock _ _ _ _ _ (fun e t u h => ?_)
  | refine readPoint_clock _ _ _ _ (fun e t u h => ?_)
  revert h
  (try dsimp only)
  repeat' split
  all_goals intro h
  all_goals first
    | (cases h; done)
    | (obtain rfl := Option.some.inj h; simp [h_body]; done)

@[simp] theorem elementwise_clock (s : State) (w : At) (opc func : Nat) (op : VecRec → W32 → W32 → W32 → W32) :
    (s.elementwise w opc func op).clock = s.clock := by simp [State.elementwise]

@[simp] theorem addOor_clock (s : State) (c : Ch) (k n : Nat) :
    (s.addOor c k n).clock = s.clock := by simp [State.addOor]

@[simp] theorem scanCar_clock (s : State) (w : At) (func : Nat) :
    (s.scanCar w func).clock = s.clock := by simp [State.scanCar]

@[simp] theorem fillCar_clock (s : State) (w : At) (func : Nat) (tell : Bool) (op : VecRec → Ticket → W32 → W32) :
    (s.fillCar w func tell op).clock = s.clock := by simp [State.fillCar]

@[simp] theorem optCar_clock (s : State) (w : At) (kind : Nat) : (s.optCar w kind).clock = s.clock := by
  unfold State.optCar
  refine vecCar_clock _ _ _ _ _ _ (fun x car r t => ?_)
  dsimp only
  split
  · split
    · split <;> simp
    · split <;> simp
  · split <;> simp

@[simp] theorem reduceCar_clock (s : State) (w : At) (func : Nat) (step comb : W32 → W32 → W32) (start : Option W32) (pre : W32 → W32) :
    (s.reduceCar w func step comb start pre).clock = s.clock := by simp [State.reduceCar]

end Sys2Proof.Machine
end

