-- ==== Sys2Proof/Laws/ExecBesides.lean ====
section
/-! SUPPORT. The commands of one channel leave the other channels alone (01 R22). -/

namespace Sys2Proof.Machine

theorem execMatmul_besides (w : At) (eng : Fin 4) (faults : List MemFault) (s : State) (u : State) (hu : execMatmul w eng faults s = .next u) : u.besides w.ch = s.besides w.ch := by
  obtain rfl := Host.Outcome.next.inj hu
  simp 

theorem execSum_besides (w : At) (eng : Fin 4) (s : State) (u : State) (hu : execSum w eng s = .next u) : u.besides w.ch = s.besides w.ch := by
  obtain rfl := Host.Outcome.next.inj hu
  simp 

theorem execMaxabs_besides (w : At) (eng : Fin 4) (s : State) (u : State) (hu : execMaxabs w eng s = .next u) : u.besides w.ch = s.besides w.ch := by
  obtain rfl := Host.Outcome.next.inj hu
  simp 

theorem execTopk_besides (w : At) (eng : Fin 4) (s : State) (u : State) (hu : execTopk w eng s = .next u) : u.besides w.ch = s.besides w.ch := by
  obtain rfl := Host.Outcome.next.inj hu
  simp 

theorem execSustainedLimit_besides (c : Ch) (easedOf16 : Nat) (amps : List Nat) (s : State) (u : State) (hu : execSustainedLimit c easedOf16 amps s = .next u) : u.besides c = s.besides c := by
  obtain rfl := Host.Outcome.next.inj hu
  simp 

theorem execMarginMonitor_besides (c : Ch) (r : Rg) (margin : Nat) (s : State) (u : State) (hu : execMarginMonitor c r margin s = .next u) : u.besides c = s.besides c := by
  obtain rfl := Host.Outcome.next.inj hu
  (try dsimp only)
  repeat' split
  all_goals first | rfl | simp

theorem execCellFailed_besides (c : Ch) (r : Rg) (cell : Fin 16) (cause : Nat) (s : State) (u : State) (hu : execCellFailed c r cell cause s = .next u) : u.besides c = s.besides c := by
  obtain rfl := Host.Outcome.next.inj hu
  simp 

theorem execRegionLost_besides (c : Ch) (r : Rg) (cause : Nat) (s : State) (u : State) (hu : execRegionLost c r cause s = .next u) : u.besides c = s.besides c := by
  obtain rfl := Host.Outcome.next.inj hu
  simp 

theorem execUpshiftRamp_besides (c : Ch) (s : State) (u : State) (hu : execUpshiftRamp c s = .next u) : u.besides c = s.besides c := by
  obtain rfl := Host.Outcome.next.inj hu
  repeat' split
  all_goals first | rfl | simp

theorem execVoltageCheck_besides (c : Ch) (mv : List Nat) (s : State) (u : State) (hu : execVoltageCheck c mv s = .next u) : u.besides c = s.besides c := by
  obtain rfl := Host.Outcome.next.inj hu
  (try dsimp only)
  repeat' split
  all_goals first | rfl | simp

theorem execFrequencyChange_besides (c : Ch) (s : State) (u : State) (hu : execFrequencyChange c s = .next u) : u.besides c = s.besides c := by
  obtain rfl := Host.Outcome.next.inj hu
  (try dsimp only)
  repeat' split
  all_goals first | rfl | simp

theorem execDroop_besides (c : Ch) (r : Rg) (mvBelow : Nat) (held : Stretch) (s : State) (u : State) (hu : execDroop c r mvBelow held s = .next u) : u.besides c = s.besides c := by
  obtain rfl := Host.Outcome.next.inj hu
  simp 

theorem execRampGrant_besides (c : Ch) (amps : Nat) (s : State) (u : State) (hu : execRampGrant c amps s = .next u) : u.besides c = s.besides c := by
  obtain rfl := Host.Outcome.next.inj hu
  (try dsimp only)
  repeat' split
  all_goals first | rfl | simp

theorem execRegionOn_besides (c : Ch) (r : Rg) (s : State) (u : State) (hu : execRegionOn c r s = .next u) : u.besides c = s.besides c := by
  obtain rfl := Host.Outcome.next.inj hu
  simp 

theorem execRampRelease_besides (c : Ch) (r : Rg) (s : State) (u : State) (hu : execRampRelease c r s = .next u) : u.besides c = s.besides c := by
  obtain rfl := Host.Outcome.next.inj hu
  simp 

theorem execRampDenied_besides (c : Ch) (r : Rg) (amps : Nat) (s : State) (u : State) (hu : execRampDenied c r amps s = .next u) : u.besides c = s.besides c := by
  obtain rfl := Host.Outcome.next.inj hu
  simp 

theorem execRampWait_besides (c : Ch) (r : Rg) (s : State) (u : State) (hu : execRampWait c r s = .next u) : u.besides c = s.besides c := by
  obtain rfl := Host.Outcome.next.inj hu
  simp 

theorem execCopy_besides (w : At) (ahead : List Nat) (faults : List MemFault) (s : State) (u : State) (hu : execCopy w ahead faults s = .next u) : u.besides w.ch = s.besides w.ch := by
  obtain rfl := Host.Outcome.next.inj hu
  simp 

theorem execCompress_besides (w : At) (ahead : List Nat) (faults : List MemFault) (s : State) (u : State) (hu : execCompress w ahead faults s = .next u) : u.besides w.ch = s.besides w.ch := by
  obtain rfl := Host.Outcome.next.inj hu
  simp 

theorem execDecompress_besides (w : At) (ahead : List Nat) (faults : List MemFault) (s : State) (u : State) (hu : execDecompress w ahead faults s = .next u) : u.besides w.ch = s.besides w.ch := by
  obtain rfl := Host.Outcome.next.inj hu
  simp 

theorem execNarrowE4m3_besides (w : At) (ahead : List Nat) (faults : List MemFault) (s : State) (u : State) (hu : execNarrowE4m3 w ahead faults s = .next u) : u.besides w.ch = s.besides w.ch := by
  obtain rfl := Host.Outcome.next.inj hu
  simp 

theorem execWidenE4m3_besides (w : At) (ahead : List Nat) (faults : List MemFault) (s : State) (u : State) (hu : execWidenE4m3 w ahead faults s = .next u) : u.besides w.ch = s.besides w.ch := by
  obtain rfl := Host.Outcome.next.inj hu
  simp 

theorem execDemandPoint_besides (w : At) (slot : Nat) (faults : List MemFault) (s : State) (u : State) (hu : execDemandPoint w slot faults s = .next u) : u.besides w.ch = s.besides w.ch := by
  obtain rfl := Host.Outcome.next.inj hu
  repeat' split
  all_goals first | rfl | simp

theorem execRefetchDone_besides (w : At) (eng : Fin 4) (s : State) (u : State) (hu : execRefetchDone w eng s = .next u) : u.besides w.ch = s.besides w.ch := by
  obtain rfl := Host.Outcome.next.inj hu
  (try dsimp only)
  repeat' split
  all_goals first | rfl | simp

theorem execWorldEnd_besides (w : At) (s : State) (u : State) (hu : execWorldEnd w s = .next u) : u.besides w.ch = s.besides w.ch := by
  obtain rfl := Host.Outcome.next.inj hu
  refine (worldCar_besides _ _ _ _ _ (fun e i a b t => ?_)).trans (meet_besides _ _)
  (try dsimp only)
  split
  · simp
  · split <;> simp

theorem execWorldReset_besides (w : At) (s : State) (u : State) (hu : execWorldReset w s = .next u) : u.besides w.ch = s.besides w.ch := by
  obtain rfl := Host.Outcome.next.inj hu
  refine (worldCar_besides _ _ _ _ _ (fun e i a b t => ?_)).trans (meet_besides _ _)
  (try dsimp only)
  split <;> simp

theorem execRecord_besides (w : At) (s : State) (u : State) (hu : execRecord w s = .next u) : u.besides w.ch = s.besides w.ch := by
  obtain rfl := Host.Outcome.next.inj hu
  refine (issueFrom_besides _ _ _ _ _ (fun e t u h => ?_)).trans (meet_besides _ _)
  revert h
  (try dsimp only)
  repeat' split
  all_goals intro h
  all_goals first
    | (cases h; done)
    | (obtain rfl := Option.some.inj h; simp ; done)

theorem execAdvance_besides (w : At) (s : State) (u : State) (hu : execAdvance w s = .next u) : u.besides w.ch = s.besides w.ch := by
  obtain rfl := Host.Outcome.next.inj hu
  simp 

theorem execSend_besides (w : At) (s : State) (u : State) (hu : execSend w s = .next u) : u.besides w.ch = s.besides w.ch := by
  obtain rfl := Host.Outcome.next.inj hu
  refine (doorbellCar_besides _ _ _ _ _ (fun n b t u h => ?_)).trans (meet_besides _ _)
  revert h; (try dsimp only)
  repeat' split
  all_goals first | (intro h; cases h; done) | (intro h; obtain rfl := Ring.done.inj h; simp)

theorem execAtomic_besides (w : At) (s : State) (u : State) (hu : execAtomic w s = .next u) : u.besides w.ch = s.besides w.ch := by
  obtain rfl := Host.Outcome.next.inj hu
  refine (doorbellCar_besides _ _ _ _ _ (fun n b t u h => ?_)).trans (meet_besides _ _)
  revert h; (try dsimp only)
  repeat' split
  all_goals first | (intro h; cases h; done) | (intro h; obtain rfl := Ring.done.inj h; simp)

theorem execFence_besides (w : At) (s : State) (u : State) (hu : execFence w s = .next u) : u.besides w.ch = s.besides w.ch := by
  obtain rfl := Host.Outcome.next.inj hu
  refine (doorbellCar_besides _ _ _ _ _ (fun n b t u h => ?_)).trans (meet_besides _ _)
  revert h
  repeat' split
  all_goals first | (intro h; cases h; done) | (intro h; obtain rfl := Ring.done.inj h; simp)

theorem execHelloTransmit_besides (c : Ch) (p : Pt) (s : State) (u : State) (hu : execHelloTransmit c p s = .next u) : u.besides c = s.besides c := by
  obtain rfl := Host.Outcome.next.inj hu
  simp 

theorem execPortFailed_besides (c : Ch) (p : Pt) (s : State) (u : State) (hu : execPortFailed c p s = .next u) : u.besides c = s.besides c := by
  obtain rfl := Host.Outcome.next.inj hu
  simp 

theorem execCreditReturn_besides (c : Ch) (p : Pt) (s : State) (u : State) (hu : execCreditReturn c p s = .next u) : u.besides c = s.besides c := by
  obtain rfl := Host.Outcome.next.inj hu
  simp 

theorem execCtrl_besides (c : Ch) (p : Pt) (k : Ctrl) (s : State) (u : State) (hu : execCtrl c p k s = .next u) : u.besides c = s.besides c := by
  obtain rfl := Host.Outcome.next.inj hu
  simp 

theorem execFailedWagon_besides (c : Ch) (p : Pt) (lseq : Nat) (s : State) (u : State) (hu : execFailedWagon c p lseq s = .next u) : u.besides c = s.besides c := by
  obtain rfl := Host.Outcome.next.inj hu
  simp 

theorem execPortDown_besides (c : Ch) (p : Pt) (lockLost : Bool) (s : State) (u : State) (hu : execPortDown c p lockLost s = .next u) : u.besides c = s.besides c := by
  obtain rfl := Host.Outcome.next.inj hu
  simp 

theorem execRead_besides (c : Ch) (p : Pt) (h : ReadReq) (s : State) (u : State) (hu : execRead c p h s = .next u) : u.besides c = s.besides c := by
  obtain rfl := Host.Outcome.next.inj hu
  simp 

theorem execWrite_besides (c : Ch) (p : Pt) (h : ReqHead) (data : List Byte) (poisoned : List Nat) (s : State) (u : State) (hu : execWrite c p h data poisoned s = .next u) : u.besides c = s.besides c := by
  obtain rfl := Host.Outcome.next.inj hu
  simp 

theorem execAtomicAdd64_besides (c : Ch) (p : Pt) (h : AtomHead) (s : State) (u : State) (hu : execAtomicAdd64 c p h s = .next u) : u.besides c = s.besides c := by
  obtain rfl := Host.Outcome.next.inj hu
  simp 

theorem execAtomicUmin64_besides (c : Ch) (p : Pt) (h : AtomHead) (s : State) (u : State) (hu : execAtomicUmin64 c p h s = .next u) : u.besides c = s.besides c := by
  obtain rfl := Host.Outcome.next.inj hu
  simp 

theorem execAtomicUmax64_besides (c : Ch) (p : Pt) (h : AtomHead) (s : State) (u : State) (hu : execAtomicUmax64 c p h s = .next u) : u.besides c = s.besides c := by
  obtain rfl := Host.Outcome.next.inj hu
  simp 

theorem execAtomicSmin64_besides (c : Ch) (p : Pt) (h : AtomHead) (s : State) (u : State) (hu : execAtomicSmin64 c p h s = .next u) : u.besides c = s.besides c := by
  obtain rfl := Host.Outcome.next.inj hu
  simp 

theorem execAtomicSmax64_besides (c : Ch) (p : Pt) (h : AtomHead) (s : State) (u : State) (hu : execAtomicSmax64 c p h s = .next u) : u.besides c = s.besides c := by
  obtain rfl := Host.Outcome.next.inj hu
  simp 

theorem execAtomicSwap64_besides (c : Ch) (p : Pt) (h : AtomHead) (s : State) (u : State) (hu : execAtomicSwap64 c p h s = .next u) : u.besides c = s.besides c := by
  obtain rfl := Host.Outcome.next.inj hu
  simp 

theorem execAtomicCas64_besides (c : Ch) (p : Pt) (h : AtomHead) (s : State) (u : State) (hu : execAtomicCas64 c p h s = .next u) : u.besides c = s.besides c := by
  obtain rfl := Host.Outcome.next.inj hu
  simp 

theorem execAtomicAdd32_besides (c : Ch) (p : Pt) (h : AtomHead) (s : State) (u : State) (hu : execAtomicAdd32 c p h s = .next u) : u.besides c = s.besides c := by
  obtain rfl := Host.Outcome.next.inj hu
  simp 

theorem execAtomicUmin32_besides (c : Ch) (p : Pt) (h : AtomHead) (s : State) (u : State) (hu : execAtomicUmin32 c p h s = .next u) : u.besides c = s.besides c := by
  obtain rfl := Host.Outcome.next.inj hu
  simp 

theorem execAtomicUmax32_besides (c : Ch) (p : Pt) (h : AtomHead) (s : State) (u : State) (hu : execAtomicUmax32 c p h s = .next u) : u.besides c = s.besides c := by
  obtain rfl := Host.Outcome.next.inj hu
  simp 

theorem execAtomicSmin32_besides (c : Ch) (p : Pt) (h : AtomHead) (s : State) (u : State) (hu : execAtomicSmin32 c p h s = .next u) : u.besides c = s.besides c := by
  obtain rfl := Host.Outcome.next.inj hu
  simp 

theorem execAtomicSmax32_besides (c : Ch) (p : Pt) (h : AtomHead) (s : State) (u : State) (hu : execAtomicSmax32 c p h s = .next u) : u.besides c = s.besides c := by
  obtain rfl := Host.Outcome.next.inj hu
  simp 

theorem execAtomicSwap32_besides (c : Ch) (p : Pt) (h : AtomHead) (s : State) (u : State) (hu : execAtomicSwap32 c p h s = .next u) : u.besides c = s.besides c := by
  obtain rfl := Host.Outcome.next.inj hu
  simp 

theorem execAtomicCas32_besides (c : Ch) (p : Pt) (h : AtomHead) (s : State) (u : State) (hu : execAtomicCas32 c p h s = .next u) : u.besides c = s.besides c := by
  obtain rfl := Host.Outcome.next.inj hu
  simp 

theorem execRoundTimeout_besides (c : Ch) (addr round : Nat) (s : State) (u : State) (hu : execRoundTimeout c addr round s = .next u) : u.besides c = s.besides c := by
  obtain rfl := Host.Outcome.next.inj hu
  (try dsimp only)
  repeat' split
  all_goals first | rfl | simp

theorem execReadData_besides (c : Ch) (p : Pt) (h : RespHead) (data : List Byte) (poisoned : List Nat) (s : State) (u : State) (hu : execReadData c p h data poisoned s = .next u) : u.besides c = s.besides c := by
  obtain rfl := Host.Outcome.next.inj hu
  refine onTrain_besides _ _ _ _ _ _ _ (fun t => ?_)
  (try dsimp only)
  repeat' split
  all_goals first | rfl | simp

theorem execWriteAck_besides (c : Ch) (p : Pt) (h : RespHead) (s : State) (u : State) (hu : execWriteAck c p h s = .next u) : u.besides c = s.besides c := by
  obtain rfl := Host.Outcome.next.inj hu
  refine onTrain_besides _ _ _ _ _ _ _ (fun t => ?_)
  (try dsimp only)
  repeat' split
  all_goals first | rfl | simp

theorem execAtomicResult_besides (c : Ch) (p : Pt) (h : RespHead) (s : State) (u : State) (hu : execAtomicResult c p h s = .next u) :
    u.besides c = s.besides c := by
  obtain rfl := Host.Outcome.next.inj hu
  refine onTrain_besides _ _ _ _ _ _ _ (fun t => ?_)
  (try dsimp only)
  split
  · rfl
  · split
    · simp
    · rw [settle_besides, touch_besides]
      split <;> simp

theorem execDetour_besides (c : Ch) (p : Pt) (h : MailHead) (inner : Inner) (s : State) (u : State) (hu : execDetour c p h inner s = .next u) : u.besides c = s.besides c := by
  obtain rfl := Host.Outcome.next.inj hu
  (try dsimp only)
  repeat' split
  all_goals first | rfl | simp

theorem execSignalAdd_besides (w : At) (s : State) (u : State) (hu : execSignalAdd w s = .next u) : u.besides w.ch = s.besides w.ch := by
  obtain rfl := Host.Outcome.next.inj hu
  refine (signalCar_besides _ _ _ _ (fun e t u h => ?_)).trans (meet_besides _ _)
  obtain rfl := Option.some.inj h; simp

theorem execSignalWait_besides (w : At) (s : State) (u : State) (hu : execSignalWait w s = .next u) : u.besides w.ch = s.besides w.ch := by
  obtain rfl := Host.Outcome.next.inj hu
  refine (signalCar_besides _ _ _ _ (fun e t u h => ?_)).trans (meet_besides _ _)
  revert h; (try dsimp only)
  split
  · intro h; obtain rfl := Option.some.inj h; simp
  · intro h; cases h

theorem execLeg_besides (w : At) (s : State) (u : State) (hu : execLeg w s = .next u) : u.besides w.ch = s.besides w.ch := by
  obtain rfl := Host.Outcome.next.inj hu
  simp 

theorem execLoop_besides (w : At) (s : State) (u : State) (hu : execLoop w s = .next u) : u.besides w.ch = s.besides w.ch := by
  obtain rfl := Host.Outcome.next.inj hu
  simp 

theorem execEndloop_besides (w : At) (s : State) (u : State) (hu : execEndloop w s = .next u) : u.besides w.ch = s.besides w.ch := by
  obtain rfl := Host.Outcome.next.inj hu
  simp 

theorem execNop_besides (w : At) (s : State) (u : State) (hu : execNop w s = .next u) : u.besides w.ch = s.besides w.ch := by
  obtain rfl := Host.Outcome.next.inj hu
  simp 

theorem execMark_besides (w : At) (s : State) (u : State) (hu : execMark w s = .next u) : u.besides w.ch = s.besides w.ch := by
  obtain rfl := Host.Outcome.next.inj hu
  refine (controlCar_besides _ _ _ _ (fun e cl t u h => ?_)).trans (meet_besides _ _)
  revert h
  (try dsimp only)
  repeat' split
  all_goals intro h
  all_goals first
    | (cases h; done)
    | (obtain rfl := Option.some.inj h; simp ; done)

theorem execPost_besides (c : Ch) (slot : Nat) (s : State) (u : State) (hu : execPost c slot s = .next u) : u.besides c = s.besides c := by
  obtain rfl := Host.Outcome.next.inj hu
  (try dsimp only)
  repeat' split
  all_goals first | rfl | simp

theorem execCommit_besides (w : At) (s : State) (u : State) (hu : execCommit w s = .next u) : u.besides w.ch = s.besides w.ch := by
  obtain rfl := Host.Outcome.next.inj hu
  dsimp only
  split
  · rename_i t ht
    split at ht
    · simp [reportCommit_besides _ _ _ _ ht]
    · cases ht
  · refine (readPoint_besides _ _ _ _ (fun car t u h => ?_)).trans (meet_besides _ _)
    split at h
    · cases h
    · split at h
      · obtain rfl := Option.some.inj h; simp
      · split at h
        · obtain rfl := Option.some.inj h; simp
        · obtain ⟨v, hv, rfl⟩ := Option.map_eq_some_iff.mp h
          rw [touch_besides]
          generalize hr : State.reportCommit _ _ _ = r
          cases r with
          | none => simp [commonWait_besides _ _ _ _ _ hv]
          | some q => simp [reportCommit_besides _ _ _ _ hr, commonWait_besides _ _ _ _ _ hv]

theorem execVerdict_besides (c : Ch) (layer occ : Nat) (s : State) (u : State) (hu : execVerdict c layer occ s = .next u) : u.besides c = s.besides c := by
  obtain rfl := Host.Outcome.next.inj hu
  dsimp only
  split
  · rfl
  · split
    · rfl
    · rw [settle_besides, touch_besides]
      split <;> simp

theorem execCrowsnestCheck_besides (c : Ch) (wrong : List (Nat × W32)) (s : State) (u : State) (hu : execCrowsnestCheck c wrong s = .next u) : u.besides c = s.besides c := by
  obtain rfl := Host.Outcome.next.inj hu
  (try dsimp only)
  repeat' split
  all_goals first | rfl | simp

theorem execLegBoundary_besides (c : Ch) (s : State) (u : State) (hu : execLegBoundary c s = .next u) : u.besides c = s.besides c := by
  obtain rfl := Host.Outcome.next.inj hu
  repeat' split
  all_goals first | rfl | simp

theorem execSignalDeadlock_besides (c : Ch) (s : State) (u : State) (hu : execSignalDeadlock c s = .next u) : u.besides c = s.besides c := by
  obtain rfl := Host.Outcome.next.inj hu
  simp 

theorem execSignalStall_besides (c : Ch) (s : State) (u : State) (hu : execSignalStall c s = .next u) : u.besides c = s.besides c := by
  obtain rfl := Host.Outcome.next.inj hu
  simp 

theorem execMailAck_besides (c : Ch) (p : Pt) (h : AckHead) (s : State) (u : State) (hu : execMailAck c p h s = .next u) : u.besides c = s.besides c := by
  obtain rfl := Host.Outcome.next.inj hu
  dsimp only
  split
  · rfl
  · refine onTrain_besides _ _ _ _ _ _ _ (fun t => ?_)
    repeat' split
    all_goals simp

theorem execMailTimeout_besides (c : Ch) (slot : Nat) (s : State) (u : State) (hu : execMailTimeout c slot s = .next u) : u.besides c = s.besides c := by
  obtain rfl := Host.Outcome.next.inj hu
  repeat' split
  all_goals first | rfl | simp

theorem execMailRetry_besides (c : Ch) (slot : Nat) (s : State) (u : State) (hu : execMailRetry c slot s = .next u) : u.besides c = s.besides c := by
  obtain rfl := Host.Outcome.next.inj hu
  repeat' split
  all_goals first | rfl | simp

theorem execPartnerTimeout_besides (c : Ch) (mail : Bool) (slot : Nat) (s : State) (u : State) (hu : execPartnerTimeout c mail slot s = .next u) : u.besides c = s.besides c := by
  obtain rfl := Host.Outcome.next.inj hu
  (try dsimp only)
  repeat' split
  all_goals first | rfl | simp

theorem execForward_besides (c : Ch) (p : Pt) (lane op : Nat) (h : MailHead) (data : List Byte) (poisoned : List Nat) (s : State) (u : State) (hu : execForward c p lane op h data poisoned s = .next u) : u.besides c = s.besides c := by
  obtain rfl := Host.Outcome.next.inj hu
  dsimp only
  split
  · rfl
  · refine onTrain_besides _ _ _ _ _ _ _ (fun t => ?_)
    repeat' split
    all_goals simp

theorem execDiscardedFrame_besides (c : Ch) (p : Pt) (s : State) (u : State) (hu : execDiscardedFrame c p s = .next u) : u.besides c = s.besides c := by
  obtain rfl := Host.Outcome.next.inj hu
  simp 

theorem execContributeStart_besides (w : At) (s : State) (u : State) (hu : execContributeStart w s = .next u) : u.besides w.ch = s.besides w.ch := by
  obtain rfl := Host.Outcome.next.inj hu
  refine (yardCar_besides _ _ _ _ _ (fun i e t => ?_)).trans (meet_besides _ _)
  all_goals first | rfl | simp

theorem execContributeAdd_besides (w : At) (s : State) (u : State) (hu : execContributeAdd w s = .next u) : u.besides w.ch = s.besides w.ch := by
  obtain rfl := Host.Outcome.next.inj hu
  refine (yardCar_besides _ _ _ _ _ (fun i e t => ?_)).trans (meet_besides _ _)
  all_goals first | rfl | simp

theorem execContributeFinal_besides (w : At) (s : State) (u : State) (hu : execContributeFinal w s = .next u) : u.besides w.ch = s.besides w.ch := by
  obtain rfl := Host.Outcome.next.inj hu
  refine (yardCar_besides _ _ _ _ _ (fun i e t => ?_)).trans (meet_besides _ _)
  all_goals first | rfl | simp

theorem execContributeOnly_besides (w : At) (s : State) (u : State) (hu : execContributeOnly w s = .next u) : u.besides w.ch = s.besides w.ch := by
  obtain rfl := Host.Outcome.next.inj hu
  refine (yardCar_besides _ _ _ _ _ (fun i e t => ?_)).trans (meet_besides _ _)
  all_goals first | rfl | simp

theorem execDeliver_besides (w : At) (s : State) (u : State) (hu : execDeliver w s = .next u) : u.besides w.ch = s.besides w.ch := by
  obtain rfl := Host.Outcome.next.inj hu
  refine (yardCar_besides _ _ _ _ _ (fun i e t => ?_)).trans (meet_besides _ _)
  all_goals first | rfl | simp

theorem execPublish_besides (w : At) (s : State) (u : State) (hu : execPublish w s = .next u) : u.besides w.ch = s.besides w.ch := by
  obtain rfl := Host.Outcome.next.inj hu
  refine (yardCar_besides _ _ _ _ _ (fun i e t => ?_)).trans (meet_besides _ _)
  (try dsimp only)
  repeat' split
  all_goals first | rfl | simp

theorem execAwait_besides (w : At) (s : State) (u : State) (hu : execAwait w s = .next u) : u.besides w.ch = s.besides w.ch := by
  obtain rfl := Host.Outcome.next.inj hu
  refine (yardCar_besides _ _ _ _ _ (fun i e t => ?_)).trans (meet_besides _ _)
  all_goals first | rfl | simp

theorem execLeaf_besides (c : Ch) (m : YardMsg) (s : State) (u : State) (hu : execLeaf c m s = .next u) : u.besides c = s.besides c := by
  obtain rfl := Host.Outcome.next.inj hu
  simp 

theorem execPair_besides (c : Ch) (m : YardMsg) (s : State) (u : State) (hu : execPair c m s = .next u) : u.besides c = s.besides c := by
  obtain rfl := Host.Outcome.next.inj hu
  simp 

theorem execQuad_besides (c : Ch) (m : YardMsg) (s : State) (u : State) (hu : execQuad c m s = .next u) : u.besides c = s.besides c := by
  obtain rfl := Host.Outcome.next.inj hu
  simp 

theorem execRoot_besides (c : Ch) (m : YardMsg) (s : State) (u : State) (hu : execRoot c m s = .next u) : u.besides c = s.besides c := by
  obtain rfl := Host.Outcome.next.inj hu
  simp 

theorem execYardCopy_besides (c : Ch) (m : YardMsg) (s : State) (u : State) (hu : execYardCopy c m s = .next u) : u.besides c = s.besides c := by
  obtain rfl := Host.Outcome.next.inj hu
  simp 

theorem execSpread_besides (c : Ch) (m : YardMsg) (s : State) (u : State) (hu : execSpread c m s = .next u) : u.besides c = s.besides c := by
  obtain rfl := Host.Outcome.next.inj hu
  simp 

theorem execCredit_besides (c : Ch) (m : YardMsg) (s : State) (u : State) (hu : execCredit c m s = .next u) : u.besides c = s.besides c := by
  obtain rfl := Host.Outcome.next.inj hu
  all_goals first | rfl | simp

theorem execYardCredit_besides (c : Ch) (s : State) (u : State) (hu : execYardCredit c s = .next u) : u.besides c = s.besides c := by
  obtain rfl := Host.Outcome.next.inj hu
  (try dsimp only)
  repeat' split
  all_goals first | rfl | simp

theorem execNodeEvaluation_besides (c : Ch) (seg owner chunk level pos : Nat) (s : State) (u : State) (hu : execNodeEvaluation c seg owner chunk level pos s = .next u) : u.besides c = s.besides c := by
  obtain rfl := Host.Outcome.next.inj hu
  (try dsimp only)
  repeat' split
  all_goals first | rfl | simp

theorem execDeadline_besides (c : Ch) (seg owner chunk m : Nat) (s : State) (u : State) (hu : execDeadline c seg owner chunk m s = .next u) : u.besides c = s.besides c := by
  obtain rfl := Host.Outcome.next.inj hu
  (try dsimp only)
  repeat' split
  all_goals first | rfl | simp

theorem execYardTimeout_besides (c : Ch) (s : State) (u : State) (hu : execYardTimeout c s = .next u) : u.besides c = s.besides c := by
  obtain rfl := Host.Outcome.next.inj hu
  (try dsimp only)
  repeat' split
  all_goals first | rfl | simp

theorem execMail_besides (c : Ch) (p : Pt) (h : MailHead) (data : List Byte) (poisoned : List Nat) (s : State) (u : State) (hu : execMail c p h data poisoned s = .next u) : u.besides c = s.besides c := by
  obtain rfl := Host.Outcome.next.inj hu
  simp 

theorem execLoadEnd_besides (c : Ch) (s : State) (u : State) (hu : execLoadEnd c s = .next u) : u.besides c = s.besides c := by
  obtain rfl := Host.Outcome.next.inj hu
  (try dsimp only)
  repeat' split
  all_goals first | rfl | simp

theorem execThermalForecast_besides (c : Ch) (readings : List RegionReading) (s : State) (u : State) (hu : execThermalForecast c readings s = .next u) : u.besides c = s.besides c := by
  obtain rfl := Host.Outcome.next.inj hu
  simp 

theorem execSensorCleared_besides (c : Ch) (r : Rg) (pair : Fin 2) (s : State) (u : State) (hu : execSensorCleared c r pair s = .next u) : u.besides c = s.besides c := by
  obtain rfl := Host.Outcome.next.inj hu
  simp 

theorem execDbTail_besides (c : Ch) (value : Nat) (s : State) (u : State) (hu : execDbTail c value s = .next u) : u.besides c = s.besides c := by
  obtain rfl := Host.Outcome.next.inj hu
  simp 

theorem execEvtConsumed_besides (c : Ch) (value : Nat) (s : State) (u : State) (hu : execEvtConsumed c value s = .next u) : u.besides c = s.besides c := by
  obtain rfl := Host.Outcome.next.inj hu
  simp 

theorem execHostRead_besides (c : Ch) (addr len : Nat) (faults : List MemFault) (s : State) (u : State) (hu : execHostRead c addr len faults s = .next u) : u.besides c = s.besides c := by
  obtain rfl := Host.Outcome.next.inj hu
  simp 

theorem execRecall_besides (c : Ch) (hostAddr : Nat) (s : State) (u : State) (hu : execRecall c hostAddr s = .next u) : u.besides c = s.besides c := by
  obtain rfl := Host.Outcome.next.inj hu
  simp 

theorem execHostCompletion_besides (c : Ch) (id : Nat) (data : List Byte) (poisoned : Bool) (s : State) (u : State) (hu : execHostCompletion c id data poisoned s = .next u) : u.besides c = s.besides c := by
  obtain rfl := Host.Outcome.next.inj hu
  (try dsimp only)
  repeat' split
  all_goals first | rfl | simp

theorem execFlitReplay_besides (c : Ch) (s : State) (u : State) (hu : execFlitReplay c s = .next u) : u.besides c = s.besides c := by
  obtain rfl := Host.Outcome.next.inj hu
  simp 

theorem execSliceUp_besides (c : Ch) (link : Nat) (s : State) (u : State) (hu : execSliceUp c link s = .next u) : u.besides c = s.besides c := by
  obtain rfl := Host.Outcome.next.inj hu
  simp 

theorem execHostLinkDown_besides (c : Ch) (s : State) (u : State) (hu : execHostLinkDown c s = .next u) : u.besides c = s.besides c := by
  obtain rfl := Host.Outcome.next.inj hu
  simp 

theorem execHostTimeout_besides (c : Ch) (s : State) (u : State) (hu : execHostTimeout c s = .next u) : u.besides c = s.besides c := by
  obtain rfl := Host.Outcome.next.inj hu
  (try dsimp only)
  repeat' split
  all_goals first | rfl | simp

theorem execControlUncorrectable_besides (c : Ch) (structureNo cluster : Nat) (s : State) (u : State) (hu : execControlUncorrectable c structureNo cluster s = .next u) : u.besides c = s.besides c := by
  obtain rfl := Host.Outcome.next.inj hu
  simp 

theorem execComparatorTrip_besides (c : Ch) (comparator die : Nat) (s : State) (u : State) (hu : execComparatorTrip c comparator die s = .next u) : u.besides c = s.besides c := by
  obtain rfl := Host.Outcome.next.inj hu
  simp 

theorem execRootPllLockLoss_besides (c : Ch) (s : State) (u : State) (hu : execRootPllLockLoss c s = .next u) : u.besides c = s.besides c := by
  obtain rfl := Host.Outcome.next.inj hu
  simp 

theorem execWatchdogExpiry_besides (c : Ch) (s : State) (u : State) (hu : execWatchdogExpiry c s = .next u) : u.besides c = s.besides c := by
  obtain rfl := Host.Outcome.next.inj hu
  simp 

theorem execComparatorTest_besides (c : Ch) (failed : Option (Nat × Nat)) (s : State) (u : State) (hu : execComparatorTest c failed s = .next u) : u.besides c = s.besides c := by
  obtain rfl := Host.Outcome.next.inj hu
  (try dsimp only)
  repeat' split
  all_goals first | rfl | simp

theorem execResetDone_besides (c : Ch) (s : State) (u : State) (hu : execResetDone c s = .next u) : u.besides c = s.besides c := by
  obtain rfl := Host.Outcome.next.inj hu
  simp 

theorem execConverterFault_besides (c : Ch) (rail : Fin 4) (s : State) (u : State) (hu : execConverterFault c rail s = .next u) : u.besides c = s.besides c := by
  obtain rfl := Host.Outcome.next.inj hu
  simp 

theorem execPatrolScrub_besides (c : Ch) (addr : Nat) (found : ScrubFinding) (s : State) (u : State) (hu : execPatrolScrub c addr found s = .next u) : u.besides c = s.besides c := by
  obtain rfl := Host.Outcome.next.inj hu
  repeat' split
  all_goals first | rfl | simp

theorem execFarTrained_besides (c : Ch) (link : Option (Nat × Nat)) (s : State) (u : State) (hu : execFarTrained c link s = .next u) : u.besides c = s.besides c := by
  obtain rfl := Host.Outcome.next.inj hu
  simp 

theorem execFarTierDown_besides (c : Ch) (s : State) (u : State) (hu : execFarTierDown c s = .next u) : u.besides c = s.besides c := by
  obtain rfl := Host.Outcome.next.inj hu
  simp 

theorem execRootLock_besides (c : Ch) (s : State) (u : State) (hu : execRootLock c s = .next u) : u.besides c = s.besides c := by
  obtain rfl := Host.Outcome.next.inj hu
  simp 

theorem execGddr7Training_besides (c : Ch) (device : Fin 8) (ok : Bool) (s : State) (u : State) (hu : execGddr7Training c device ok s = .next u) : u.besides c = s.besides c := by
  obtain rfl := Host.Outcome.next.inj hu
  simp 

theorem execRegionGroup_besides (c : Ch) (group : Fin 4) (results : List RegionBoot) (s : State) (u : State) (hu : execRegionGroup c group results s = .next u) : u.besides c = s.besides c := by
  obtain rfl := Host.Outcome.next.inj hu
  simp 

theorem execBootWait_besides (c : Ch) (s : State) (u : State) (hu : execBootWait c s = .next u) : u.besides c = s.besides c := by
  obtain rfl := Host.Outcome.next.inj hu
  simp 

theorem execAdd_besides (w : At) (s : State) (u : State) (hu : execAdd w s = .next u) : u.besides w.ch = s.besides w.ch := by
  obtain rfl := Host.Outcome.next.inj hu
  simp 

theorem execSub_besides (w : At) (s : State) (u : State) (hu : execSub w s = .next u) : u.besides w.ch = s.besides w.ch := by
  obtain rfl := Host.Outcome.next.inj hu
  simp 

theorem execMul_besides (w : At) (s : State) (u : State) (hu : execMul w s = .next u) : u.besides w.ch = s.besides w.ch := by
  obtain rfl := Host.Outcome.next.inj hu
  simp 

theorem execFma_besides (w : At) (s : State) (u : State) (hu : execFma w s = .next u) : u.besides w.ch = s.besides w.ch := by
  obtain rfl := Host.Outcome.next.inj hu
  simp 

theorem execAxpby_besides (w : At) (s : State) (u : State) (hu : execAxpby w s = .next u) : u.besides w.ch = s.besides w.ch := by
  obtain rfl := Host.Outcome.next.inj hu
  simp 

theorem execMin_besides (w : At) (s : State) (u : State) (hu : execMin w s = .next u) : u.besides w.ch = s.besides w.ch := by
  obtain rfl := Host.Outcome.next.inj hu
  simp 

theorem execMax_besides (w : At) (s : State) (u : State) (hu : execMax w s = .next u) : u.besides w.ch = s.besides w.ch := by
  obtain rfl := Host.Outcome.next.inj hu
  simp 

theorem execAbs_besides (w : At) (s : State) (u : State) (hu : execAbs w s = .next u) : u.besides w.ch = s.besides w.ch := by
  obtain rfl := Host.Outcome.next.inj hu
  simp 

theorem execNeg_besides (w : At) (s : State) (u : State) (hu : execNeg w s = .next u) : u.besides w.ch = s.besides w.ch := by
  obtain rfl := Host.Outcome.next.inj hu
  simp 

theorem execDiv_besides (w : At) (s : State) (u : State) (hu : execDiv w s = .next u) : u.besides w.ch = s.besides w.ch := by
  obtain rfl := Host.Outcome.next.inj hu
  simp 

theorem execSqrt_besides (w : At) (s : State) (u : State) (hu : execSqrt w s = .next u) : u.besides w.ch = s.besides w.ch := by
  obtain rfl := Host.Outcome.next.inj hu
  simp 

theorem execLdexp_besides (w : At) (s : State) (u : State) (hu : execLdexp w s = .next u) : u.besides w.ch = s.besides w.ch := by
  obtain rfl := Host.Outcome.next.inj hu
  simp 

theorem execClamp_besides (w : At) (s : State) (u : State) (hu : execClamp w s = .next u) : u.besides w.ch = s.besides w.ch := by
  obtain rfl := Host.Outcome.next.inj hu
  simp 

theorem execExp_besides (w : At) (s : State) (u : State) (hu : execExp w s = .next u) : u.besides w.ch = s.besides w.ch := by
  obtain rfl := Host.Outcome.next.inj hu
  simp 

theorem execLog_besides (w : At) (s : State) (u : State) (hu : execLog w s = .next u) : u.besides w.ch = s.besides w.ch := by
  obtain rfl := Host.Outcome.next.inj hu
  simp 

theorem execRsqrt_besides (w : At) (s : State) (u : State) (hu : execRsqrt w s = .next u) : u.besides w.ch = s.besides w.ch := by
  obtain rfl := Host.Outcome.next.inj hu
  simp 

theorem execTanh_besides (w : At) (s : State) (u : State) (hu : execTanh w s = .next u) : u.besides w.ch = s.besides w.ch := by
  obtain rfl := Host.Outcome.next.inj hu
  simp 

theorem execSigmoid_besides (w : At) (s : State) (u : State) (hu : execSigmoid w s = .next u) : u.besides w.ch = s.besides w.ch := by
  obtain rfl := Host.Outcome.next.inj hu
  simp 

theorem execGelu_besides (w : At) (s : State) (u : State) (hu : execGelu w s = .next u) : u.besides w.ch = s.besides w.ch := by
  obtain rfl := Host.Outcome.next.inj hu
  simp 

theorem execSin_besides (w : At) (s : State) (u : State) (hu : execSin w s = .next u) : u.besides w.ch = s.besides w.ch := by
  obtain rfl := Host.Outcome.next.inj hu
  simp 

theorem execCos_besides (w : At) (s : State) (u : State) (hu : execCos w s = .next u) : u.besides w.ch = s.besides w.ch := by
  obtain rfl := Host.Outcome.next.inj hu
  simp 

theorem execLt_besides (w : At) (s : State) (u : State) (hu : execLt w s = .next u) : u.besides w.ch = s.besides w.ch := by
  obtain rfl := Host.Outcome.next.inj hu
  simp 

theorem execLe_besides (w : At) (s : State) (u : State) (hu : execLe w s = .next u) : u.besides w.ch = s.besides w.ch := by
  obtain rfl := Host.Outcome.next.inj hu
  simp 

theorem execEq_besides (w : At) (s : State) (u : State) (hu : execEq w s = .next u) : u.besides w.ch = s.besides w.ch := by
  obtain rfl := Host.Outcome.next.inj hu
  simp 

theorem execNe_besides (w : At) (s : State) (u : State) (hu : execNe w s = .next u) : u.besides w.ch = s.besides w.ch := by
  obtain rfl := Host.Outcome.next.inj hu
  simp 

theorem execSelect_besides (w : At) (s : State) (u : State) (hu : execSelect w s = .next u) : u.besides w.ch = s.besides w.ch := by
  obtain rfl := Host.Outcome.next.inj hu
  simp 

theorem execConvert_besides (w : At) (s : State) (u : State) (hu : execConvert w s = .next u) : u.besides w.ch = s.besides w.ch := by
  obtain rfl := Host.Outcome.next.inj hu
  simp 

theorem execGather_besides (w : At) (s : State) (u : State) (hu : execGather w s = .next u) : u.besides w.ch = s.besides w.ch := by
  obtain rfl := Host.Outcome.next.inj hu
  simp 

theorem execScatterAdd_besides (w : At) (s : State) (u : State) (hu : execScatterAdd w s = .next u) : u.besides w.ch = s.besides w.ch := by
  obtain rfl := Host.Outcome.next.inj hu
  simp 

theorem execScanSum_besides (w : At) (s : State) (u : State) (hu : execScanSum w s = .next u) : u.besides w.ch = s.besides w.ch := by
  obtain rfl := Host.Outcome.next.inj hu
  simp 

theorem execScanXsum_besides (w : At) (s : State) (u : State) (hu : execScanXsum w s = .next u) : u.besides w.ch = s.besides w.ch := by
  obtain rfl := Host.Outcome.next.inj hu
  simp 

theorem execScanMax_besides (w : At) (s : State) (u : State) (hu : execScanMax w s = .next u) : u.besides w.ch = s.besides w.ch := by
  obtain rfl := Host.Outcome.next.inj hu
  simp 

theorem execDiscRev_besides (w : At) (s : State) (u : State) (hu : execDiscRev w s = .next u) : u.besides w.ch = s.besides w.ch := by
  obtain rfl := Host.Outcome.next.inj hu
  simp 

theorem execSort_besides (w : At) (s : State) (u : State) (hu : execSort w s = .next u) : u.besides w.ch = s.besides w.ch := by
  obtain rfl := Host.Outcome.next.inj hu
  refine (issueFrom_besides _ _ _ _ _ (fun e t u h => ?_)).trans (meet_besides _ _)
  revert h
  (try dsimp only)
  repeat' split
  all_goals intro h
  all_goals first
    | (cases h; done)
    | (obtain rfl := Option.some.inj h; simp ; done)

theorem execScalegen_besides (w : At) (s : State) (u : State) (hu : execScalegen w s = .next u) : u.besides w.ch = s.besides w.ch := by
  obtain rfl := Host.Outcome.next.inj hu
  refine (issueFrom_besides _ _ _ _ _ (fun e t u h => ?_)).trans (meet_besides _ _)
  revert h
  (try dsimp only)
  repeat' split
  all_goals intro h
  all_goals first
    | (cases h; done)
    | (obtain rfl := Option.some.inj h; simp ; done)

theorem execRaw_besides (w : At) (s : State) (u : State) (hu : execRaw w s = .next u) : u.besides w.ch = s.besides w.ch := by
  obtain rfl := Host.Outcome.next.inj hu
  simp 

theorem execUniform_besides (w : At) (s : State) (u : State) (hu : execUniform w s = .next u) : u.besides w.ch = s.besides w.ch := by
  obtain rfl := Host.Outcome.next.inj hu
  simp 

theorem execNormal_besides (w : At) (s : State) (u : State) (hu : execNormal w s = .next u) : u.besides w.ch = s.besides w.ch := by
  obtain rfl := Host.Outcome.next.inj hu
  simp 

theorem execBernoulli_besides (w : At) (s : State) (u : State) (hu : execBernoulli w s = .next u) : u.besides w.ch = s.besides w.ch := by
  obtain rfl := Host.Outcome.next.inj hu
  simp 

theorem execDropout_besides (w : At) (s : State) (u : State) (hu : execDropout w s = .next u) : u.besides w.ch = s.besides w.ch := by
  obtain rfl := Host.Outcome.next.inj hu
  simp 

theorem execAdamw_besides (w : At) (s : State) (u : State) (hu : execAdamw w s = .next u) : u.besides w.ch = s.besides w.ch := by
  obtain rfl := Host.Outcome.next.inj hu
  simp 

theorem execLion_besides (w : At) (s : State) (u : State) (hu : execLion w s = .next u) : u.besides w.ch = s.besides w.ch := by
  obtain rfl := Host.Outcome.next.inj hu
  simp 

theorem execSgdm_besides (w : At) (s : State) (u : State) (hu : execSgdm w s = .next u) : u.besides w.ch = s.besides w.ch := by
  obtain rfl := Host.Outcome.next.inj hu
  simp 

theorem execRedSum_besides (w : At) (s : State) (u : State) (hu : execRedSum w s = .next u) : u.besides w.ch = s.besides w.ch := by
  obtain rfl := Host.Outcome.next.inj hu
  simp 

theorem execRedSumsq_besides (w : At) (s : State) (u : State) (hu : execRedSumsq w s = .next u) : u.besides w.ch = s.besides w.ch := by
  obtain rfl := Host.Outcome.next.inj hu
  simp 

theorem execRedMax_besides (w : At) (s : State) (u : State) (hu : execRedMax w s = .next u) : u.besides w.ch = s.besides w.ch := by
  obtain rfl := Host.Outcome.next.inj hu
  simp 

theorem execRedMin_besides (w : At) (s : State) (u : State) (hu : execRedMin w s = .next u) : u.besides w.ch = s.besides w.ch := by
  obtain rfl := Host.Outcome.next.inj hu
  simp 

theorem execRedMaxabs_besides (w : At) (s : State) (u : State) (hu : execRedMaxabs w s = .next u) : u.besides w.ch = s.besides w.ch := by
  obtain rfl := Host.Outcome.next.inj hu
  simp 

end Sys2Proof.Machine
end

