-- ==== Sys2Proof/Laws/ExecClock.lean ====
section
/-! SUPPORT. No command takes another from the queue, counts, or releases the count, but for power-up, loss of power, a module reset and the root lock. -/

namespace Sys2Proof.Machine

theorem execMatmul_clock (w : At) (eng : Fin 4) (faults : List MemFault) (s : State) (u : State) (hu : execMatmul w eng faults s = .next u) : u.clock = s.clock := by
  obtain rfl := Host.Outcome.next.inj hu
  simp [apply_ite State.clock]

theorem execSum_clock (w : At) (eng : Fin 4) (s : State) (u : State) (hu : execSum w eng s = .next u) : u.clock = s.clock := by
  obtain rfl := Host.Outcome.next.inj hu
  simp

theorem execMaxabs_clock (w : At) (eng : Fin 4) (s : State) (u : State) (hu : execMaxabs w eng s = .next u) : u.clock = s.clock := by
  obtain rfl := Host.Outcome.next.inj hu
  simp

theorem execTopk_clock (w : At) (eng : Fin 4) (s : State) (u : State) (hu : execTopk w eng s = .next u) : u.clock = s.clock := by
  obtain rfl := Host.Outcome.next.inj hu
  simp

theorem execPowerShare_clock (p : Measured) (s : State) (u : State) (hu : execPowerShare p s = .next u) : u.clock = s.clock := by
  obtain rfl := Host.Outcome.next.inj hu
  simp [apply_ite State.clock]

theorem execEasingRise_clock (scope : EaseScope) (a : Averages) (s : State) (u : State) (hu : execEasingRise scope a s = .next u) : u.clock = s.clock := by
  obtain rfl := Host.Outcome.next.inj hu
  simp [apply_ite State.clock]

theorem execEasingFall_clock (scope : EaseScope) (a : Averages) (s : State) (u : State) (hu : execEasingFall scope a s = .next u) : u.clock = s.clock := by
  obtain rfl := Host.Outcome.next.inj hu
  simp [apply_ite State.clock]

theorem execSustainedLimit_clock (c : Ch) (easedOf16 : Nat) (amps : List Nat) (s : State) (u : State) (hu : execSustainedLimit c easedOf16 amps s = .next u) : u.clock = s.clock := by
  obtain rfl := Host.Outcome.next.inj hu
  simp [apply_ite State.clock]

theorem execMarginMonitor_clock (c : Ch) (r : Rg) (margin : Nat) (s : State) (u : State) (hu : execMarginMonitor c r margin s = .next u) : u.clock = s.clock := by
  obtain rfl := Host.Outcome.next.inj hu
  (try dsimp only)
  repeat' split
  all_goals first | rfl | simp

theorem execCellFailed_clock (c : Ch) (r : Rg) (cell : Fin 16) (cause : Nat) (s : State) (u : State) (hu : execCellFailed c r cell cause s = .next u) : u.clock = s.clock := by
  obtain rfl := Host.Outcome.next.inj hu
  simp [apply_ite State.clock]

theorem execRegionLost_clock (c : Ch) (r : Rg) (cause : Nat) (s : State) (u : State) (hu : execRegionLost c r cause s = .next u) : u.clock = s.clock := by
  obtain rfl := Host.Outcome.next.inj hu
  simp [apply_ite State.clock]

theorem execUpshiftRamp_clock (c : Ch) (s : State) (u : State) (hu : execUpshiftRamp c s = .next u) : u.clock = s.clock := by
  obtain rfl := Host.Outcome.next.inj hu
  repeat' split
  all_goals rfl

theorem execVoltageCheck_clock (c : Ch) (mv : List Nat) (s : State) (u : State) (hu : execVoltageCheck c mv s = .next u) : u.clock = s.clock := by
  obtain rfl := Host.Outcome.next.inj hu
  (try dsimp only)
  repeat' split
  all_goals first | rfl | simp

theorem execFrequencyChange_clock (c : Ch) (s : State) (u : State) (hu : execFrequencyChange c s = .next u) : u.clock = s.clock := by
  obtain rfl := Host.Outcome.next.inj hu
  (try dsimp only)
  repeat' split
  all_goals first | rfl | simp

theorem execDroop_clock (c : Ch) (r : Rg) (mvBelow : Nat) (held : Stretch) (s : State) (u : State) (hu : execDroop c r mvBelow held s = .next u) : u.clock = s.clock := by
  obtain rfl := Host.Outcome.next.inj hu
  simp [apply_ite State.clock]

theorem execRampGrant_clock (c : Ch) (amps : Nat) (s : State) (u : State) (hu : execRampGrant c amps s = .next u) : u.clock = s.clock := by
  obtain rfl := Host.Outcome.next.inj hu
  (try dsimp only)
  repeat' split
  all_goals first | rfl | simp

theorem execRegionOn_clock (c : Ch) (r : Rg) (s : State) (u : State) (hu : execRegionOn c r s = .next u) : u.clock = s.clock := by
  obtain rfl := Host.Outcome.next.inj hu
  simp [apply_ite State.clock]

theorem execRampRelease_clock (c : Ch) (r : Rg) (s : State) (u : State) (hu : execRampRelease c r s = .next u) : u.clock = s.clock := by
  obtain rfl := Host.Outcome.next.inj hu
  simp [apply_ite State.clock]

theorem execRampDenied_clock (c : Ch) (r : Rg) (amps : Nat) (s : State) (u : State) (hu : execRampDenied c r amps s = .next u) : u.clock = s.clock := by
  obtain rfl := Host.Outcome.next.inj hu
  simp [apply_ite State.clock]

theorem execRampWait_clock (c : Ch) (r : Rg) (s : State) (u : State) (hu : execRampWait c r s = .next u) : u.clock = s.clock := by
  obtain rfl := Host.Outcome.next.inj hu
  simp [apply_ite State.clock]

theorem execShedNAssert_clock (s : State) (u : State) (hu : execShedNAssert s = .next u) : u.clock = s.clock := by
  obtain rfl := Host.Outcome.next.inj hu
  simp [apply_ite State.clock]

theorem execShedNRelease_clock (s : State) (u : State) (hu : execShedNRelease s = .next u) : u.clock = s.clock := by
  obtain rfl := Host.Outcome.next.inj hu
  simp [apply_ite State.clock]

theorem execInputRange_clock (volts : W32) (s : State) (u : State) (hu : execInputRange volts s = .next u) : u.clock = s.clock := by
  obtain rfl := Host.Outcome.next.inj hu
  simp [apply_ite State.clock]

theorem execInputRangeEnd_clock (volts : W32) (s : State) (u : State) (hu : execInputRangeEnd volts s = .next u) : u.clock = s.clock := by
  obtain rfl := Host.Outcome.next.inj hu
  simp [apply_ite State.clock]

theorem execRefclkLost_clock (s : State) (u : State) (hu : execRefclkLost s = .next u) : u.clock = s.clock := by
  obtain rfl := Host.Outcome.next.inj hu
  simp [apply_ite State.clock]

theorem execRefclkRestored_clock (s : State) (u : State) (hu : execRefclkRestored s = .next u) : u.clock = s.clock := by
  obtain rfl := Host.Outcome.next.inj hu
  simp [apply_ite State.clock]

theorem execAlignTimeout_clock (s : State) (u : State) (hu : execAlignTimeout s = .next u) : u.clock = s.clock := by
  obtain rfl := Host.Outcome.next.inj hu
  simp [apply_ite State.clock]

theorem execCopy_clock (w : At) (ahead : List Nat) (faults : List MemFault) (s : State) (u : State) (hu : execCopy w ahead faults s = .next u) : u.clock = s.clock := by
  obtain rfl := Host.Outcome.next.inj hu
  simp

theorem execCompress_clock (w : At) (ahead : List Nat) (faults : List MemFault) (s : State) (u : State) (hu : execCompress w ahead faults s = .next u) : u.clock = s.clock := by
  obtain rfl := Host.Outcome.next.inj hu
  simp

theorem execDecompress_clock (w : At) (ahead : List Nat) (faults : List MemFault) (s : State) (u : State) (hu : execDecompress w ahead faults s = .next u) : u.clock = s.clock := by
  obtain rfl := Host.Outcome.next.inj hu
  simp

theorem execNarrowE4m3_clock (w : At) (ahead : List Nat) (faults : List MemFault) (s : State) (u : State) (hu : execNarrowE4m3 w ahead faults s = .next u) : u.clock = s.clock := by
  obtain rfl := Host.Outcome.next.inj hu
  simp

theorem execWidenE4m3_clock (w : At) (ahead : List Nat) (faults : List MemFault) (s : State) (u : State) (hu : execWidenE4m3 w ahead faults s = .next u) : u.clock = s.clock := by
  obtain rfl := Host.Outcome.next.inj hu
  simp

theorem execDemandPoint_clock (w : At) (slot : Nat) (faults : List MemFault) (s : State) (u : State) (hu : execDemandPoint w slot faults s = .next u) : u.clock = s.clock := by
  obtain rfl := Host.Outcome.next.inj hu
  repeat' split
  all_goals first | rfl | simp

theorem execRefetchDone_clock (w : At) (eng : Fin 4) (s : State) (u : State) (hu : execRefetchDone w eng s = .next u) : u.clock = s.clock := by
  obtain rfl := Host.Outcome.next.inj hu
  (try dsimp only)
  repeat' split
  all_goals first | rfl | simp

theorem execWorldEnd_clock (w : At) (s : State) (u : State) (hu : execWorldEnd w s = .next u) : u.clock = s.clock := by
  obtain rfl := Host.Outcome.next.inj hu
  refine (worldCar_clock _ _ _ _ _ (fun e i a b t => ?_)).trans (meet_clock _ _)
  (try dsimp only)
  split
  · simp
  · split <;> simp

theorem execWorldReset_clock (w : At) (s : State) (u : State) (hu : execWorldReset w s = .next u) : u.clock = s.clock := by
  obtain rfl := Host.Outcome.next.inj hu
  refine (worldCar_clock _ _ _ _ _ (fun e i a b t => ?_)).trans (meet_clock _ _)
  (try dsimp only)
  split <;> simp

theorem execRecord_clock (w : At) (s : State) (u : State) (hu : execRecord w s = .next u) : u.clock = s.clock := by
  obtain rfl := Host.Outcome.next.inj hu
  refine (issueFrom_clock _ _ _ _ _ (fun e t u h => ?_)).trans (meet_clock _ _)
  revert h
  (try dsimp only)
  repeat' split
  all_goals intro h
  all_goals first
    | (cases h; done)
    | (obtain rfl := Option.some.inj h; simp; done)

theorem execAdvance_clock (w : At) (s : State) (u : State) (hu : execAdvance w s = .next u) : u.clock = s.clock := by
  obtain rfl := Host.Outcome.next.inj hu
  simp

theorem execSend_clock (w : At) (s : State) (u : State) (hu : execSend w s = .next u) : u.clock = s.clock := by
  obtain rfl := Host.Outcome.next.inj hu
  refine (doorbellCar_clock _ _ _ _ _ (fun n b t u h => ?_)).trans (meet_clock _ _)
  revert h; (try dsimp only)
  repeat' split
  all_goals first | (intro h; cases h; done) | (intro h; obtain rfl := Ring.done.inj h; simp)

theorem execAtomic_clock (w : At) (s : State) (u : State) (hu : execAtomic w s = .next u) : u.clock = s.clock := by
  obtain rfl := Host.Outcome.next.inj hu
  refine (doorbellCar_clock _ _ _ _ _ (fun n b t u h => ?_)).trans (meet_clock _ _)
  revert h; (try dsimp only)
  repeat' split
  all_goals first | (intro h; cases h; done) | (intro h; obtain rfl := Ring.done.inj h; simp)

theorem execFence_clock (w : At) (s : State) (u : State) (hu : execFence w s = .next u) : u.clock = s.clock := by
  obtain rfl := Host.Outcome.next.inj hu
  refine (doorbellCar_clock _ _ _ _ _ (fun n b t u h => ?_)).trans (meet_clock _ _)
  revert h
  repeat' split
  all_goals first | (intro h; cases h; done) | (intro h; obtain rfl := Ring.done.inj h; simp)

theorem execHello_clock (c : Ch) (p : Pt) (hello : Hello) (s : State) (u : State) (hu : execHello c p hello s = .next u) : u.clock = s.clock := by
  obtain rfl := Host.Outcome.next.inj hu
  simp [apply_ite State.clock]

theorem execHelloTransmit_clock (c : Ch) (p : Pt) (s : State) (u : State) (hu : execHelloTransmit c p s = .next u) : u.clock = s.clock := by
  obtain rfl := Host.Outcome.next.inj hu
  simp [apply_ite State.clock]

theorem execLinkUp_clock (c : Ch) (p : Pt) (hello : Hello) (s : State) (u : State) (hu : execLinkUp c p hello s = .next u) : u.clock = s.clock := by
  obtain rfl := Host.Outcome.next.inj hu
  simp [apply_ite State.clock]

theorem execPortFailed_clock (c : Ch) (p : Pt) (s : State) (u : State) (hu : execPortFailed c p s = .next u) : u.clock = s.clock := by
  obtain rfl := Host.Outcome.next.inj hu
  simp [apply_ite State.clock]

theorem execCreditReturn_clock (c : Ch) (p : Pt) (s : State) (u : State) (hu : execCreditReturn c p s = .next u) : u.clock = s.clock := by
  obtain rfl := Host.Outcome.next.inj hu
  simp [apply_ite State.clock]

theorem execCtrl_clock (c : Ch) (p : Pt) (k : Ctrl) (s : State) (u : State) (hu : execCtrl c p k s = .next u) : u.clock = s.clock := by
  obtain rfl := Host.Outcome.next.inj hu
  simp [apply_ite State.clock]

theorem execFailedWagon_clock (c : Ch) (p : Pt) (lseq : Nat) (s : State) (u : State) (hu : execFailedWagon c p lseq s = .next u) : u.clock = s.clock := by
  obtain rfl := Host.Outcome.next.inj hu
  simp [apply_ite State.clock]

theorem execPortDown_clock (c : Ch) (p : Pt) (lockLost : Bool) (s : State) (u : State) (hu : execPortDown c p lockLost s = .next u) : u.clock = s.clock := by
  obtain rfl := Host.Outcome.next.inj hu
  simp [apply_ite State.clock]

theorem execRead_clock (c : Ch) (p : Pt) (h : ReadReq) (s : State) (u : State) (hu : execRead c p h s = .next u) : u.clock = s.clock := by
  obtain rfl := Host.Outcome.next.inj hu
  simp

theorem execWrite_clock (c : Ch) (p : Pt) (h : ReqHead) (data : List Byte) (poisoned : List Nat) (s : State) (u : State) (hu : execWrite c p h data poisoned s = .next u) : u.clock = s.clock := by
  obtain rfl := Host.Outcome.next.inj hu
  simp

theorem execAtomicAdd64_clock (c : Ch) (p : Pt) (h : AtomHead) (s : State) (u : State) (hu : execAtomicAdd64 c p h s = .next u) : u.clock = s.clock := by
  obtain rfl := Host.Outcome.next.inj hu
  simp

theorem execAtomicUmin64_clock (c : Ch) (p : Pt) (h : AtomHead) (s : State) (u : State) (hu : execAtomicUmin64 c p h s = .next u) : u.clock = s.clock := by
  obtain rfl := Host.Outcome.next.inj hu
  simp

theorem execAtomicUmax64_clock (c : Ch) (p : Pt) (h : AtomHead) (s : State) (u : State) (hu : execAtomicUmax64 c p h s = .next u) : u.clock = s.clock := by
  obtain rfl := Host.Outcome.next.inj hu
  simp

theorem execAtomicSmin64_clock (c : Ch) (p : Pt) (h : AtomHead) (s : State) (u : State) (hu : execAtomicSmin64 c p h s = .next u) : u.clock = s.clock := by
  obtain rfl := Host.Outcome.next.inj hu
  simp

theorem execAtomicSmax64_clock (c : Ch) (p : Pt) (h : AtomHead) (s : State) (u : State) (hu : execAtomicSmax64 c p h s = .next u) : u.clock = s.clock := by
  obtain rfl := Host.Outcome.next.inj hu
  simp

theorem execAtomicSwap64_clock (c : Ch) (p : Pt) (h : AtomHead) (s : State) (u : State) (hu : execAtomicSwap64 c p h s = .next u) : u.clock = s.clock := by
  obtain rfl := Host.Outcome.next.inj hu
  simp

theorem execAtomicCas64_clock (c : Ch) (p : Pt) (h : AtomHead) (s : State) (u : State) (hu : execAtomicCas64 c p h s = .next u) : u.clock = s.clock := by
  obtain rfl := Host.Outcome.next.inj hu
  simp

theorem execAtomicAdd32_clock (c : Ch) (p : Pt) (h : AtomHead) (s : State) (u : State) (hu : execAtomicAdd32 c p h s = .next u) : u.clock = s.clock := by
  obtain rfl := Host.Outcome.next.inj hu
  simp

theorem execAtomicUmin32_clock (c : Ch) (p : Pt) (h : AtomHead) (s : State) (u : State) (hu : execAtomicUmin32 c p h s = .next u) : u.clock = s.clock := by
  obtain rfl := Host.Outcome.next.inj hu
  simp

theorem execAtomicUmax32_clock (c : Ch) (p : Pt) (h : AtomHead) (s : State) (u : State) (hu : execAtomicUmax32 c p h s = .next u) : u.clock = s.clock := by
  obtain rfl := Host.Outcome.next.inj hu
  simp

theorem execAtomicSmin32_clock (c : Ch) (p : Pt) (h : AtomHead) (s : State) (u : State) (hu : execAtomicSmin32 c p h s = .next u) : u.clock = s.clock := by
  obtain rfl := Host.Outcome.next.inj hu
  simp

theorem execAtomicSmax32_clock (c : Ch) (p : Pt) (h : AtomHead) (s : State) (u : State) (hu : execAtomicSmax32 c p h s = .next u) : u.clock = s.clock := by
  obtain rfl := Host.Outcome.next.inj hu
  simp

theorem execAtomicSwap32_clock (c : Ch) (p : Pt) (h : AtomHead) (s : State) (u : State) (hu : execAtomicSwap32 c p h s = .next u) : u.clock = s.clock := by
  obtain rfl := Host.Outcome.next.inj hu
  simp

theorem execAtomicCas32_clock (c : Ch) (p : Pt) (h : AtomHead) (s : State) (u : State) (hu : execAtomicCas32 c p h s = .next u) : u.clock = s.clock := by
  obtain rfl := Host.Outcome.next.inj hu
  simp

theorem execRoundTimeout_clock (c : Ch) (addr round : Nat) (s : State) (u : State) (hu : execRoundTimeout c addr round s = .next u) : u.clock = s.clock := by
  obtain rfl := Host.Outcome.next.inj hu
  (try dsimp only)
  repeat' split
  all_goals first | rfl | simp

theorem execReadData_clock (c : Ch) (p : Pt) (h : RespHead) (data : List Byte) (poisoned : List Nat) (s : State) (u : State) (hu : execReadData c p h data poisoned s = .next u) : u.clock = s.clock := by
  obtain rfl := Host.Outcome.next.inj hu
  refine onTrain_clock _ _ _ _ _ _ _ (fun t => ?_)
  (try dsimp only)
  repeat' split
  all_goals first | rfl | simp

theorem execWriteAck_clock (c : Ch) (p : Pt) (h : RespHead) (s : State) (u : State) (hu : execWriteAck c p h s = .next u) : u.clock = s.clock := by
  obtain rfl := Host.Outcome.next.inj hu
  refine onTrain_clock _ _ _ _ _ _ _ (fun t => ?_)
  (try dsimp only)
  repeat' split
  all_goals first | rfl | simp

theorem execAtomicResult_clock (c : Ch) (p : Pt) (h : RespHead) (s : State) (u : State) (hu : execAtomicResult c p h s = .next u) : u.clock = s.clock := by
  obtain rfl := Host.Outcome.next.inj hu
  refine onTrain_clock _ _ _ _ _ _ _ (fun t => ?_)
  (try dsimp only)
  repeat' split
  all_goals first | rfl | simp

theorem execDetour_clock (c : Ch) (p : Pt) (h : MailHead) (inner : Inner) (s : State) (u : State) (hu : execDetour c p h inner s = .next u) : u.clock = s.clock := by
  obtain rfl := Host.Outcome.next.inj hu
  (try dsimp only)
  repeat' split
  all_goals first | rfl | simp

theorem execSignalAdd_clock (w : At) (s : State) (u : State) (hu : execSignalAdd w s = .next u) : u.clock = s.clock := by
  obtain rfl := Host.Outcome.next.inj hu
  refine (signalCar_clock _ _ _ _ (fun e t u h => ?_)).trans (meet_clock _ _)
  obtain rfl := Option.some.inj h; simp

theorem execSignalWait_clock (w : At) (s : State) (u : State) (hu : execSignalWait w s = .next u) : u.clock = s.clock := by
  obtain rfl := Host.Outcome.next.inj hu
  refine (signalCar_clock _ _ _ _ (fun e t u h => ?_)).trans (meet_clock _ _)
  revert h; (try dsimp only)
  split
  · intro h; obtain rfl := Option.some.inj h; simp
  · intro h; cases h

theorem execLeg_clock (w : At) (s : State) (u : State) (hu : execLeg w s = .next u) : u.clock = s.clock := by
  obtain rfl := Host.Outcome.next.inj hu
  simp

theorem execLoop_clock (w : At) (s : State) (u : State) (hu : execLoop w s = .next u) : u.clock = s.clock := by
  obtain rfl := Host.Outcome.next.inj hu
  simp

theorem execEndloop_clock (w : At) (s : State) (u : State) (hu : execEndloop w s = .next u) : u.clock = s.clock := by
  obtain rfl := Host.Outcome.next.inj hu
  simp

theorem execNop_clock (w : At) (s : State) (u : State) (hu : execNop w s = .next u) : u.clock = s.clock := by
  obtain rfl := Host.Outcome.next.inj hu
  simp

theorem execMark_clock (w : At) (s : State) (u : State) (hu : execMark w s = .next u) : u.clock = s.clock := by
  obtain rfl := Host.Outcome.next.inj hu
  refine (controlCar_clock _ _ _ _ (fun e cl t u h => ?_)).trans (meet_clock _ _)
  revert h
  (try dsimp only)
  repeat' split
  all_goals intro h
  all_goals first
    | (cases h; done)
    | (obtain rfl := Option.some.inj h; simp; done)

theorem execPost_clock (c : Ch) (slot : Nat) (s : State) (u : State) (hu : execPost c slot s = .next u) : u.clock = s.clock := by
  obtain rfl := Host.Outcome.next.inj hu
  (try dsimp only)
  repeat' split
  all_goals first | rfl | simp

theorem execCommit_clock (w : At) (s : State) (u : State) (hu : execCommit w s = .next u) : u.clock = s.clock := by
  obtain rfl := Host.Outcome.next.inj hu
  dsimp only
  split
  · rename_i t ht
    split at ht
    · simp [reportCommit_clock _ _ _ _ ht]
    · cases ht
  · refine (readPoint_clock _ _ _ _ (fun car t u h => ?_)).trans (meet_clock _ _)
    split at h
    · cases h
    · split at h
      · obtain rfl := Option.some.inj h; simp
      · split at h
        · obtain rfl := Option.some.inj h; simp
        · obtain ⟨v, hv, rfl⟩ := Option.map_eq_some_iff.mp h
          rw [touch_clock]
          generalize hr : State.reportCommit _ _ _ = r
          cases r with
          | none => simp [commonWait_clock _ _ _ _ _ hv]
          | some q => simp [reportCommit_clock _ _ _ _ hr, commonWait_clock _ _ _ _ _ hv]

theorem execVerdict_clock (c : Ch) (layer occ : Nat) (s : State) (u : State) (hu : execVerdict c layer occ s = .next u) : u.clock = s.clock := by
  obtain rfl := Host.Outcome.next.inj hu
  dsimp only
  split
  · rfl
  · split
    · rfl
    · rw [settle_clock, touch_clock]
      split <;> simp

theorem execCrowsnestCheck_clock (c : Ch) (wrong : List (Nat × W32)) (s : State) (u : State) (hu : execCrowsnestCheck c wrong s = .next u) : u.clock = s.clock := by
  obtain rfl := Host.Outcome.next.inj hu
  (try dsimp only)
  repeat' split
  all_goals first | rfl | simp

theorem execLegBoundary_clock (c : Ch) (s : State) (u : State) (hu : execLegBoundary c s = .next u) : u.clock = s.clock := by
  obtain rfl := Host.Outcome.next.inj hu
  repeat' split
  all_goals first | rfl | simp

theorem execSignalDeadlock_clock (c : Ch) (s : State) (u : State) (hu : execSignalDeadlock c s = .next u) : u.clock = s.clock := by
  obtain rfl := Host.Outcome.next.inj hu
  simp [apply_ite State.clock]

theorem execSignalStall_clock (c : Ch) (s : State) (u : State) (hu : execSignalStall c s = .next u) : u.clock = s.clock := by
  obtain rfl := Host.Outcome.next.inj hu
  simp [apply_ite State.clock]

theorem execMailAck_clock (c : Ch) (p : Pt) (h : AckHead) (s : State) (u : State) (hu : execMailAck c p h s = .next u) : u.clock = s.clock := by
  obtain rfl := Host.Outcome.next.inj hu
  dsimp only
  split
  · rfl
  · refine onTrain_clock _ _ _ _ _ _ _ (fun t => ?_)
    repeat' split
    all_goals simp

theorem execMailTimeout_clock (c : Ch) (slot : Nat) (s : State) (u : State) (hu : execMailTimeout c slot s = .next u) : u.clock = s.clock := by
  obtain rfl := Host.Outcome.next.inj hu
  repeat' split
  all_goals first | rfl | simp

theorem execMailRetry_clock (c : Ch) (slot : Nat) (s : State) (u : State) (hu : execMailRetry c slot s = .next u) : u.clock = s.clock := by
  obtain rfl := Host.Outcome.next.inj hu
  repeat' split
  all_goals first | rfl | simp

theorem execPartnerTimeout_clock (c : Ch) (mail : Bool) (slot : Nat) (s : State) (u : State) (hu : execPartnerTimeout c mail slot s = .next u) : u.clock = s.clock := by
  obtain rfl := Host.Outcome.next.inj hu
  (try dsimp only)
  repeat' split
  all_goals first | rfl | simp

theorem execForward_clock (c : Ch) (p : Pt) (lane op : Nat) (h : MailHead) (data : List Byte) (poisoned : List Nat) (s : State) (u : State) (hu : execForward c p lane op h data poisoned s = .next u) : u.clock = s.clock := by
  obtain rfl := Host.Outcome.next.inj hu
  dsimp only
  split
  · rfl
  · refine onTrain_clock _ _ _ _ _ _ _ (fun t => ?_)
    repeat' split
    all_goals simp

theorem execDiscardedFrame_clock (c : Ch) (p : Pt) (s : State) (u : State) (hu : execDiscardedFrame c p s = .next u) : u.clock = s.clock := by
  obtain rfl := Host.Outcome.next.inj hu
  simp [apply_ite State.clock]

theorem execNeighbourSolicitation_clock (port : Option (Ch × Pt)) (target : List Byte) (s : State) (u : State) (hu : execNeighbourSolicitation port target s = .next u) : u.clock = s.clock := by
  obtain rfl := Host.Outcome.next.inj hu
  (try dsimp only)
  repeat' split
  all_goals rfl

theorem execContributeStart_clock (w : At) (s : State) (u : State) (hu : execContributeStart w s = .next u) : u.clock = s.clock := by
  obtain rfl := Host.Outcome.next.inj hu
  refine (yardCar_clock _ _ _ _ _ (fun i e t => ?_)).trans (meet_clock _ _)
  all_goals first | rfl | simp

theorem execContributeAdd_clock (w : At) (s : State) (u : State) (hu : execContributeAdd w s = .next u) : u.clock = s.clock := by
  obtain rfl := Host.Outcome.next.inj hu
  refine (yardCar_clock _ _ _ _ _ (fun i e t => ?_)).trans (meet_clock _ _)
  all_goals first | rfl | simp

theorem execContributeFinal_clock (w : At) (s : State) (u : State) (hu : execContributeFinal w s = .next u) : u.clock = s.clock := by
  obtain rfl := Host.Outcome.next.inj hu
  refine (yardCar_clock _ _ _ _ _ (fun i e t => ?_)).trans (meet_clock _ _)
  all_goals first | rfl | simp

theorem execContributeOnly_clock (w : At) (s : State) (u : State) (hu : execContributeOnly w s = .next u) : u.clock = s.clock := by
  obtain rfl := Host.Outcome.next.inj hu
  refine (yardCar_clock _ _ _ _ _ (fun i e t => ?_)).trans (meet_clock _ _)
  all_goals first | rfl | simp

theorem execDeliver_clock (w : At) (s : State) (u : State) (hu : execDeliver w s = .next u) : u.clock = s.clock := by
  obtain rfl := Host.Outcome.next.inj hu
  refine (yardCar_clock _ _ _ _ _ (fun i e t => ?_)).trans (meet_clock _ _)
  all_goals first | rfl | simp

theorem execPublish_clock (w : At) (s : State) (u : State) (hu : execPublish w s = .next u) : u.clock = s.clock := by
  obtain rfl := Host.Outcome.next.inj hu
  refine (yardCar_clock _ _ _ _ _ (fun i e t => ?_)).trans (meet_clock _ _)
  (try dsimp only)
  repeat' split
  all_goals first | rfl | simp

theorem execAwait_clock (w : At) (s : State) (u : State) (hu : execAwait w s = .next u) : u.clock = s.clock := by
  obtain rfl := Host.Outcome.next.inj hu
  refine (yardCar_clock _ _ _ _ _ (fun i e t => ?_)).trans (meet_clock _ _)
  all_goals first | rfl | simp

theorem execLeaf_clock (c : Ch) (m : YardMsg) (s : State) (u : State) (hu : execLeaf c m s = .next u) : u.clock = s.clock := by
  obtain rfl := Host.Outcome.next.inj hu
  simp

theorem execPair_clock (c : Ch) (m : YardMsg) (s : State) (u : State) (hu : execPair c m s = .next u) : u.clock = s.clock := by
  obtain rfl := Host.Outcome.next.inj hu
  simp

theorem execQuad_clock (c : Ch) (m : YardMsg) (s : State) (u : State) (hu : execQuad c m s = .next u) : u.clock = s.clock := by
  obtain rfl := Host.Outcome.next.inj hu
  simp

theorem execRoot_clock (c : Ch) (m : YardMsg) (s : State) (u : State) (hu : execRoot c m s = .next u) : u.clock = s.clock := by
  obtain rfl := Host.Outcome.next.inj hu
  simp

theorem execYardCopy_clock (c : Ch) (m : YardMsg) (s : State) (u : State) (hu : execYardCopy c m s = .next u) : u.clock = s.clock := by
  obtain rfl := Host.Outcome.next.inj hu
  simp

theorem execSpread_clock (c : Ch) (m : YardMsg) (s : State) (u : State) (hu : execSpread c m s = .next u) : u.clock = s.clock := by
  obtain rfl := Host.Outcome.next.inj hu
  simp

theorem execCredit_clock (c : Ch) (m : YardMsg) (s : State) (u : State) (hu : execCredit c m s = .next u) : u.clock = s.clock := by
  obtain rfl := Host.Outcome.next.inj hu
  all_goals first | rfl | simp

theorem execYardCredit_clock (c : Ch) (s : State) (u : State) (hu : execYardCredit c s = .next u) : u.clock = s.clock := by
  obtain rfl := Host.Outcome.next.inj hu
  (try dsimp only)
  repeat' split
  all_goals first | rfl | simp

theorem execNodeEvaluation_clock (c : Ch) (seg owner chunk level pos : Nat) (s : State) (u : State) (hu : execNodeEvaluation c seg owner chunk level pos s = .next u) : u.clock = s.clock := by
  obtain rfl := Host.Outcome.next.inj hu
  (try dsimp only)
  repeat' split
  all_goals first | rfl | simp

theorem execDeadline_clock (c : Ch) (seg owner chunk m : Nat) (s : State) (u : State) (hu : execDeadline c seg owner chunk m s = .next u) : u.clock = s.clock := by
  obtain rfl := Host.Outcome.next.inj hu
  (try dsimp only)
  repeat' split
  all_goals first | rfl | simp

theorem execYardTimeout_clock (c : Ch) (s : State) (u : State) (hu : execYardTimeout c s = .next u) : u.clock = s.clock := by
  obtain rfl := Host.Outcome.next.inj hu
  (try dsimp only)
  repeat' split
  all_goals first | rfl | simp

theorem execMail_clock (c : Ch) (p : Pt) (h : MailHead) (data : List Byte) (poisoned : List Nat) (s : State) (u : State) (hu : execMail c p h data poisoned s = .next u) : u.clock = s.clock := by
  obtain rfl := Host.Outcome.next.inj hu
  simp [apply_ite State.clock]

theorem execLoadEnd_clock (c : Ch) (s : State) (u : State) (hu : execLoadEnd c s = .next u) : u.clock = s.clock := by
  obtain rfl := Host.Outcome.next.inj hu
  (try dsimp only)
  repeat' split
  all_goals first | rfl | simp

theorem execThermalForecast_clock (c : Ch) (readings : List RegionReading) (s : State) (u : State) (hu : execThermalForecast c readings s = .next u) : u.clock = s.clock := by
  obtain rfl := Host.Outcome.next.inj hu
  simp [apply_ite State.clock]

theorem execSensorCleared_clock (c : Ch) (r : Rg) (pair : Fin 2) (s : State) (u : State) (hu : execSensorCleared c r pair s = .next u) : u.clock = s.clock := by
  obtain rfl := Host.Outcome.next.inj hu
  simp [apply_ite State.clock]

theorem execThermalTrip_clock (c : Ch) (r : Rg) (sensor : Fin 4) (reading : Int) (s : State) (u : State) (hu : execThermalTrip c r sensor reading s = .next u) : u.clock = s.clock := by
  obtain rfl := Host.Outcome.next.inj hu
  simp [apply_ite State.clock]

theorem execThermalPowerOff_clock (c : Ch) (r : Rg) (sensor : Fin 4) (reading : Int) (s : State) (u : State) (hu : execThermalPowerOff c r sensor reading s = .next u) : u.clock = s.clock := by
  obtain rfl := Host.Outcome.next.inj hu
  simp [apply_ite State.clock]

theorem execCoolantPoll_clock (first second third : Option (Nat × Nat)) (s : State) (u : State) (hu : execCoolantPoll first second third s = .next u) : u.clock = s.clock := by
  obtain rfl := Host.Outcome.next.inj hu
  simp [apply_ite State.clock]

theorem execCoolantLoss_clock (s : State) (u : State) (hu : execCoolantLoss s = .next u) : u.clock = s.clock := by
  obtain rfl := Host.Outcome.next.inj hu
  repeat' split
  all_goals first | rfl | simp

theorem execInletHigh_clock (s : State) (u : State) (hu : execInletHigh s = .next u) : u.clock = s.clock := by
  obtain rfl := Host.Outcome.next.inj hu
  repeat' split
  all_goals first | rfl | simp

theorem execOpenSession_clock (i3c : Bool) (setup : Nat) (payload : List Byte) (s : State) (u : State) (hu : execOpenSession i3c setup payload s = .next u) : u.clock = s.clock := by
  obtain rfl := Host.Outcome.next.inj hu
  (try dsimp only)
  repeat' split
  all_goals first | rfl | simp

theorem execResponse_clock (i3c : Bool) (setup : Nat) (payload : List Byte) (s : State) (u : State) (hu : execResponse i3c setup payload s = .next u) : u.clock = s.clock := by
  obtain rfl := Host.Outcome.next.inj hu
  (try dsimp only)
  repeat' split
  all_goals first | rfl | simp

theorem execSetupTimeout_clock (number : Nat) (s : State) (u : State) (hu : execSetupTimeout number s = .next u) : u.clock = s.clock := by
  obtain rfl := Host.Outcome.next.inj hu
  simp

theorem execSessionClosed_clock (number : Nat) (s : State) (u : State) (hu : execSessionClosed number s = .next u) : u.clock = s.clock := by
  obtain rfl := Host.Outcome.next.inj hu
  repeat' split
  all_goals first | rfl | simp

theorem execDynamicAddressAssignment_clock (addr : Nat) (_setdasa : Bool) (s : State) (u : State) (hu : execDynamicAddressAssignment addr _setdasa s = .next u) : u.clock = s.clock := by
  obtain rfl := Host.Outcome.next.inj hu
  simp [apply_ite State.clock]

theorem execCommitCount_clock (s : State) (u : State) (hu : execCommitCount s = .next u) : u.clock = s.clock := by
  obtain rfl := Host.Outcome.next.inj hu
  simp

theorem execTxnTimeout_clock (via : Via) (s : State) (u : State) (hu : execTxnTimeout via s = .next u) : u.clock = s.clock := by
  obtain rfl := Host.Outcome.next.inj hu
  repeat' split
  all_goals first | rfl | simp

theorem execManagementDatagram_clock (i3c : Bool) (datagram : List Byte) (s : State) (u : State) (hu : execManagementDatagram i3c datagram s = .next u) : u.clock = s.clock := by
  obtain rfl := Host.Outcome.next.inj hu
  (try dsimp only)
  repeat' split
  all_goals first | rfl | simp

theorem execTtLoad_clock (via : Via) (c : Ch) (addr : Nat) (s : State) (u : State) (hu : execTtLoad via c addr s = .next u) : u.clock = s.clock := by
  obtain rfl := Host.Outcome.next.inj hu
  simp

theorem execStart_clock (via : Via) (c : Ch) (s : State) (u : State) (hu : execStart via c s = .next u) : u.clock = s.clock := by
  obtain rfl := Host.Outcome.next.inj hu
  simp

theorem execResume_clock (via : Via) (c : Ch) (s : State) (u : State) (hu : execResume via c s = .next u) : u.clock = s.clock := by
  obtain rfl := Host.Outcome.next.inj hu
  simp

theorem execHoldRequest_clock (via : Via) (c : Ch) (s : State) (u : State) (hu : execHoldRequest via c s = .next u) : u.clock = s.clock := by
  obtain rfl := Host.Outcome.next.inj hu
  simp

theorem execStandby_clock (via : Via) (c : Ch) (s : State) (u : State) (hu : execStandby via c s = .next u) : u.clock = s.clock := by
  obtain rfl := Host.Outcome.next.inj hu
  simp

theorem execWake_clock (via : Via) (c : Ch) (s : State) (u : State) (hu : execWake via c s = .next u) : u.clock = s.clock := by
  obtain rfl := Host.Outcome.next.inj hu
  simp

theorem execRelease_clock (via : Via) (c : Ch) (s : State) (u : State) (hu : execRelease via c s = .next u) : u.clock = s.clock := by
  obtain rfl := Host.Outcome.next.inj hu
  simp

theorem execReset_clock (via : Via) (c : Ch) (s : State) (u : State) (hu : execReset via c s = .next u) : u.clock = s.clock := by
  obtain rfl := Host.Outcome.next.inj hu
  simp

theorem execPowerOff_clock (via : Via) (c : Ch) (s : State) (u : State) (hu : execPowerOff via c s = .next u) : u.clock = s.clock := by
  obtain rfl := Host.Outcome.next.inj hu
  simp

theorem execPowerOn_clock (via : Via) (c : Ch) (s : State) (u : State) (hu : execPowerOn via c s = .next u) : u.clock = s.clock := by
  obtain rfl := Host.Outcome.next.inj hu
  simp

theorem execClearSafe_clock (via : Via) (s : State) (u : State) (hu : execClearSafe via s = .next u) : u.clock = s.clock := by
  obtain rfl := Host.Outcome.next.inj hu
  simp

theorem execBegin_clock (via : Via) (s : State) (u : State) (hu : execBegin via s = .next u) : u.clock = s.clock := by
  obtain rfl := Host.Outcome.next.inj hu
  simp

theorem execTxnCommit_clock (via : Via) (s : State) (u : State) (hu : execTxnCommit via s = .next u) : u.clock = s.clock := by
  obtain rfl := Host.Outcome.next.inj hu
  simp

theorem execRollback_clock (via : Via) (s : State) (u : State) (hu : execRollback via s = .next u) : u.clock = s.clock := by
  obtain rfl := Host.Outcome.next.inj hu
  simp

theorem execLayerState_clock (via : Via) (c : Ch) (offset : Nat) (value : List Byte) (s : State) (u : State) (hu : execLayerState via c offset value s = .next u) : u.clock = s.clock := by
  obtain rfl := Host.Outcome.next.inj hu
  simp

theorem execAttestNonce_clock (via : Via) (scope : Option Ch) (offset : Nat) (value : List Byte) (s : State) (u : State) (hu : execAttestNonce via scope offset value s = .next u) : u.clock = s.clock := by
  cases scope <;> (obtain rfl := Host.Outcome.next.inj hu; simp)

theorem execFwPending_clock (via : Via) (offset : Nat) (value : List Byte) (s : State) (u : State) (hu : execFwPending via offset value s = .next u) : u.clock = s.clock := by
  obtain rfl := Host.Outcome.next.inj hu
  simp

theorem execFloorCert_clock (via : Via) (offset : Nat) (value : List Byte) (s : State) (u : State) (hu : execFloorCert via offset value s = .next u) : u.clock = s.clock := by
  obtain rfl := Host.Outcome.next.inj hu
  simp

theorem execOwnerKey_clock (via : Via) (offset : Nat) (value : List Byte) (s : State) (u : State) (hu : execOwnerKey via offset value s = .next u) : u.clock = s.clock := by
  obtain rfl := Host.Outcome.next.inj hu
  simp

theorem execOwnerTransfer_clock (via : Via) (offset : Nat) (value : List Byte) (s : State) (u : State) (hu : execOwnerTransfer via offset value s = .next u) : u.clock = s.clock := by
  obtain rfl := Host.Outcome.next.inj hu
  simp

theorem execTenantSlot_clock (via : Via) (c : Ch) (value : List Byte) (s : State) (u : State) (hu : execTenantSlot via c value s = .next u) : u.clock = s.clock := by
  obtain rfl := Host.Outcome.next.inj hu
  simp

theorem execConfigModule_clock (via : Via) (offset : Nat) (value : List Byte) (s : State) (u : State) (hu : execConfigModule via offset value s = .next u) : u.clock = s.clock := by
  obtain rfl := Host.Outcome.next.inj hu
  simp

theorem execConfigChannel_clock (via : Via) (c : Ch) (offset : Nat) (value : List Byte) (s : State) (u : State) (hu : execConfigChannel via c offset value s = .next u) : u.clock = s.clock := by
  obtain rfl := Host.Outcome.next.inj hu
  simp

theorem execDepotSize_clock (via : Via) (c : Ch) (value : List Byte) (s : State) (u : State) (hu : execDepotSize via c value s = .next u) : u.clock = s.clock := by
  obtain rfl := Host.Outcome.next.inj hu
  simp

theorem execFarEnable_clock (via : Via) (c : Ch) (value : List Byte) (s : State) (u : State) (hu : execFarEnable via c value s = .next u) : u.clock = s.clock := by
  obtain rfl := Host.Outcome.next.inj hu
  simp

theorem execLinkEnable_clock (via : Via) (c : Ch) (p : Pt) (value : List Byte) (s : State) (u : State) (hu : execLinkEnable via c p value s = .next u) : u.clock = s.clock := by
  obtain rfl := Host.Outcome.next.inj hu
  simp

theorem execPowerAllowance_clock (via : Via) (value : List Byte) (s : State) (u : State) (hu : execPowerAllowance via value s = .next u) : u.clock = s.clock := by
  obtain rfl := Host.Outcome.next.inj hu
  simp

theorem execEntryWrite_clock (via : Via) (index sub offset : Nat) (value : List Byte) (s : State) (u : State) (hu : execEntryWrite via index sub offset value s = .next u) : u.clock = s.clock := by
  obtain rfl := Host.Outcome.next.inj hu
  simp

theorem execDbStart_clock (c : Ch) (s : State) (u : State) (hu : execDbStart c s = .next u) : u.clock = s.clock := by
  obtain rfl := Host.Outcome.next.inj hu
  simp

theorem execDbResume_clock (c : Ch) (s : State) (u : State) (hu : execDbResume c s = .next u) : u.clock = s.clock := by
  obtain rfl := Host.Outcome.next.inj hu
  simp

theorem execDbHoldRequest_clock (c : Ch) (s : State) (u : State) (hu : execDbHoldRequest c s = .next u) : u.clock = s.clock := by
  obtain rfl := Host.Outcome.next.inj hu
  simp

theorem execDbTtLoad_clock (c : Ch) (s : State) (u : State) (hu : execDbTtLoad c s = .next u) : u.clock = s.clock := by
  obtain rfl := Host.Outcome.next.inj hu
  simp

theorem execDbNop_clock (c : Ch) (s : State) (u : State) (hu : execDbNop c s = .next u) : u.clock = s.clock := by
  obtain rfl := Host.Outcome.next.inj hu
  simp

theorem execEventNotify_clock (ring : Option Ch) (s : State) (u : State) (hu : execEventNotify ring s = .next u) : u.clock = s.clock := by
  obtain rfl := Host.Outcome.next.inj hu
  (try dsimp only)
  repeat' split
  all_goals first | rfl | simp

theorem execDbTail_clock (c : Ch) (value : Nat) (s : State) (u : State) (hu : execDbTail c value s = .next u) : u.clock = s.clock := by
  obtain rfl := Host.Outcome.next.inj hu
  simp [apply_ite State.clock]

theorem execEvtConsumed_clock (c : Ch) (value : Nat) (s : State) (u : State) (hu : execEvtConsumed c value s = .next u) : u.clock = s.clock := by
  obtain rfl := Host.Outcome.next.inj hu
  simp [apply_ite State.clock]

theorem execChMboxGo_clock (c : Ch) (s : State) (u : State) (hu : execChMboxGo c s = .next u) : u.clock = s.clock := by
  obtain rfl := Host.Outcome.next.inj hu
  simp [apply_ite State.clock]

theorem execModMboxGo_clock (c : Ch) (s : State) (u : State) (hu : execModMboxGo c s = .next u) : u.clock = s.clock := by
  obtain rfl := Host.Outcome.next.inj hu
  simp [apply_ite State.clock]

theorem execHostRead_clock (c : Ch) (addr len : Nat) (faults : List MemFault) (s : State) (u : State) (hu : execHostRead c addr len faults s = .next u) : u.clock = s.clock := by
  obtain rfl := Host.Outcome.next.inj hu
  simp [apply_ite State.clock]

theorem execHostWrite_clock (c : Ch) (addr : Nat) (data : List Byte) (s : State) (u : State) (hu : execHostWrite c addr data s = .next u) : u.clock = s.clock := by
  obtain rfl := Host.Outcome.next.inj hu
  simp [apply_ite State.clock]

theorem execRecall_clock (c : Ch) (hostAddr : Nat) (s : State) (u : State) (hu : execRecall c hostAddr s = .next u) : u.clock = s.clock := by
  obtain rfl := Host.Outcome.next.inj hu
  simp [apply_ite State.clock]

theorem execHostCompletion_clock (c : Ch) (id : Nat) (data : List Byte) (poisoned : Bool) (s : State) (u : State) (hu : execHostCompletion c id data poisoned s = .next u) : u.clock = s.clock := by
  obtain rfl := Host.Outcome.next.inj hu
  (try dsimp only)
  repeat' split
  all_goals first | rfl | simp

theorem execFlitReplay_clock (c : Ch) (s : State) (u : State) (hu : execFlitReplay c s = .next u) : u.clock = s.clock := by
  obtain rfl := Host.Outcome.next.inj hu
  simp [apply_ite State.clock]

theorem execSliceUp_clock (c : Ch) (link : Nat) (s : State) (u : State) (hu : execSliceUp c link s = .next u) : u.clock = s.clock := by
  obtain rfl := Host.Outcome.next.inj hu
  simp [apply_ite State.clock]

theorem execHostLinkDown_clock (c : Ch) (s : State) (u : State) (hu : execHostLinkDown c s = .next u) : u.clock = s.clock := by
  obtain rfl := Host.Outcome.next.inj hu
  simp [apply_ite State.clock]

theorem execHostTimeout_clock (c : Ch) (s : State) (u : State) (hu : execHostTimeout c s = .next u) : u.clock = s.clock := by
  obtain rfl := Host.Outcome.next.inj hu
  (try dsimp only)
  repeat' split
  all_goals first | rfl | simp

theorem execControlUncorrectable_clock (c : Ch) (structureNo cluster : Nat) (s : State) (u : State) (hu : execControlUncorrectable c structureNo cluster s = .next u) : u.clock = s.clock := by
  obtain rfl := Host.Outcome.next.inj hu
  simp

theorem execComparatorTrip_clock (c : Ch) (comparator die : Nat) (s : State) (u : State) (hu : execComparatorTrip c comparator die s = .next u) : u.clock = s.clock := by
  obtain rfl := Host.Outcome.next.inj hu
  simp

theorem execRootPllLockLoss_clock (c : Ch) (s : State) (u : State) (hu : execRootPllLockLoss c s = .next u) : u.clock = s.clock := by
  obtain rfl := Host.Outcome.next.inj hu
  simp

theorem execWatchdogExpiry_clock (c : Ch) (s : State) (u : State) (hu : execWatchdogExpiry c s = .next u) : u.clock = s.clock := by
  obtain rfl := Host.Outcome.next.inj hu
  simp

theorem execComparatorTest_clock (c : Ch) (failed : Option (Nat × Nat)) (s : State) (u : State) (hu : execComparatorTest c failed s = .next u) : u.clock = s.clock := by
  obtain rfl := Host.Outcome.next.inj hu
  (try dsimp only)
  repeat' split
  all_goals first | rfl | simp

theorem execResetDone_clock (c : Ch) (s : State) (u : State) (hu : execResetDone c s = .next u) : u.clock = s.clock := by
  obtain rfl := Host.Outcome.next.inj hu
  simp [apply_ite State.clock]

theorem execConverterFault_clock (c : Ch) (rail : Fin 4) (s : State) (u : State) (hu : execConverterFault c rail s = .next u) : u.clock = s.clock := by
  obtain rfl := Host.Outcome.next.inj hu
  simp [apply_ite State.clock]

theorem execPatrolScrub_clock (c : Ch) (addr : Nat) (found : ScrubFinding) (s : State) (u : State) (hu : execPatrolScrub c addr found s = .next u) : u.clock = s.clock := by
  obtain rfl := Host.Outcome.next.inj hu
  repeat' split
  all_goals first | rfl | simp

theorem execFarTrained_clock (c : Ch) (link : Option (Nat × Nat)) (s : State) (u : State) (hu : execFarTrained c link s = .next u) : u.clock = s.clock := by
  obtain rfl := Host.Outcome.next.inj hu
  simp [apply_ite State.clock]

theorem execFarTierDown_clock (c : Ch) (s : State) (u : State) (hu : execFarTierDown c s = .next u) : u.clock = s.clock := by
  obtain rfl := Host.Outcome.next.inj hu
  simp [apply_ite State.clock]

theorem execStationMasterReady_clock (s : State) (u : State) (hu : execStationMasterReady s = .next u) : u.clock = s.clock := by
  obtain rfl := Host.Outcome.next.inj hu
  repeat' split
  all_goals first | rfl | simp

theorem execGddr7Training_clock (c : Ch) (device : Fin 8) (ok : Bool) (s : State) (u : State) (hu : execGddr7Training c device ok s = .next u) : u.clock = s.clock := by
  obtain rfl := Host.Outcome.next.inj hu
  simp [apply_ite State.clock]

theorem execRegionGroup_clock (c : Ch) (group : Fin 4) (results : List RegionBoot) (s : State) (u : State) (hu : execRegionGroup c group results s = .next u) : u.clock = s.clock := by
  obtain rfl := Host.Outcome.next.inj hu
  simp [apply_ite State.clock]

theorem execChannelBooted_clock (c : Ch) (failed : Option (Nat × Nat)) (s : State) (u : State) (hu : execChannelBooted c failed s = .next u) : u.clock = s.clock := by
  obtain rfl := Host.Outcome.next.inj hu
  (try dsimp only)
  repeat' split
  all_goals first | rfl | simp

theorem execBootWait_clock (c : Ch) (s : State) (u : State) (hu : execBootWait c s = .next u) : u.clock = s.clock := by
  obtain rfl := Host.Outcome.next.inj hu
  simp [apply_ite State.clock]

theorem execJoulesPerToken_clock (s : State) (u : State) (hu : execJoulesPerToken s = .next u) : u.clock = s.clock := by
  obtain rfl := Host.Outcome.next.inj hu
  simp [apply_ite State.clock]

theorem execLifetimeService_clock (s : State) (u : State) (hu : execLifetimeService s = .next u) : u.clock = s.clock := by
  obtain rfl := Host.Outcome.next.inj hu
  simp [apply_ite State.clock]

theorem execAdd_clock (w : At) (s : State) (u : State) (hu : execAdd w s = .next u) : u.clock = s.clock := by
  obtain rfl := Host.Outcome.next.inj hu
  simp

theorem execSub_clock (w : At) (s : State) (u : State) (hu : execSub w s = .next u) : u.clock = s.clock := by
  obtain rfl := Host.Outcome.next.inj hu
  simp

theorem execMul_clock (w : At) (s : State) (u : State) (hu : execMul w s = .next u) : u.clock = s.clock := by
  obtain rfl := Host.Outcome.next.inj hu
  simp

theorem execFma_clock (w : At) (s : State) (u : State) (hu : execFma w s = .next u) : u.clock = s.clock := by
  obtain rfl := Host.Outcome.next.inj hu
  simp

theorem execAxpby_clock (w : At) (s : State) (u : State) (hu : execAxpby w s = .next u) : u.clock = s.clock := by
  obtain rfl := Host.Outcome.next.inj hu
  simp

theorem execMin_clock (w : At) (s : State) (u : State) (hu : execMin w s = .next u) : u.clock = s.clock := by
  obtain rfl := Host.Outcome.next.inj hu
  simp

theorem execMax_clock (w : At) (s : State) (u : State) (hu : execMax w s = .next u) : u.clock = s.clock := by
  obtain rfl := Host.Outcome.next.inj hu
  simp

theorem execAbs_clock (w : At) (s : State) (u : State) (hu : execAbs w s = .next u) : u.clock = s.clock := by
  obtain rfl := Host.Outcome.next.inj hu
  simp

theorem execNeg_clock (w : At) (s : State) (u : State) (hu : execNeg w s = .next u) : u.clock = s.clock := by
  obtain rfl := Host.Outcome.next.inj hu
  simp

theorem execDiv_clock (w : At) (s : State) (u : State) (hu : execDiv w s = .next u) : u.clock = s.clock := by
  obtain rfl := Host.Outcome.next.inj hu
  simp

theorem execSqrt_clock (w : At) (s : State) (u : State) (hu : execSqrt w s = .next u) : u.clock = s.clock := by
  obtain rfl := Host.Outcome.next.inj hu
  simp

theorem execLdexp_clock (w : At) (s : State) (u : State) (hu : execLdexp w s = .next u) : u.clock = s.clock := by
  obtain rfl := Host.Outcome.next.inj hu
  simp

theorem execClamp_clock (w : At) (s : State) (u : State) (hu : execClamp w s = .next u) : u.clock = s.clock := by
  obtain rfl := Host.Outcome.next.inj hu
  simp

theorem execExp_clock (w : At) (s : State) (u : State) (hu : execExp w s = .next u) : u.clock = s.clock := by
  obtain rfl := Host.Outcome.next.inj hu
  simp

theorem execLog_clock (w : At) (s : State) (u : State) (hu : execLog w s = .next u) : u.clock = s.clock := by
  obtain rfl := Host.Outcome.next.inj hu
  simp

theorem execRsqrt_clock (w : At) (s : State) (u : State) (hu : execRsqrt w s = .next u) : u.clock = s.clock := by
  obtain rfl := Host.Outcome.next.inj hu
  simp

theorem execTanh_clock (w : At) (s : State) (u : State) (hu : execTanh w s = .next u) : u.clock = s.clock := by
  obtain rfl := Host.Outcome.next.inj hu
  simp

theorem execSigmoid_clock (w : At) (s : State) (u : State) (hu : execSigmoid w s = .next u) : u.clock = s.clock := by
  obtain rfl := Host.Outcome.next.inj hu
  simp

theorem execGelu_clock (w : At) (s : State) (u : State) (hu : execGelu w s = .next u) : u.clock = s.clock := by
  obtain rfl := Host.Outcome.next.inj hu
  simp

theorem execSin_clock (w : At) (s : State) (u : State) (hu : execSin w s = .next u) : u.clock = s.clock := by
  obtain rfl := Host.Outcome.next.inj hu
  simp

theorem execCos_clock (w : At) (s : State) (u : State) (hu : execCos w s = .next u) : u.clock = s.clock := by
  obtain rfl := Host.Outcome.next.inj hu
  simp

theorem execLt_clock (w : At) (s : State) (u : State) (hu : execLt w s = .next u) : u.clock = s.clock := by
  obtain rfl := Host.Outcome.next.inj hu
  simp

theorem execLe_clock (w : At) (s : State) (u : State) (hu : execLe w s = .next u) : u.clock = s.clock := by
  obtain rfl := Host.Outcome.next.inj hu
  simp

theorem execEq_clock (w : At) (s : State) (u : State) (hu : execEq w s = .next u) : u.clock = s.clock := by
  obtain rfl := Host.Outcome.next.inj hu
  simp

theorem execNe_clock (w : At) (s : State) (u : State) (hu : execNe w s = .next u) : u.clock = s.clock := by
  obtain rfl := Host.Outcome.next.inj hu
  simp

theorem execSelect_clock (w : At) (s : State) (u : State) (hu : execSelect w s = .next u) : u.clock = s.clock := by
  obtain rfl := Host.Outcome.next.inj hu
  simp

theorem execConvert_clock (w : At) (s : State) (u : State) (hu : execConvert w s = .next u) : u.clock = s.clock := by
  obtain rfl := Host.Outcome.next.inj hu
  simp

theorem execGather_clock (w : At) (s : State) (u : State) (hu : execGather w s = .next u) : u.clock = s.clock := by
  obtain rfl := Host.Outcome.next.inj hu
  simp

theorem execScatterAdd_clock (w : At) (s : State) (u : State) (hu : execScatterAdd w s = .next u) : u.clock = s.clock := by
  obtain rfl := Host.Outcome.next.inj hu
  simp

theorem execScanSum_clock (w : At) (s : State) (u : State) (hu : execScanSum w s = .next u) : u.clock = s.clock := by
  obtain rfl := Host.Outcome.next.inj hu
  simp

theorem execScanXsum_clock (w : At) (s : State) (u : State) (hu : execScanXsum w s = .next u) : u.clock = s.clock := by
  obtain rfl := Host.Outcome.next.inj hu
  simp

theorem execScanMax_clock (w : At) (s : State) (u : State) (hu : execScanMax w s = .next u) : u.clock = s.clock := by
  obtain rfl := Host.Outcome.next.inj hu
  simp

theorem execDiscRev_clock (w : At) (s : State) (u : State) (hu : execDiscRev w s = .next u) : u.clock = s.clock := by
  obtain rfl := Host.Outcome.next.inj hu
  simp

theorem execSort_clock (w : At) (s : State) (u : State) (hu : execSort w s = .next u) : u.clock = s.clock := by
  obtain rfl := Host.Outcome.next.inj hu
  refine (issueFrom_clock _ _ _ _ _ (fun e t u h => ?_)).trans (meet_clock _ _)
  revert h
  (try dsimp only)
  repeat' split
  all_goals intro h
  all_goals first
    | (cases h; done)
    | (obtain rfl := Option.some.inj h; simp; done)

theorem execScalegen_clock (w : At) (s : State) (u : State) (hu : execScalegen w s = .next u) : u.clock = s.clock := by
  obtain rfl := Host.Outcome.next.inj hu
  refine (issueFrom_clock _ _ _ _ _ (fun e t u h => ?_)).trans (meet_clock _ _)
  revert h
  (try dsimp only)
  repeat' split
  all_goals intro h
  all_goals first
    | (cases h; done)
    | (obtain rfl := Option.some.inj h; simp; done)

theorem execRaw_clock (w : At) (s : State) (u : State) (hu : execRaw w s = .next u) : u.clock = s.clock := by
  obtain rfl := Host.Outcome.next.inj hu
  simp

theorem execUniform_clock (w : At) (s : State) (u : State) (hu : execUniform w s = .next u) : u.clock = s.clock := by
  obtain rfl := Host.Outcome.next.inj hu
  simp

theorem execNormal_clock (w : At) (s : State) (u : State) (hu : execNormal w s = .next u) : u.clock = s.clock := by
  obtain rfl := Host.Outcome.next.inj hu
  simp

theorem execBernoulli_clock (w : At) (s : State) (u : State) (hu : execBernoulli w s = .next u) : u.clock = s.clock := by
  obtain rfl := Host.Outcome.next.inj hu
  simp

theorem execDropout_clock (w : At) (s : State) (u : State) (hu : execDropout w s = .next u) : u.clock = s.clock := by
  obtain rfl := Host.Outcome.next.inj hu
  simp

theorem execAdamw_clock (w : At) (s : State) (u : State) (hu : execAdamw w s = .next u) : u.clock = s.clock := by
  obtain rfl := Host.Outcome.next.inj hu
  simp

theorem execLion_clock (w : At) (s : State) (u : State) (hu : execLion w s = .next u) : u.clock = s.clock := by
  obtain rfl := Host.Outcome.next.inj hu
  simp

theorem execSgdm_clock (w : At) (s : State) (u : State) (hu : execSgdm w s = .next u) : u.clock = s.clock := by
  obtain rfl := Host.Outcome.next.inj hu
  simp

theorem execRedSum_clock (w : At) (s : State) (u : State) (hu : execRedSum w s = .next u) : u.clock = s.clock := by
  obtain rfl := Host.Outcome.next.inj hu
  simp

theorem execRedSumsq_clock (w : At) (s : State) (u : State) (hu : execRedSumsq w s = .next u) : u.clock = s.clock := by
  obtain rfl := Host.Outcome.next.inj hu
  simp

theorem execRedMax_clock (w : At) (s : State) (u : State) (hu : execRedMax w s = .next u) : u.clock = s.clock := by
  obtain rfl := Host.Outcome.next.inj hu
  simp

theorem execRedMin_clock (w : At) (s : State) (u : State) (hu : execRedMin w s = .next u) : u.clock = s.clock := by
  obtain rfl := Host.Outcome.next.inj hu
  simp

theorem execRedMaxabs_clock (w : At) (s : State) (u : State) (hu : execRedMaxabs w s = .next u) : u.clock = s.clock := by
  obtain rfl := Host.Outcome.next.inj hu
  simp

end Sys2Proof.Machine
end

