-- ==== Sys2Proof/Laws/Memory.lean ====
section
/-! SUPPORT. Every operation keeps the memories in their canonical form: at most one entry an address, in rising order, none equal to what an unlisted address reads as. -/


namespace Sys2Proof.Machine

theorem Tab.wf_iff {α : Type} [DecidableEq α] (d : α) (t : Tab α) :
    Tab.wf d t = true ↔ t.Pairwise (fun p q => p.1 < q.1) ∧ ∀ p ∈ t, p.2 ≠ d := by simp [Tab.wf]

theorem Tab.filter_wf {α : Type} [DecidableEq α] {d : α} {t : Tab α} (p : Nat × α → Bool) (h : Tab.wf d t = true) :
    Tab.wf d (t.filter p) = true := by
  rw [Tab.wf_iff] at *
  exact ⟨h.1.filter _, fun q hq => h.2 q (List.mem_filter.mp hq).1⟩

theorem Tab.del_wf {α : Type} [DecidableEq α] {d : α} {t : Tab α} (k : Nat) (h : Tab.wf d t = true) :
    Tab.wf d (t.del k) = true := Tab.filter_wf _ h

theorem Tab.mem_ins {α : Type} {k : Nat} {v : α} {t : Tab α} {q : Nat × α} : q ∈ Tab.ins k v t ↔ q = (k, v) ∨ q ∈ t := by
  induction t with
  | nil => simp [Tab.ins]
  | cons a t ih =>
    unfold Tab.ins
    split
    · simp
    · simp only [List.mem_cons, ih]; tauto

theorem Tab.ins_wf {α : Type} [DecidableEq α] {d : α} {t : Tab α} (k : Nat) (v : α) (h : Tab.wf d t = true) (hk : ∀ p ∈ t, p.1 ≠ k)
    (hv : v ≠ d) : Tab.wf d (Tab.ins k v t) = true := by
  rw [Tab.wf_iff] at *
  refine ⟨?_, fun p hp => ?_⟩
  · obtain ⟨h1, h2⟩ := h
    induction t with
    | nil => simp [Tab.ins]
    | cons a t ih =>
      rw [List.pairwise_cons] at h1
      unfold Tab.ins
      split
      · rename_i hlt
        refine List.pairwise_cons.mpr ⟨fun q hq => ?_, List.pairwise_cons.mpr h1⟩
        rcases List.mem_cons.mp hq with rfl | hq
        · exact hlt
        · exact Nat.lt_trans hlt (h1.1 q hq)
      · rename_i hlt
        refine List.pairwise_cons.mpr ⟨fun q hq => ?_, ih (fun p hp => hk p (List.mem_cons_of_mem _ hp)) h1.2
          (fun p hp => h2 p (List.mem_cons_of_mem _ hp))⟩
        rcases Tab.mem_ins.mp hq with rfl | hq
        · have := hk a (List.mem_cons_self ..)
          simp only at *; omega
        · exact h1.1 q hq
  · rcases Tab.mem_ins.mp hp with rfl | hp
    · exact hv
    · exact h.2 p hp

/-- Storing a value keeps a table canonical. -/
theorem Tab.put_wf {α : Type} [DecidableEq α] {d : α} {t : Tab α} (k : Nat) (v : α) (h : Tab.wf d t = true) :
    Tab.wf d (Tab.put d t k v) = true := by
  unfold Tab.put
  split
  · exact Tab.del_wf k h
  · refine Tab.ins_wf k v (Tab.del_wf k h) (fun p hp => ?_) ‹_›
    have := (List.mem_filter.mp hp).2
    simpa using this

theorem Tab.putAll_wf {α : Type} [DecidableEq α] {d : α} {t : Tab α} (k : Nat) (vs : List α) (h : Tab.wf d t = true) :
    Tab.wf d (Tab.putAll d t k vs) = true := by
  induction vs generalizing t k with
  | nil => exact h
  | cons v vs ih => exact ih (k + 1) (Tab.put_wf k v h)

theorem foldl_tab_wf {α β : Type} [DecidableEq α] {d : α} (f : Tab α → β → Tab α) (h : ∀ t x, Tab.wf d t = true → Tab.wf d (f t x) = true)
    (l : List β) (t : Tab α) (ht : Tab.wf d t = true) : Tab.wf d (l.foldl f t) = true := by
  induction l generalizing t with
  | nil => exact ht
  | cons x l ih => exact ih _ (h _ _ ht)

theorem foldl_mem_wf {β : Type} (f : Memory → β → Memory) (h : ∀ t x, t.wf → (f t x).wf)
    (l : List β) (t : Memory) (ht : t.wf) : (l.foldl f t).wf := by
  induction l generalizing t with
  | nil => exact ht
  | cons x l ih => exact ih _ (h _ _ ht)

theorem marksAfter_wf {t : Tab Nat} (a n : Nat) (h : Tab.wf 0 t = true) : Tab.wf 0 (marksAfter t a n) = true := by
  unfold marksAfter; split
  · exact h
  · exact Tab.filter_wf _ h

/-- A write keeps the canonical form. -/
theorem Memory.write_wf {m : Memory} (a : Nat) (bs : List Byte) (h : m.wf) : (m.write a bs).wf :=
  ⟨Tab.putAll_wf _ _ h.1, marksAfter_wf _ _ h.2⟩

theorem Memory.poison_wf {m : Memory} (g : Nat) (h : m.wf) : (m.poison g).wf := ⟨h.1, Tab.put_wf g 1 h.2⟩

theorem Memory.clear_wf {m : Memory} (lo hi : Nat) (h : m.wf) : (m.clear lo hi).wf :=
  ⟨Tab.filter_wf _ h.1, Tab.filter_wf _ h.2⟩

theorem Memory.writeMask_wf {m : Memory} (a : Nat) (bs : List (Option Byte)) (h : m.wf) : (m.writeMask a bs).wf := by
  refine ⟨foldl_tab_wf _ (fun t x ht => ?_) _ _ h.1, ?_⟩
  · split
    · exact Tab.put_wf _ _ ht
    · exact ht
  · show Tab.wf 0 (if _ then _ else _) = true
    split
    · exact h.2
    · exact Tab.filter_wf _ h.2

theorem Memory.reset_wf : Memory.reset.wf := by decide

theorem State.memOk.bytes {s : State} (h : s.memOk) (c : Ch) : Tab.wf Memory.unwritten (s.ch c).mem.bytes = true := (h c).1

theorem State.memOk.marks {s : State} (h : s.memOk) (c : Ch) : Tab.wf 0 (s.ch c).mem.marks = true := (h c).2

@[simp] theorem ch_bytes_wf (s : State) (c : Ch) (h : s.memOk) : Tab.wf Memory.unwritten (s.ch c).mem.bytes = true := (h c).1

@[simp] theorem ch_marks_wf (s : State) (c : Ch) (h : s.memOk) : Tab.wf 0 (s.ch c).mem.marks = true := (h c).2

theorem setCh_memOk (s : State) (c : Ch) (x : Chan) (hs : s.memOk) (hx : x.mem.wf) : (s.setCh c x).memOk := by
  intro d
  rw [ch_setCh]
  split
  · exact hx
  · exact hs d

@[simp] theorem onCh_memOk (s : State) (c : Ch) (f : Chan → Chan) (hs : s.memOk)
    (hb : Tab.wf Memory.unwritten (f (s.ch c)).mem.bytes = true) (hm : Tab.wf 0 (f (s.ch c)).mem.marks = true) :
    (s.onCh c f).memOk := setCh_memOk _ _ _ hs ⟨hb, hm⟩

@[simp] theorem onMem_memOk (s : State) (c : Ch) (f : Memory → Memory) (hs : s.memOk)
    (hb : Tab.wf Memory.unwritten (f (s.ch c).mem).bytes = true) (hm : Tab.wf 0 (f (s.ch c).mem).marks = true) :
    (s.onMem c f).memOk := setCh_memOk _ _ _ hs ⟨hb, hm⟩

theorem onMem_memOk' (s : State) (c : Ch) (f : Memory → Memory) (hs : s.memOk) (h : (f (s.ch c).mem).wf) :
    (s.onMem c f).memOk := setCh_memOk _ _ _ hs h

@[simp] theorem onRun_memOk (s : State) (c : Ch) (f : Run → Run) (hs : s.memOk) : (s.onRun c f).memOk := setCh_memOk _ _ _ hs (hs c)

@[simp] theorem onWatch_memOk (s : State) (c : Ch) (f : Watch → Watch) (hs : s.memOk) : (s.onWatch c f).memOk := setCh_memOk _ _ _ hs (hs c)

@[simp] theorem onHub_memOk (s : State) (c : Ch) (f : Hub → Hub) (hs : s.memOk) : (s.onHub c f).memOk := setCh_memOk _ _ _ hs (hs c)

@[simp] theorem onYard_memOk (s : State) (c : Ch) (f : Yard → Yard) (hs : s.memOk) : (s.onYard c f).memOk := setCh_memOk _ _ _ hs (hs c)

@[simp] theorem onHost_memOk (s : State) (c : Ch) (f : HostLink → HostLink) (hs : s.memOk) : (s.onHost c f).memOk := setCh_memOk _ _ _ hs (hs c)

@[simp] theorem onSup_memOk (s : State) (c : Ch) (f : Supply → Supply) (hs : s.memOk) : (s.onSup c f).memOk := setCh_memOk _ _ _ hs (hs c)

@[simp] theorem onCtl_memOk (s : State) (c : Ch) (f : Ctl → Ctl) (hs : s.memOk) : (s.onCtl c f).memOk := setCh_memOk _ _ _ hs (hs c)

@[simp] theorem onCluster_memOk (s : State) (c : Ch) (k : Nat) (f : Cluster → Cluster) (hs : s.memOk) : (s.onCluster c k f).memOk := setCh_memOk _ _ _ hs (hs c)

@[simp] theorem onPort_memOk (s : State) (c : Ch) (p : Pt) (f : Port → Port) (hs : s.memOk) : (s.onPort c p f).memOk := setCh_memOk _ _ _ hs (hs c)

@[simp] theorem onRegion_memOk (s : State) (c : Ch) (r : Rg) (f : Region → Region) (hs : s.memOk) : (s.onRegion c r f).memOk := setCh_memOk _ _ _ hs (hs c)

@[simp] theorem onM_memOk (s : State) (f : Module → Module) (hs : s.memOk) : (s.onM f).memOk := hs

@[simp] theorem send_memOk (s : State) (o : Out) (hs : s.memOk) : (s.send o).memOk := hs

/-- The memories of a list of channels are canonical. -/
def ChansOk (x : Vector Chan 4) : Prop := ∀ c : Ch, x[c].mem.wf

@[simp] theorem chansOk_chs (s : State) (hs : s.memOk) : ChansOk s.chs := hs

@[simp] theorem mk_memOk (p : List Instr) (n : Nat) (b : Bool) (k : Nat) (m : Module) (x : Vector Chan 4) (o : List Out)
    (hx : ChansOk x) : (State.mk p n b k m x o).memOk := hx

@[simp] theorem foldl_memOk {α : Type} (f : State → α → State) (l : List α) (s : State) (hs : s.memOk)
    (h : ∀ t x, t.memOk → (f t x).memOk) : (l.foldl f s).memOk := by
  induction l generalizing s with
  | nil => exact hs
  | cons x l ih => exact ih _ (h _ _ hs)

@[simp] theorem eachCh_memOk (s : State) (f : Ch → State → State) (hs : s.memOk) (h : ∀ c t, t.memOk → (f c t).memOk) :
    (s.eachCh f).memOk := foldl_memOk _ _ _ hs (fun t c => h c t)

@[simp] theorem ite_memOk (p : Prop) [Decidable p] (a b : State) (ha : a.memOk) (hb : b.memOk) :
    (if p then a else b).memOk := by split <;> assumption

@[simp] theorem write_bytes_wf (m : Memory) (a : Nat) (bs : List Byte) (h : Tab.wf Memory.unwritten m.bytes = true) :
    Tab.wf Memory.unwritten (m.write a bs).bytes = true := Tab.putAll_wf _ _ h

@[simp] theorem write_marks_wf (m : Memory) (a : Nat) (bs : List Byte) (h : Tab.wf 0 m.marks = true) :
    Tab.wf 0 (m.write a bs).marks = true := marksAfter_wf _ _ h

@[simp] theorem poison_bytes_wf (m : Memory) (g : Nat) (h : Tab.wf Memory.unwritten m.bytes = true) :
    Tab.wf Memory.unwritten (m.poison g).bytes = true := h

@[simp] theorem poison_marks_wf (m : Memory) (g : Nat) (h : Tab.wf 0 m.marks = true) :
    Tab.wf 0 (m.poison g).marks = true := Tab.put_wf g 1 h

@[simp] theorem clear_bytes_wf (m : Memory) (lo hi : Nat) (h : Tab.wf Memory.unwritten m.bytes = true) :
    Tab.wf Memory.unwritten (m.clear lo hi).bytes = true := Tab.filter_wf _ h

@[simp] theorem clear_marks_wf (m : Memory) (lo hi : Nat) (h : Tab.wf 0 m.marks = true) :
    Tab.wf 0 (m.clear lo hi).marks = true := Tab.filter_wf _ h

@[simp] theorem writeMask_bytes_wf (m : Memory) (a : Nat) (bs : List (Option Byte)) (h : Tab.wf Memory.unwritten m.bytes = true) :
    Tab.wf Memory.unwritten (m.writeMask a bs).bytes = true := by
  refine foldl_tab_wf _ (fun t x ht => ?_) _ _ h
  split
  · exact Tab.put_wf _ _ ht
  · exact ht

@[simp] theorem writeMask_marks_wf (m : Memory) (a : Nat) (bs : List (Option Byte)) (h : Tab.wf 0 m.marks = true) :
    Tab.wf 0 (m.writeMask a bs).marks = true := by
  show Tab.wf 0 (if _ then _ else _) = true
  split
  · exact h
  · exact Tab.filter_wf _ h

theorem Memory.beneath_wf {m : Memory} (g : Nat) (old : List Byte × Bool) (h : m.wf) : (m.beneath g old).wf := by
  unfold Memory.beneath
  (try dsimp only)
  split
  · exact Memory.poison_wf _ (Memory.write_wf _ _ h)
  · exact Memory.write_wf _ _ h

theorem Memory.discardDepot_wf {m : Memory} (h : m.wf) : m.discardDepot.wf := by
  have hf : ∀ l : List DepotLine, (l.foldl (fun m l =>
      l.sectors.foldl (fun m x => if x.dirty && !l.host then m.beneath (l.addr / 256 + x.no) (x.bytes, x.poisoned) else m) m) m).wf :=
    fun l => foldl_mem_wf _ (fun t x ht => foldl_mem_wf _ (fun u y hu => by
      split
      · exact Memory.beneath_wf _ _ hu
      · exact hu) _ _ ht) _ _ h
  exact hf m.lines

theorem Memory.farLost_wf {m : Memory} (o : FarOp) (h : m.wf) : (m.farLost o).wf := by
  unfold Memory.farLost
  split
  · exact Memory.beneath_wf _ _ h
  · exact Memory.poison_wf _ h

@[simp] theorem discardDepot_bytes_wf (m : Memory) (hb : Tab.wf Memory.unwritten m.bytes = true) (hm : Tab.wf 0 m.marks = true) :
    Tab.wf Memory.unwritten m.discardDepot.bytes = true := (Memory.discardDepot_wf ⟨hb, hm⟩).1

@[simp] theorem discardDepot_marks_wf (m : Memory) (hb : Tab.wf Memory.unwritten m.bytes = true) (hm : Tab.wf 0 m.marks = true) :
    Tab.wf 0 m.discardDepot.marks = true := (Memory.discardDepot_wf ⟨hb, hm⟩).2

@[simp] theorem farOnly_bytes_wf (m : Memory) (hb : Tab.wf Memory.unwritten m.bytes = true) (hm : Tab.wf 0 m.marks = true) :
    Tab.wf Memory.unwritten m.farOnly.bytes = true := Tab.filter_wf _ (discardDepot_bytes_wf m hb hm)

@[simp] theorem farOnly_marks_wf (m : Memory) (hb : Tab.wf Memory.unwritten m.bytes = true) (hm : Tab.wf 0 m.marks = true) :
    Tab.wf 0 m.farOnly.marks = true := Tab.filter_wf _ (discardDepot_marks_wf m hb hm)

@[simp] theorem beneath_bytes_wf (m : Memory) (g : Nat) (old : List Byte × Bool) (hb : Tab.wf Memory.unwritten m.bytes = true)
    (hm : Tab.wf 0 m.marks = true) : Tab.wf Memory.unwritten (m.beneath g old).bytes = true := (Memory.beneath_wf g old ⟨hb, hm⟩).1

@[simp] theorem beneath_marks_wf (m : Memory) (g : Nat) (old : List Byte × Bool) (hb : Tab.wf Memory.unwritten m.bytes = true)
    (hm : Tab.wf 0 m.marks = true) : Tab.wf 0 (m.beneath g old).marks = true := (Memory.beneath_wf g old ⟨hb, hm⟩).2

@[simp] theorem countDepot_bytes (m : Memory) (hit : Bool) : (m.countDepot hit).bytes = m.bytes := by
  unfold Memory.countDepot; split <;> rfl

@[simp] theorem countDepot_marks (m : Memory) (hit : Bool) : (m.countDepot hit).marks = m.marks := by
  unfold Memory.countDepot; split <;> rfl

@[simp] theorem putSector_bytes (m : Memory) (host : Bool) (a : Nat) (x : Sector) : (m.putSector host a x).bytes = m.bytes := rfl

@[simp] theorem putSector_marks (m : Memory) (host : Bool) (a : Nat) (x : Sector) : (m.putSector host a x).marks = m.marks := rfl

@[simp] theorem dropLine_bytes (m : Memory) (host : Bool) (a : Nat) : (m.dropLine host a).bytes = m.bytes := rfl

@[simp] theorem dropLine_marks (m : Memory) (host : Bool) (a : Nat) : (m.dropLine host a).marks = m.marks := rfl

@[simp] theorem clearBoard_bytes_wf (m : Memory) (h : Tab.wf Memory.unwritten m.bytes = true) :
    Tab.wf Memory.unwritten m.clearBoard.bytes = true := Tab.filter_wf _ h

@[simp] theorem clearBoard_marks_wf (m : Memory) (h : Tab.wf 0 m.marks = true) :
    Tab.wf 0 m.clearBoard.marks = true := Tab.filter_wf _ h

@[simp] theorem clearLoad_bytes (x : Chan) : x.clearLoadCounters.mem.bytes = x.mem.bytes := id rfl

@[simp] theorem clearLoad_marks (x : Chan) : x.clearLoadCounters.mem.marks = x.mem.marks := id rfl

@[simp] theorem store_memOk (s : State) (c : Ch) (a : Nat) (bs : List Byte) (hs : s.memOk) :
    (s.store c a bs).memOk := by simp +contextual (maxDischargeDepth := 60) [State.store, hs]

@[simp] theorem toFlash_memOk (s : State) (e : LogEntry) (hs : s.memOk) :
    (s.toFlash e).memOk := by simp +contextual (maxDischargeDepth := 60) [State.toFlash, hs]

@[simp] theorem logAs_memOk (s : State) (c : Ch) (order source code : Nat) (param : List Byte) (hs : s.memOk) :
    (s.logAs c order source code param).memOk := by simp +contextual (maxDischargeDepth := 60) [State.logAs, hs]

@[simp] theorem log_memOk (s : State) (c : Ch) (source code : Nat) (ps : List Param) (hs : s.memOk) :
    (s.log c source code ps).memOk := by simp +contextual (maxDischargeDepth := 60) [State.log, hs]

@[simp] theorem logM_memOk (s : State) (source code : Nat) (ps : List Param) (hs : s.memOk) :
    (s.logM source code ps).memOk := by simp +contextual (maxDischargeDepth := 60) [State.logM, hs]

@[simp] theorem setChState_memOk (s : State) (c : Ch) (st : ChState) (hs : s.memOk) :
    (s.setChState c st).memOk := by simp +contextual (maxDischargeDepth := 60) [State.setChState, hs]

@[simp] theorem addDown_memOk (s : State) (c : Ch) (since : Nat) (hs : s.memOk) :
    (s.addDown c since).memOk := by simp +contextual (maxDischargeDepth := 60) [State.addDown, hs]

@[simp] theorem sendHostOp_memOk (s : State) (c : Ch) (o : HostOp) (hs : s.memOk) :
    (s.sendHostOp c o).memOk := by simp +contextual (maxDischargeDepth := 60) [State.sendHostOp, hs]

@[simp] theorem hostPump_memOk (s : State) (c : Ch) (hs : s.memOk) :
    (s.hostPump c).memOk := by simp +contextual (maxDischargeDepth := 60) [State.hostPump, hs]

@[simp] theorem hostOp_memOk (s : State) (c : Ch) (o : HostOp) (hs : s.memOk) :
    (s.hostOp c o).memOk := by simp +contextual (maxDischargeDepth := 60) [State.hostOp, hs]

@[simp] theorem writeBack_memOk (s : State) (c : Ch) (ls : List DepotLine) (hs : s.memOk) :
    (s.writeBack c ls).memOk := by simp +contextual (maxDischargeDepth := 60) [State.writeBack, hs]

@[simp] theorem depotPut_memOk (s : State) (c : Ch) (host : Bool) (a : Nat) (x : Sector) (hs : s.memOk) :
    (s.depotPut c host a x).memOk := by
  unfold State.depotPut
  (try dsimp only)
  repeat' split
  all_goals first | exact hs | assumption | (simp +contextual (maxDischargeDepth := 60) [hs]; done)

@[simp] theorem depotWriteBack_memOk (s : State) (c : Ch) (hs : s.memOk) :
    (s.depotWriteBack c).memOk := by simp +contextual (maxDischargeDepth := 60) [State.depotWriteBack, hs]

@[simp] theorem depotEmpty_memOk (s : State) (c : Ch) (hs : s.memOk) :
    (s.depotEmpty c).memOk := by simp +contextual (maxDischargeDepth := 60) [State.depotEmpty, hs]

@[simp] theorem enterHold_memOk (s : State) (c : Ch) (code order : Nat) (param : List Byte) (hs : s.memOk) :
    (s.enterHold c code order param).memOk := by simp +contextual (maxDischargeDepth := 60) [State.enterHold, hs]

@[simp] theorem holdNow_memOk (s : State) (c : Ch) (code order : Nat) (param : List Byte) (hs : s.memOk) :
    (s.holdNow c code order param).memOk := by simp +contextual (maxDischargeDepth := 60) [State.holdNow, hs]

@[simp] theorem stopFor_memOk (s : State) (c : Ch) (code order : Nat) (param : List Byte) (hs : s.memOk) :
    (s.stopFor c code order param).memOk := by
  unfold State.stopFor
  repeat' split
  all_goals first | exact hs | assumption | (simp +contextual (maxDischargeDepth := 60) [hs]; done)

@[simp] theorem containment_memOk (s : State) (c : Ch) (cause : Nat) (hs : s.memOk) :
    (s.containment c cause).memOk := by simp +contextual (maxDischargeDepth := 60) [State.containment, hs]

@[simp] theorem consumePoison_memOk (s : State) (c : Ch) (addr source : Nat) (hs : s.memOk) :
    (s.consumePoison c addr source).memOk := by simp +contextual (maxDischargeDepth := 60) [State.consumePoison, hs]

@[simp] theorem spoil_memOk (s : State) (c : Ch) (f : MemFault) (source : Nat) (hs : s.memOk) :
    (s.spoil c f source).memOk := by
  unfold State.spoil
  (try dsimp only)
  repeat' split
  all_goals first | exact hs | assumption | (simp +contextual (maxDischargeDepth := 60) [hs]; done)

@[simp] theorem damage_memOk (s : State) (c : Ch) (f : MemFault) (source : Nat) (hs : s.memOk) :
    (s.damage c f source).memOk := by
  unfold State.damage
  repeat' split
  all_goals first | exact hs | assumption | (simp +contextual (maxDischargeDepth := 60) [hs]; done)

@[simp] theorem meetAll_memOk (s : State) (c : Ch) (faults : List MemFault) (hs : s.memOk) :
    (s.meetAll c faults).memOk := by simp +contextual (maxDischargeDepth := 60) [State.meetAll, hs]

@[simp] theorem meet_memOk (s : State) (w : At) (hs : s.memOk) :
    (s.meet w).memOk := by simp +contextual (maxDischargeDepth := 60) [State.meet, hs]

@[simp] theorem addSignal_memOk (s : State) (c : Ch) (k sig amount : Nat) (hs : s.memOk) :
    (s.addSignal c k sig amount).memOk := by simp +contextual (maxDischargeDepth := 60) [State.addSignal, hs]

@[simp] theorem touch_memOk (s : State) (c : Ch) (hs : s.memOk) :
    (s.touch c).memOk := by simp +contextual (maxDischargeDepth := 60) [State.touch, hs]

@[simp] theorem progress_memOk (s : State) (c : Ch) (hs : s.memOk) :
    (s.progress c).memOk := by simp +contextual (maxDischargeDepth := 60) [State.progress, hs]

@[simp] theorem carInvalid_memOk (s : State) (c : Ch) (k : Nat) (car : Car) (pos row : Nat) (hs : s.memOk) :
    (s.carInvalid c k car pos row).memOk := by simp +contextual (maxDischargeDepth := 60) [State.carInvalid, hs]

@[simp] theorem pendPost_memOk (s : State) (c : Ch) (k : Nat) (car : Car) (id : Nat) (hs : s.memOk) :
    (s.pendPost c k car id).memOk := by simp +contextual (maxDischargeDepth := 60) [State.pendPost, hs]

@[simp] theorem newId_memOk (s : State) (c : Ch) (hs : s.memOk) :
    (s.newId c).2.memOk := by simp +contextual (maxDischargeDepth := 60) [State.newId, hs]

@[simp] theorem issued_memOk (s : State) (c : Ch) (hs : s.memOk) :
    (s.issued c).memOk := by simp +contextual (maxDischargeDepth := 60) [State.issued, hs]

@[simp] theorem withRead_memOk (s : State) (c : Ch) (k : Nat) (hs : s.memOk) :
    (s.withRead c k).1.memOk := by simp +contextual (maxDischargeDepth := 60) [State.withRead, hs]

theorem readStop_memOk (s : State) (c : Ch) (k : Nat) (hs : s.memOk) :
    ∀ u, (s.readStop c k) = some u → u.memOk := by
  intro u h
  unfold State.readStop at h
  (try dsimp only at h)
  repeat' split at h
  all_goals first
    | (cases h; done)
    | (obtain rfl := Option.some.inj h; simp +contextual (maxDischargeDepth := 60) [hs]; done)

@[simp] theorem popCar_memOk (s : State) (c : Ch) (k q : Nat) (hs : s.memOk) :
    (s.popCar c k q).memOk := by simp +contextual (maxDischargeDepth := 60) [State.popCar, hs]

@[simp] theorem settle_memOk (s : State) (c : Ch) (hs : s.memOk) :
    (s.settle c).memOk := by
  unfold State.settle
  (try dsimp only)
  repeat' split
  all_goals first | exact hs | assumption | (simp +contextual (maxDischargeDepth := 60) [hs]; done)

theorem issueFrom_memOk (s : State) (c : Ch) (k q : Nat) (body : QCar → State → Option State) (hs : s.memOk)
    (h : ∀ e t u, body e t = some u → t.memOk → u.memOk) :
    (s.issueFrom c k q body).memOk := by
  unfold State.issueFrom
  split
  · rename_i t ht
    exact settle_memOk _ _ (readStop_memOk _ _ _ hs _ ht)
  · dsimp only
    split
    · rename_i e he
      cases hb : body e (s.withRead c k).1 with
      | none => exact hs
      | some u => exact settle_memOk _ _ (h _ _ _ hb (withRead_memOk _ _ _ hs))
    · exact hs

theorem readPoint_memOk (s : State) (c : Ch) (k : Nat) (body : Car → State → Option State) (hs : s.memOk)
    (h : ∀ e t u, body e t = some u → t.memOk → u.memOk) :
    (s.readPoint c k body).memOk := by
  unfold State.readPoint
  split
  · rename_i t ht
    exact settle_memOk _ _ (readStop_memOk _ _ _ hs _ ht)
  · dsimp only
    split
    · rename_i car hc
      split
      · cases hb : body car (s.withRead c k).1 with
        | none => exact hs
        | some u => exact settle_memOk _ _ (h _ _ _ hb (withRead_memOk _ _ _ hs))
      · exact hs
    · exact hs

@[simp] theorem pass_memOk (s : State) (c : Ch) (k : Nat) (hs : s.memOk) :
    (s.pass c k).memOk := by simp +contextual (maxDischargeDepth := 60) [State.pass, hs]

theorem commonWait_memOk (s : State) (c : Ch) (k : Nat) (car : Car) (hs : s.memOk) :
    ∀ u, (s.commonWait c k car) = some u → u.memOk := by
  intro u h
  unfold State.commonWait at h
  (try dsimp only at h)
  repeat' split at h
  all_goals first
    | (cases h; done)
    | (obtain rfl := Option.some.inj h; simp +contextual (maxDischargeDepth := 60) [hs]; done)

@[simp] theorem sendDatagram_memOk (s : State) (i3c : Bool) (d : List Byte) (hs : s.memOk) :
    (s.sendDatagram i3c d).memOk := by simp +contextual (maxDischargeDepth := 60) [State.sendDatagram, hs]

@[simp] theorem replySession_memOk (s : State) (x : Session) (d : List Byte) (status : Nat) (value : List Byte) (hs : s.memOk) :
    (s.replySession x d status value).memOk := by simp +contextual (maxDischargeDepth := 60) [State.replySession, hs]

@[simp] theorem reply_memOk (s : State) (q : Reply) (status : Nat) (value : List Byte) (hs : s.memOk) :
    (s.reply q status value).memOk := by
  unfold State.reply
  (try dsimp only)
  repeat' split
  all_goals first | exact hs | assumption | (simp +contextual (maxDischargeDepth := 60) [hs]; done)

@[simp] theorem answerWake_memOk (s : State) (c : Ch) (status : Nat) (hs : s.memOk) :
    (s.answerWake c status).memOk := by simp +contextual (maxDischargeDepth := 60) [State.answerWake, hs]

@[simp] theorem logNum_memOk (s : State) (c : Ch) (source code layer occ gauges pass causes engine param : Nat) (hs : s.memOk) :
    (s.logNum c source code layer occ gauges pass causes engine param).memOk := by simp +contextual (maxDischargeDepth := 60) [State.logNum, hs]

@[simp] theorem meetFaults_memOk (s : State) (c : Ch) (source : Nat) (ranges : List (Nat × Nat)) (faults : List MemFault) (hs : s.memOk) :
    (s.meetFaults c source ranges faults).memOk := by simp +contextual (maxDischargeDepth := 60) [State.meetFaults, hs]

@[simp] theorem tileExit_memOk (s : State) (c : Ch) (k : Nat) (e : QCar) (r : TileRec) (ch : Chain) (n : Nat) (hs : s.memOk) :
    (s.tileExit c k e r ch n).memOk := by simp +contextual (maxDischargeDepth := 60) [State.tileExit, hs]

@[simp] theorem setChain_memOk (s : State) (c : Ch) (k eng : Nat) (ch : Option Chain) (hs : s.memOk) :
    (s.setChain c k eng ch).memOk := by simp +contextual (maxDischargeDepth := 60) [State.setChain, hs]

@[simp] theorem queueCheck_memOk (s : State) (c : Ch) (k : Nat) (e : QCar) (r : TileRec) (ch : Chain) (ids : List Nat) (hs : s.memOk) :
    (s.queueCheck c k e r ch ids).memOk := by
  unfold State.queueCheck
  (try dsimp only)
  repeat' split
  all_goals first | exact hs | assumption | (simp +contextual (maxDischargeDepth := 60) [hs]; done)

@[simp] theorem addCycles_memOk (s : State) (c : Ch) (k unit n : Nat) (hs : s.memOk) :
    (s.addCycles c k unit n).memOk := by simp +contextual (maxDischargeDepth := 60) [State.addCycles, hs]

@[simp] theorem runMatmul_memOk (s : State) (c : Ch) (k : Nat) (e : QCar) (r : TileRec) (blocks : List Nat) (hs : s.memOk) :
    (s.runMatmul c k e r blocks).memOk := by simp +contextual (maxDischargeDepth := 60) [State.runMatmul, hs]

@[simp] theorem tileCar_memOk (s : State) (c : Ch) (k eng op : Nat) (faults : List MemFault) (body : QCar → TileRec → List Nat → State → State) (hs : s.memOk) (h_body : ∀ x0 x1 x2 t, (t.memOk → (body x0 x1 x2 t).memOk)) :
    (s.tileCar c k eng op faults body).memOk := by
  unfold State.tileCar
  first
  | refine issueFrom_memOk _ _ _ _ _ hs (fun e t u h ht => ?_)
  | refine readPoint_memOk _ _ _ _ hs (fun e t u h ht => ?_)
  revert h
  (try dsimp only)
  repeat' split
  all_goals intro h
  all_goals first
    | (cases h; done)
    | (obtain rfl := Option.some.inj h; simp +contextual (maxDischargeDepth := 60) [h_body, ht]; done)

@[simp] theorem runReduce_memOk (s : State) (c : Ch) (k : Nat) (e : QCar) (r : TileRec) (blocks : List Nat) (hs : s.memOk) :
    (s.runReduce c k e r blocks).memOk := by simp +contextual (maxDischargeDepth := 60) [State.runReduce, hs]

@[simp] theorem stopTile_memOk (s : State) (c : Ch) (k eng : Nat) (hs : s.memOk) :
    (s.stopTile c k eng).memOk := by
  unfold State.stopTile
  (try dsimp only)
  split
  · exact hs
  · split
    · exact hs
    · split
      · refine foldl_memOk _ _ _ (mk_memOk _ _ _ _ _ _ _ (chansOk_chs s hs)) (fun t x ht => ?_)
        split
        · exact store_memOk _ _ _ _ ht
        · exact ht
      · exact mk_memOk _ _ _ _ _ _ _ (chansOk_chs s hs)

@[simp] theorem stopTiles_memOk (s : State) (c : Ch) (r : Nat) (hs : s.memOk) :
    (s.stopTiles c r).memOk := by simp +contextual (maxDischargeDepth := 60) [State.stopTiles, hs]

@[simp] theorem reefDecide_memOk (s : State) (c : Ch) (hs : s.memOk) :
    (s.reefDecide c).memOk := by simp +contextual (maxDischargeDepth := 60) [State.reefDecide, hs]

@[simp] theorem reefAll_memOk (s : State) (hs : s.memOk) :
    s.reefAll.memOk := by simp +contextual (maxDischargeDepth := 60) [State.reefAll, hs]

@[simp] theorem equalShares_memOk (s : State) (hs : s.memOk) :
    s.equalShares.memOk := by simp +contextual (maxDischargeDepth := 60) [State.equalShares, hs]

@[simp] theorem computeShares_memOk (s : State) (hs : s.memOk) :
    s.computeShares.memOk := by simp +contextual (maxDischargeDepth := 60) [State.computeShares, hs]

@[simp] theorem ease_memOk (s : State) (scope : EaseScope) (f : Nat → Nat) (hs : s.memOk) :
    (s.ease scope f).memOk := by
  unfold State.ease
  repeat' split
  all_goals first | exact hs | assumption | (simp +contextual (maxDischargeDepth := 60) [hs]; done)

@[simp] theorem dropImageFor_memOk (s : State) (c : Ch) (r : Nat) (hs : s.memOk) :
    (s.dropImageFor c r).memOk := by
  unfold State.dropImageFor
  repeat' split
  all_goals first | exact hs | assumption | (simp +contextual (maxDischargeDepth := 60) [hs]; done)

@[simp] theorem loseRegion_memOk (s : State) (c : Ch) (r : Rg) (cause : Nat) (hs : s.memOk) :
    (s.loseRegion c r cause).memOk := by
  have h : ∀ t : State, t.memOk → (if (t.ch c).ctl.st = .running then t.stopTiles c r.val else t).memOk := fun t ht => by
    split
    · exact stopTiles_memOk _ _ _ ht
    · exact ht
  unfold State.loseRegion
  (try dsimp only)
  repeat' split
  all_goals simp (maxDischargeDepth := 60) [hs]

@[simp] theorem cancelUp_memOk (s : State) (c : Ch) (g : Change) (cause region : Nat) (hs : s.memOk) :
    (s.cancelUp c g cause region).memOk := by simp +contextual (maxDischargeDepth := 60) [State.cancelUp, hs]

@[simp] theorem switchStep_memOk (s : State) (c : Ch) (g : Change) (hs : s.memOk) :
    (s.switchStep c g).memOk := by simp +contextual (maxDischargeDepth := 60) [State.switchStep, hs]

@[simp] theorem switchOn_memOk (s : State) (c : Ch) (r : Nat) (hs : s.memOk) :
    (s.switchOn c r).memOk := by simp +contextual (maxDischargeDepth := 60) [State.switchOn, hs]

@[simp] theorem switchOff_memOk (s : State) (c : Ch) (r : Nat) (hs : s.memOk) :
    (s.switchOff c r).memOk := by simp +contextual (maxDischargeDepth := 60) [State.switchOff, hs]

@[simp] theorem switchTo_memOk (s : State) (c : Ch) (mask : Nat) (hs : s.memOk) :
    (s.switchTo c mask).memOk := by simp +contextual (maxDischargeDepth := 60) [State.switchTo, hs]

@[simp] theorem wakeDone_memOk (s : State) (c : Ch) (hs : s.memOk) :
    (s.wakeDone c).memOk := by simp +contextual (maxDischargeDepth := 60) [State.wakeDone, hs]

@[simp] theorem logAlign_memOk (s : State) (st hops rank : Nat) (hs : s.memOk) :
    (s.logAlign st hops rank).memOk := by simp +contextual (maxDischargeDepth := 60) [State.logAlign, hs]

@[simp] theorem logAlignAlone_memOk (s : State) (st hops : Nat) (hs : s.memOk) :
    (s.logAlignAlone st hops).memOk := by simp +contextual (maxDischargeDepth := 60) [State.logAlignAlone, hs]

@[simp] theorem alignOwn_memOk (s : State) (hs : s.memOk) :
    s.alignOwn.memOk := by simp +contextual (maxDischargeDepth := 60) [State.alignOwn, hs]

@[simp] theorem rankWritten_memOk (s : State) (was : Bool) (hs : s.memOk) :
    (s.rankWritten was).memOk := by simp +contextual (maxDischargeDepth := 60) [State.rankWritten, hs]

@[simp] theorem timeAlign_memOk (s : State) (i : Nat) (hs : s.memOk) :
    (s.timeAlign i).memOk := by
  unfold State.timeAlign
  (try dsimp only)
  repeat' split
  all_goals first | exact hs | assumption | (simp +contextual (maxDischargeDepth := 60) [hs]; done)

@[simp] theorem outsiderHit_memOk (s : State) (c : Ch) (gs : List Nat) (source writer : Nat) (hs : s.memOk) :
    (s.outsiderHit c gs source writer).memOk := by
  unfold State.outsiderHit
  (try dsimp only)
  repeat' split
  all_goals first | exact hs | assumption | (simp +contextual (maxDischargeDepth := 60) [hs]; done)

@[simp] theorem depotGranule_memOk (s : State) (c : Ch) (write : Bool) (g : Nat) (hs : s.memOk) :
    (s.depotGranule c write g).memOk := by simp +contextual (maxDischargeDepth := 60) [State.depotGranule, hs]

@[simp] theorem depotPass_memOk (s : State) (c : Ch) (a n : Nat) (write : Bool) (hs : s.memOk) :
    (s.depotPass c a n write).memOk := by simp +contextual (maxDischargeDepth := 60) [State.depotPass, hs]

@[simp] theorem depotStore_memOk (s : State) (c : Ch) (a : Nat) (bs : List Byte) (hs : s.memOk) :
    (s.depotStore c a bs).memOk := by simp +contextual (maxDischargeDepth := 60) [State.depotStore, hs]

@[simp] theorem fillHost_memOk (s : State) (c : Ch) (a : Nat) (bs : List Byte) (poisoned : Bool) (hs : s.memOk) :
    (s.fillHost c a bs poisoned).1.memOk := by
  unfold State.fillHost
  repeat' split
  all_goals first | exact hs | assumption | (simp +contextual (maxDischargeDepth := 60) [hs]; done)

@[simp] theorem writeHost_memOk (s : State) (c : Ch) (a : Nat) (bs : List Byte) (poisoned : Bool) (under : List Byte × Bool) (hs : s.memOk) :
    (s.writeHost c a bs poisoned under).memOk := by simp +contextual (maxDischargeDepth := 60) [State.writeHost, hs]

@[simp] theorem outsiderWrite_memOk (s : State) (c : Ch) (a : Nat) (bs : List Byte) (poisoned : List Nat) (source writer : Nat) (hs : s.memOk) :
    (s.outsiderWrite c a bs poisoned source writer).memOk := by
  unfold State.outsiderWrite
  have h := depotStore_memOk s c a bs hs
  exact outsiderHit_memOk _ _ _ _ _ (onMem_memOk' _ _ _ h (foldl_mem_wf _ (fun t x ht => Memory.poison_wf x ht) _ _ (h c)))

@[simp] theorem postHost_memOk (s : State) (c : Ch) (a : Nat) (bs : List Byte) (hs : s.memOk) :
    (s.postHost c a bs).memOk := by simp +contextual (maxDischargeDepth := 60) [State.postHost, hs]

@[simp] theorem dbComplete_memOk (s : State) (c : Ch) (e : Nat × Nat) (status result : Nat) (hs : s.memOk) :
    (s.dbComplete c e status result).memOk := by simp +contextual (maxDischargeDepth := 60) [State.dbComplete, hs]

@[simp] theorem loadReported_memOk (s : State) (c : Ch) (result : Nat) (hs : s.memOk) :
    (s.loadReported c result).memOk := by
  unfold State.loadReported
  repeat' split
  all_goals first | exact hs | assumption | (simp +contextual (maxDischargeDepth := 60) [hs]; done)

@[simp] theorem pump_memOk (s : State) (c : Ch) (p : Pt) (hs : s.memOk) :
    (s.pump c p).memOk := by simp +contextual (maxDischargeDepth := 60) [State.pump, hs]

@[simp] theorem sendTrain_memOk (s : State) (c : Ch) (p : Pt) (vl op : Nat) (head : List Byte) (a : Nat) (data : List Byte) (poisoned : List Nat) (hs : s.memOk) :
    (s.sendTrain c p vl op head a data poisoned).memOk := by simp +contextual (maxDischargeDepth := 60) [State.sendTrain, hs]

@[simp] theorem sendControl_memOk (s : State) (c : Ch) (p : Pt) (kind train index : Nat) (waybill : W32) (payload : List Byte) (hs : s.memOk) :
    (s.sendControl c p kind train index waybill payload).memOk := by simp +contextual (maxDischargeDepth := 60) [State.sendControl, hs]

@[simp] theorem solicit_memOk (s : State) (c : Ch) (p : Pt) (target : List Byte) (hs : s.memOk) :
    (s.solicit c p target).memOk := by simp +contextual (maxDischargeDepth := 60) [State.solicit, hs]

@[simp] theorem sendMailOn_memOk (s : State) (c : Ch) (p : Pt) (vl op rank : Nat) (headAt : Nat → List Byte) (a : Nat) (data : List Byte) (poisoned : List Nat) (hs : s.memOk) :
    (s.sendMailOn c p vl op rank headAt a data poisoned).memOk := by simp +contextual (maxDischargeDepth := 60) [State.sendMailOn, hs]

@[simp] theorem sendOp_memOk (s : State) (c : Ch) (o : PartnerOp) (hs : s.memOk) :
    (s.sendOp c o).memOk := by
  unfold State.sendOp
  (try dsimp only)
  repeat' split
  all_goals first | exact hs | assumption | (simp +contextual (maxDischargeDepth := 60) [hs]; done)

@[simp] theorem newOp_memOk (s : State) (c : Ch) (p : Pt) (o : PartnerOp) (hs : s.memOk) :
    (s.newOp c p o).memOk := by
  unfold State.newOp
  (try dsimp only)
  repeat' split
  all_goals first | exact hs | assumption | (simp +contextual (maxDischargeDepth := 60) [hs]; done)

@[simp] theorem fetchPiece_memOk (s : State) (c : Ch) (k id : Nat) (put : Staged → State → State) (p : Nat × Nat) (hs : s.memOk) (h_put : ∀ x0 t, (t.memOk → (put x0 t).memOk)) :
    (s.fetchPiece c k id put p).memOk := by
  unfold State.fetchPiece
  (try dsimp only)
  repeat' split
  all_goals first | exact hs | assumption | (simp +contextual (maxDischargeDepth := 60) [hs, h_put]; done)

@[simp] theorem stage_memOk (s : State) (c : Ch) (k id : Nat) (g : Staged) (hs : s.memOk) :
    (s.stage c k id g).memOk := by simp +contextual (maxDischargeDepth := 60) [State.stage, hs]

@[simp] theorem noteFarWrite_memOk (s : State) (c : Ch) (id a n : Nat) (hs : s.memOk) :
    (s.noteFarWrite c id a n).memOk := by simp +contextual (maxDischargeDepth := 60) [State.noteFarWrite, hs]

@[simp] theorem noteFarRead_memOk (s : State) (c : Ch) (id : Nat) (u : MoveUnit) (hs : s.memOk) :
    (s.noteFarRead c id u).memOk := by simp +contextual (maxDischargeDepth := 60) [State.noteFarRead, hs]

@[simp] theorem writeOwned_memOk (s : State) (c : Ch) (id h : Nat) (bs : List Byte) (bad : Bool) (hs : s.memOk) :
    (s.writeOwned c id h bs bad).memOk := by
  unfold State.writeOwned
  (try dsimp only)
  repeat' split
  all_goals first | exact hs | assumption | (simp +contextual (maxDischargeDepth := 60) [hs]; done)

@[simp] theorem writeDst_memOk (s : State) (c : Ch) (id a : Nat) (bs : List Byte) (bad : List Nat) (hs : s.memOk) :
    (s.writeDst c id a bs bad).memOk := by
  unfold State.writeDst
  dsimp only
  split
  · refine foldl_memOk _ _ _ hs (fun t x ht => ?_)
    split <;> simp +contextual (maxDischargeDepth := 60) [ht]
  · refine foldl_memOk _ _ _ hs (fun t x ht => ?_)
    simp +contextual (maxDischargeDepth := 60) [ht]
  · exact hs
  · have h := depotStore_memOk _ c a bs (noteFarWrite_memOk s c id a bs.length hs)
    split
    · exact h
    · exact onMem_memOk' _ _ _ h (foldl_mem_wf _ (fun t x ht => Memory.poison_wf _ ht) _ _ (h c))

@[simp] theorem mapFault_memOk (s : State) (c : Ch) (k : Nat) (m : Move) (f : MapFault) (hs : s.memOk) :
    (s.mapFault c k m f).memOk := by simp +contextual (maxDischargeDepth := 60) [State.mapFault, hs]

@[simp] theorem retire_memOk (s : State) (c : Ch) (k : Nat) (m : Move) (hs : s.memOk) :
    (s.retire c k m).memOk := by simp +contextual (maxDischargeDepth := 60) [State.retire, hs]

@[simp] theorem carryOut_memOk (s : State) (c : Ch) (m : Move) (us : List (MoveUnit × List Byte)) (hs : s.memOk) :
    (s.carryOut c m us).memOk := by simp +contextual (maxDischargeDepth := 60) [State.carryOut, hs]

@[simp] theorem finishMove_memOk (s : State) (c : Ch) (k : Nat) (m : Move) (hs : s.memOk) :
    (s.finishMove c k m).memOk := by
  unfold State.finishMove
  (try dsimp only)
  repeat' split
  all_goals first | exact hs | assumption | (simp +contextual (maxDischargeDepth := 60) [hs]; done)

@[simp] theorem fetchAhead_memOk (s : State) (c : Ch) (k id a : Nat) (hs : s.memOk) :
    (s.fetchAhead c k id a).memOk := by
  unfold State.fetchAhead
  (try dsimp only)
  repeat' split
  all_goals first | exact hs | assumption | (simp +contextual (maxDischargeDepth := 60) [hs]; done)

@[simp] theorem fetchAll_memOk (s : State) (c : Ch) (k : Nat) (m : Move) (hs : s.memOk) :
    (s.fetchAll c k m).memOk := by
  unfold State.fetchAll
  all_goals first | exact hs | assumption | (simp +contextual (maxDischargeDepth := 60) [hs]; done)

@[simp] theorem advanceMove_memOk (s : State) (c : Ch) (k id n : Nat) (hs : s.memOk) :
    (s.advanceMove c k id n).memOk := by
  induction n generalizing s with
  | zero => exact hs
  | succ n ih =>
    unfold State.advanceMove
    (try dsimp only)
    split
    · exact hs
    · split
      · simp [hs]
      · split
        · split
          · simp [hs]
          · exact hs
        · split
          · simp [hs]
          · split
            · simp [hs]
            · exact ih _ (by simp [hs])

@[simp] theorem advanceAll_memOk (s : State) (c : Ch) (k : Nat) (hs : s.memOk) :
    (s.advanceAll c k).memOk := foldl_memOk _ _ _ hs (fun t m ht => by simp [ht])

@[simp] theorem demand_memOk (s : State) (c : Ch) (k id : Nat) (faults : List MemFault) (hs : s.memOk) :
    (s.demand c k id faults).memOk := by
  unfold State.demand
  (try dsimp only)
  split
  · exact hs
  · split
    · simp [hs]
    · refine advanceMove_memOk _ _ _ _ _ (onCluster_memOk _ _ _ _ (onMem_memOk' _ _ _ ?_ ?_))
      · refine foldl_memOk _ _ _ hs (fun t f ht => ?_)
        split
        · simp [ht]
        · exact ht
      · refine foldl_memOk _ _ _ hs (fun t f ht => ?_) c
        split
        · simp [ht]
        · exact ht

theorem moveCar_memOk (s : State) (c : Ch) (k : Nat) (want : QCar → Nat → Bool) (body : Nat → Nat → QCar → State → Option State) (hs : s.memOk)
    (h_body : ∀ a b e t u, body a b e t = some u → t.memOk → u.memOk) :
    (s.moveCar c k want body).memOk := by
  unfold State.moveCar
  refine issueFrom_memOk _ _ _ _ _ hs (fun e t u h ht => ?_)
  dsimp only at h
  repeat' split at h
  all_goals first
    | (cases h; done)
    | (obtain rfl := Option.some.inj h; simp [ht]; done)
    | (refine h_body _ _ _ _ _ h ?_; simp (maxDischargeDepth := 60) [ht])

@[simp] theorem runMove_memOk (s : State) (c : Ch) (k mode : Nat) (ahead : List Nat) (faults : List MemFault) (hs : s.memOk) :
    (s.runMove c k mode ahead faults).memOk := by
  unfold State.runMove
  first
  | refine issueFrom_memOk _ _ _ _ _ hs (fun e t u h ht => ?_)
  | refine readPoint_memOk _ _ _ _ hs (fun e t u h ht => ?_)
  revert h
  (try dsimp only)
  repeat' split
  all_goals intro h
  all_goals first
    | (cases h; done)
    | (obtain rfl := Option.some.inj h; simp +contextual (maxDischargeDepth := 60) [ht]; done)

@[simp] theorem arrive_memOk (s : State) (c : Ch) (id a : Nat) (bs : List Byte) (bad : List Nat) (hs : s.memOk) :
    (s.arrive c id a bs bad).memOk := by
  unfold State.arrive
  split
  · exact hs
  · dsimp only
    exact settle_memOk _ _ (touch_memOk _ _ (advanceAll_memOk _ _ _ (onCluster_memOk _ _ _ _ hs)))

@[simp] theorem restartCar_memOk (s : State) (c : Ch) (k eng : Nat) (f : Refetch) (r : TileRec) (hs : s.memOk) :
    (s.restartCar c k eng f r).memOk := by
  unfold State.restartCar
  (try dsimp only)
  repeat' split
  all_goals simp +contextual (maxDischargeDepth := 60) [hs]

@[simp] theorem worldCar_memOk (s : State) (c : Ch) (k op : Nat) (body : QCar → Image → Nat → Nat → State → State) (hs : s.memOk) (h_body : ∀ x0 x1 x2 x3 t, (t.memOk → (body x0 x1 x2 x3 t).memOk)) :
    (s.worldCar c k op body).memOk := by
  unfold State.worldCar
  first
  | refine issueFrom_memOk _ _ _ _ _ hs (fun e t u h ht => ?_)
  | refine readPoint_memOk _ _ _ _ hs (fun e t u h ht => ?_)
  revert h
  (try dsimp only)
  repeat' split
  all_goals intro h
  all_goals first
    | (cases h; done)
    | (obtain rfl := Option.some.inj h; simp +contextual (maxDischargeDepth := 60) [h_body, ht]; done)

@[simp] theorem worldDone_memOk (s : State) (c : Ch) (k : Nat) (e : QCar) (hs : s.memOk) :
    (s.worldDone c k e).memOk := by simp +contextual (maxDischargeDepth := 60) [State.worldDone, hs]

@[simp] theorem endSlots_memOk (c : Ch) (k : Nat) (i : Image) (v ring : Nat) (l : List Nat) (s : State) (hs : s.memOk) :
    (s.endSlots c k i v ring l).memOk := by
  induction l generalizing s with
  | nil => exact hs
  | cons n ns ih =>
    unfold State.endSlots
    dsimp only
    split
    · simp [hs]
    · refine ih _ (setCh_memOk _ _ _ hs (Memory.write_wf _ _ (Memory.write_wf _ _ ?_)))
      have h0 : ((endSlot ((s.ch c).mem.nat (i.slotAt n) 32)
          (BitVec.ofNat 32 ((s.ch c).mem.nat (tenderAt k (woTaddr v + 4 * (n - woFirst v))) 4))).2.2.2 (s.ch c).mem).wf := by
        unfold endSlot
        dsimp only
        repeat' split
        all_goals exact ⟨(hs c).1, (hs c).2⟩
      split
      · exact Memory.write_wf _ _ h0
      · exact h0

@[simp] theorem resetSlot_memOk (s : State) (c : Ch) (i : Image) (n : Nat) (hs : s.memOk) :
    (s.resetSlot c i n).memOk := by simp +contextual (maxDischargeDepth := 60) [State.resetSlot, hs]

@[simp] theorem endSlot_bytes (v : Nat) (d : W32) (m : Memory) : ((endSlot v d).2.2.2 m).bytes = m.bytes := by
  unfold endSlot; dsimp only; repeat' split
  all_goals (dsimp only) <;> rfl

@[simp] theorem endSlot_marks (v : Nat) (d : W32) (m : Memory) : ((endSlot v d).2.2.2 m).marks = m.marks := by
  unfold endSlot; dsimp only; repeat' split
  all_goals (dsimp only) <;> rfl

@[simp] theorem resetSlots_memOk (c : Ch) (i : Image) (v : Nat) (l : List Nat) (s : State) (hs : s.memOk) :
    (s.resetSlots c i v l).1.memOk := by
  induction l generalizing s with
  | nil => exact hs
  | cons n ns ih =>
    unfold State.resetSlots
    dsimp only
    split
    · exact hs
    · split
      · split
        · exact hs
        · exact ih _ (resetSlot_memOk _ _ _ _ hs)
      · exact ih _ hs

@[simp] theorem sendFragTrain_memOk (s : State) (c : Ch) (p : Pt) (m : MsgOut) (f n : Nat) (data : List Byte) (poisoned : List Nat) (hs : s.memOk) :
    (s.sendFragTrain c p m f n data poisoned).memOk := by
  unfold State.sendFragTrain
  (try dsimp only)
  all_goals first | exact hs | assumption | (simp +contextual (maxDischargeDepth := 60) [hs]; done)

@[simp] theorem sendFrags_memOk (s : State) (c : Ch) (p : Pt) (m : MsgOut) (f n : Nat) (hs : s.memOk) :
    (s.sendFrags c p m f n).memOk := by
  unfold State.sendFrags
  dsimp only
  split
  · exact sendFragTrain_memOk _ _ _ _ _ _ _ _ hs
  · split
    · exact consumePoison_memOk _ _ _ _ hs
    · exact sendFragTrain_memOk _ _ _ _ _ _ _ _ (depotPass_memOk _ _ _ _ _ hs)

@[simp] theorem mailPump_memOk (s : State) (c : Ch) (id : Nat) (hs : s.memOk) :
    (s.mailPump c id).memOk := by
  unfold State.mailPump
  (try dsimp only)
  repeat' split
  all_goals first | exact hs | assumption | (simp +contextual (maxDischargeDepth := 60) [hs]; done)

theorem ringDoorbell_memOk (s : State) (c : Ch) (k : Nat) (m : Move) (body : Nat → List Byte → State → Ring) (hs : s.memOk)
    (h_body : ∀ x0 x1 t u, t.memOk → body x0 x1 t = .done u → u.memOk) :
    ∀ u, (s.ringDoorbell c k m body) = some u → u.memOk := by
  intro u h
  unfold State.ringDoorbell at h
  (try dsimp only at h)
  split at h
  · obtain rfl := Option.some.inj h; simp [hs]
  · split at h
    · split at h
      · cases h
      · obtain rfl := Option.some.inj h; simp [hs]
    · split at h
      · obtain rfl := Option.some.inj h; simp [hs]
      · split at h
        · cases h
        · obtain rfl := Option.some.inj h; simp [hs]
        · obtain rfl := Option.some.inj h; simp [hs]
        · rename_i t ht
          obtain rfl := Option.some.inj h
          simp [h_body _ _ _ _ hs ht]

theorem doorbellCar_memOk (s : State) (c : Ch) (k kind : Nat) (body : Nat → List Byte → State → Ring) (hs : s.memOk)
    (h_body : ∀ x0 x1 t u, t.memOk → body x0 x1 t = .done u → u.memOk) :
    (s.doorbellCar c k kind body).memOk := by
  unfold State.doorbellCar
  (try dsimp only)
  split
  · rename_i m _
    cases hr : s.ringDoorbell c k m body with
    | none => exact hs
    | some t => simp [ringDoorbell_memOk _ _ _ _ _ hs h_body _ hr]
  · refine moveCar_memOk _ _ _ _ _ hs (fun id x1 x2 t u h ht => ?_)
    split at h
    · exact ringDoorbell_memOk _ _ _ _ _ ht h_body _ h
    · cases h

@[simp] theorem onTrain_memOk (s : State) (c : Ch) (p : Pt) (lane a : Nat) (data : List Byte) (body : State → State) (hs : s.memOk) (h_body : ∀ t, (t.memOk → (body t).memOk)) :
    (s.onTrain c p lane a data body).memOk := by simp +contextual (maxDischargeDepth := 60) [State.onTrain, hs, h_body]

@[simp] theorem sendHello_memOk (s : State) (c : Ch) (p : Pt) (hs : s.memOk) :
    (s.sendHello c p).memOk := by simp +contextual (maxDischargeDepth := 60) [State.sendHello, hs]

@[simp] theorem partnerReset_memOk (s : State) (c : Ch) (p : Pt) (rank : Nat) (hs : s.memOk) :
    (s.partnerReset c p rank).memOk := by
  unfold State.partnerReset
  (try dsimp only)
  repeat' split
  all_goals first | exact hs | assumption | (simp +contextual (maxDischargeDepth := 60) [hs]; done)

@[simp] theorem gotHello_memOk (s : State) (c : Ch) (p : Pt) (g : Hello) (hs : s.memOk) :
    (s.gotHello c p g).memOk := by
  unfold State.gotHello
  refine timeAlign_memOk _ _ (onPort_memOk _ _ _ _ ?_)
  split
  · split <;> simp +contextual (maxDischargeDepth := 60) [hs]
  · exact hs

@[simp] theorem resume_memOk (s : State) (c : Ch) (hs : s.memOk) :
    (s.resume c).memOk := by simp +contextual (maxDischargeDepth := 60) [State.resume, hs]

@[simp] theorem sendCtrl_memOk (s : State) (c : Ch) (p : Pt) (next : Nat) (nak : Bool) (hs : s.memOk) :
    (s.sendCtrl c p next nak).memOk := by simp +contextual (maxDischargeDepth := 60) [State.sendCtrl, hs]

@[simp] theorem sendAgain_memOk (s : State) (c : Ch) (w : List PartnerOp × List MsgOut) (hs : s.memOk) :
    (s.sendAgain c w).memOk := by simp +contextual (maxDischargeDepth := 60) [State.sendAgain, hs]

@[simp] theorem setLinkEnable_memOk (s : State) (c : Ch) (p : Pt) (on : Bool) (hs : s.memOk) :
    (s.setLinkEnable c p on).memOk := by simp +contextual (maxDischargeDepth := 60) [State.setLinkEnable, hs]

@[simp] theorem respond_memOk (s : State) (c : Ch) (came : Came) (op rank : Nat) (h : RespHead) (a : Nat) (data : List Byte) (poisoned : List Nat) (hs : s.memOk) :
    (s.respond c came op rank h a data poisoned).memOk := by
  unfold State.respond
  (try dsimp only)
  repeat' split
  all_goals first | exact hs | assumption | (simp +contextual (maxDischargeDepth := 60) [hs]; done)

@[simp] theorem inSequence_memOk (s : State) (c : Ch) (rank port seq : Nat) (body again : State → State) (hs : s.memOk) (h_body : ∀ t, (t.memOk → (body t).memOk)) (h_again : ∀ t, (t.memOk → (again t).memOk)) :
    (s.inSequence c rank port seq body again).memOk := by
  unfold State.inSequence
  (try dsimp only)
  repeat' split
  all_goals first | exact hs | assumption | (simp +contextual (maxDischargeDepth := 60) [hs, h_body, h_again]; done)

@[simp] theorem combine_memOk (s : State) (c : Ch) (addr key arrival : Nat) (hs : s.memOk) :
    (s.combine c addr key arrival).memOk := by
  unfold State.combine
  (try dsimp only)
  repeat' split
  all_goals first | exact hs | assumption | (simp +contextual (maxDischargeDepth := 60) [hs]; done)

@[simp] theorem serveRead_memOk (s : State) (c : Ch) (p : Pt) (came : Came) (h : ReqHead) (hs : s.memOk) :
    (s.serveRead c p came h).memOk := by simp +contextual (maxDischargeDepth := 60) [State.serveRead, hs]

@[simp] theorem ackWrite_memOk (s : State) (c : Ch) (came : Came) (h : ReqHead) (status : Nat) (hs : s.memOk) :
    (s.ackWrite c came h status).memOk := by simp +contextual (maxDischargeDepth := 60) [State.ackWrite, hs]

@[simp] theorem applyWrite_memOk (s : State) (c : Ch) (p : Pt) (came : Came) (h : ReqHead) (data : List Byte) (poisoned : List Nat) (hs : s.memOk) :
    (s.applyWrite c p came h data poisoned).memOk := by simp +contextual (maxDischargeDepth := 60) [State.applyWrite, hs]

@[simp] theorem answerAtomic_memOk (s : State) (c : Ch) (came : Came) (h : AtomHead) (status result : Nat) (hs : s.memOk) :
    (s.answerAtomic c came h status result).memOk := by simp +contextual (maxDischargeDepth := 60) [State.answerAtomic, hs]

@[simp] theorem applyAtomic_memOk (s : State) (c : Ch) (p : Pt) (came : Came) (op : Nat) (h : AtomHead) (hs : s.memOk) :
    (s.applyAtomic c p came op h).memOk := by
  unfold State.applyAtomic
  (try dsimp only)
  repeat' split
  all_goals first | exact hs | assumption | (simp +contextual (maxDischargeDepth := 60) [hs]; done)

@[simp] theorem applyRound_memOk (s : State) (c : Ch) (r : Round) (hs : s.memOk) :
    (s.applyRound c r).memOk := by simp +contextual (maxDischargeDepth := 60) [State.applyRound, hs]

@[simp] theorem holdAtomic_memOk (s : State) (c : Ch) (p : Pt) (came : Came) (op : Nat) (h : AtomHead) (hs : s.memOk) :
    (s.holdAtomic c p came op h).memOk := by simp +contextual (maxDischargeDepth := 60) [State.holdAtomic, hs]

@[simp] theorem applyInner_memOk (s : State) (c : Ch) (arrival : Nat) (x : Inner) (hs : s.memOk) :
    (s.applyInner c arrival x).memOk := by
  unfold State.applyInner
  (try dsimp only)
  repeat' split
  all_goals first | exact hs | assumption | (simp +contextual (maxDischargeDepth := 60) [hs]; done)

@[simp] theorem releaseHeld_memOk (s : State) (c : Ch) (n : Nat) (hs : s.memOk) :
    (s.releaseHeld c n).memOk := by
  induction n generalizing s with
  | zero => exact hs
  | succ n ih =>
    unfold State.releaseHeld
    split
    · exact hs
    · exact ih _ (by simp [hs])

@[simp] theorem combineInner_memOk (s : State) (c : Ch) (arrival : Nat) (x : Inner) (hs : s.memOk) :
    (s.combineInner c arrival x).memOk := by
  cases x <;> simp [State.combineInner, hs]

@[simp] theorem answerAgain_memOk (s : State) (c : Ch) (arrival : Nat) (x : Inner) (hs : s.memOk) :
    (s.answerAgain c arrival x).memOk := by
  unfold State.answerAgain
  (try dsimp only)
  repeat' split
  all_goals first | exact hs | assumption | (simp +contextual (maxDischargeDepth := 60) [hs]; done)

@[simp] theorem takeOp_memOk (s : State) (c : Ch) (p : Pt) (came : Came) (x : Inner) (hs : s.memOk) :
    (s.takeOp c p came x).memOk := by
  unfold State.takeOp
  refine inSequence_memOk _ _ _ _ _ _ _ hs (fun t ht => ?_) (fun t ht => by simp [ht])
  (try dsimp only)
  split
  · exact onHub_memOk _ _ _ (combineInner_memOk _ _ _ _ ht)
  · exact releaseHeld_memOk _ _ _ (applyInner_memOk _ _ _ _ (combineInner_memOk _ _ _ _ ht))

@[simp] theorem atomicTrain_memOk (s : State) (c : Ch) (p : Pt) (op : Nat) (h : AtomHead) (hs : s.memOk) :
    (s.atomicTrain c p op h).memOk := by simp +contextual (maxDischargeDepth := 60) [State.atomicTrain, hs]

@[simp] theorem endOp_memOk (s : State) (c : Ch) (o : PartnerOp) (hs : s.memOk) :
    (s.endOp c o).memOk := by simp +contextual (maxDischargeDepth := 60) [State.endOp, hs]

@[simp] theorem partnerRefused_memOk (s : State) (c : Ch) (p : Pt) (o : PartnerOp) (status : Nat) (hs : s.memOk) :
    (s.partnerRefused c p o status).memOk := by simp +contextual (maxDischargeDepth := 60) [State.partnerRefused, hs]

theorem signalCar_memOk (s : State) (w : At) (func : Nat) (body : Car → State → Option State) (hs : s.memOk)
    (h_body : ∀ e t u, body e t = some u → t.memOk → u.memOk) :
    (s.signalCar w func body).memOk := by
  unfold State.signalCar
  refine readPoint_memOk _ _ _ _ hs (fun car t u h ht => ?_)
  dsimp only at h
  split at h
  · cases h
  · split at h
    · obtain rfl := Option.some.inj h; simp [ht]
    · split at h
      · cases h
      · obtain ⟨v, hv, hb⟩ := Option.bind_eq_some_iff.mp h
        exact h_body _ _ _ hb (commonWait_memOk _ _ _ _ ht _ hv)

@[simp] theorem passPost_memOk (s : State) (c : Ch) (k : Nat) (car : Car) (hs : s.memOk) :
    (s.passPost c k car).memOk := by simp +contextual (maxDischargeDepth := 60) [State.passPost, hs]

theorem controlCar_memOk (s : State) (w : At) (func : Nat) (body : Car → Cluster → State → Option State) (hs : s.memOk)
    (h_body : ∀ e cl t u, body e cl t = some u → t.memOk → u.memOk) :
    (s.controlCar w func body).memOk := by
  unfold State.controlCar
  refine readPoint_memOk _ _ _ _ hs (fun car t u h ht => ?_)
  split at h
  · exact h_body _ _ _ _ h ht
  · cases h

theorem reportCommit_memOk (s : State) (c : Ch) (k : Nat) (hs : s.memOk) :
    ∀ u, (s.reportCommit c k) = some u → u.memOk := by
  intro u h
  unfold State.reportCommit at h
  (try dsimp only at h)
  repeat' split at h
  all_goals first
    | (cases h; done)
    | (obtain rfl := Option.some.inj h; simp +contextual (maxDischargeDepth := 60) [hs]; done)

@[simp] theorem replay_memOk (s : State) (c : Ch) (o : Occ) (rung : Nat) (moved : List (Nat × Nat)) (causeO causeT : Bool) (hs : s.memOk) :
    (s.replay c o rung moved causeO causeT).memOk := by simp +contextual (maxDischargeDepth := 60) [State.replay, hs]

@[simp] theorem commitOcc_memOk (s : State) (c : Ch) (o : Occ) (hs : s.memOk) :
    (s.commitOcc c o).memOk := by simp +contextual (maxDischargeDepth := 60) [State.commitOcc, hs]

theorem staging_writes_wf (g : Staging) (i : Image) (m : Memory) (h : m.wf) : (g.writes i m).wf := by
  unfold Staging.writes
  have put : ∀ (t : Memory) (x : Nat × Nat × Nat), t.wf → (t.write x.1 (g.bytes x.2.2 x.2.1)).wf := fun t x ht => Memory.write_wf _ _ ht
  have h1 := foldl_mem_wf _ put (g.consts.getD []) _ h
  dsimp only
  cases g.sec? 5 with
  | none =>
    have h2 := foldl_mem_wf _ put (g.worldRecords.getD []) _ h1
    cases g.sec? 2 with
    | none => exact h2
    | some e => exact Memory.write_wf _ _ h2
  | some e =>
    have h2 := foldl_mem_wf _ put (g.worldRecords.getD []) _
      (Memory.write_wf i.slotBase (g.bytes (e.off + 64) (32 * (i.slots + i.rings))) h1)
    cases g.sec? 2 with
    | none => exact h2
    | some e => exact Memory.write_wf _ _ h2

@[simp] theorem logMismatches_memOk (s : State) (c : Ch) (o : Occ) (g : Nat) (hs : s.memOk) :
    (s.logMismatches c o g).memOk := by simp +contextual (maxDischargeDepth := 60) [State.logMismatches, hs]

@[simp] theorem logBoundary_memOk (s : State) (c : Ch) (code layer before after param : Nat) (hs : s.memOk) :
    (s.logBoundary c code layer before after param).memOk := by simp +contextual (maxDischargeDepth := 60) [State.logBoundary, hs]

@[simp] theorem startRung_memOk (s : State) (c : Ch) (layer rc : Nat) (hs : s.memOk) :
    (s.startRung c layer rc).memOk := by simp +contextual (maxDischargeDepth := 60) [State.startRung, hs]

@[simp] theorem stepExponent_memOk (s : State) (c : Ch) (layer rc : Nat) (stats : Tab (Option Int × Bool)) (hs : s.memOk) :
    (s.stepExponent c layer rc stats).memOk := by simp +contextual (maxDischargeDepth := 60) [State.stepExponent, hs]

@[simp] theorem stepEnd_memOk (s : State) (c : Ch) (i : Image) (hs : s.memOk) :
    (s.stepEnd c i).memOk := by
  unfold State.stepEnd
  (try dsimp only)
  repeat' split
  all_goals first | exact hs | assumption | (simp +contextual (maxDischargeDepth := 60) [hs]; done)

@[simp] theorem average_memOk (s : State) (c : Ch) (k : Committed) (hs : s.memOk) :
    (s.average c k).memOk := by simp +contextual (maxDischargeDepth := 60) [State.average, hs]

@[simp] theorem averages_memOk (s : State) (c : Ch) (hs : s.memOk) :
    (s.averages c).memOk := by simp +contextual (maxDischargeDepth := 60) [State.averages, hs]

@[simp] theorem legRegions_memOk (s : State) (c : Ch) (i : Image) (leg : Nat) (hs : s.memOk) :
    (s.legRegions c i leg).memOk := by simp +contextual (maxDischargeDepth := 60) [State.legRegions, hs]

@[simp] theorem legDone_memOk (s : State) (c : Ch) (i : Image) (next : Nat) (hs : s.memOk) :
    (s.legDone c i next).memOk := by simp +contextual (maxDischargeDepth := 60) [State.legDone, hs]

@[simp] theorem iterationDone_memOk (s : State) (c : Ch) (hs : s.memOk) :
    (s.iterationDone c).memOk := by simp +contextual (maxDischargeDepth := 60) [State.iterationDone, hs]

@[simp] theorem legExit_memOk (s : State) (c : Ch) (i : Image) (last : Bool) (diverged : Option (List Byte)) (hs : s.memOk) :
    (s.legExit c i last diverged).memOk := by
  unfold State.legExit
  repeat' split
  all_goals first | exact hs | assumption | (simp +contextual (maxDischargeDepth := 60) [hs]; done)

theorem settingsNow_memOk (s : State) (c : Ch) (hs : s.memOk) : (s.onCh c Chan.settingsNow).memOk :=
  setCh_memOk _ _ _ hs (hs c)

@[simp] theorem boundary_memOk (s : State) (c : Ch) (i : Image) (hs : s.memOk) :
    (s.boundary c i).memOk := by
  have hn : ∀ n, ((((s.legDone c i n).averages c).onCh c Chan.settingsNow).legRegions c i n).memOk := fun n =>
    legRegions_memOk _ _ _ _ (settingsNow_memOk _ _ (averages_memOk _ _ (legDone_memOk _ _ _ _ hs)))
  unfold State.boundary
  dsimp only
  split
  · exact legExit_memOk _ _ _ _ _ (touch_memOk _ _ (onYard_memOk _ _ _ (iterationDone_memOk _ _ (hn _))))
  · exact legExit_memOk _ _ _ _ _ (touch_memOk _ _ (onYard_memOk _ _ _ (hn _)))

@[simp] theorem holdStill_memOk (s : State) (c : Ch) (code : Nat) (hs : s.memOk) :
    (s.holdStill c code).memOk := by simp +contextual (maxDischargeDepth := 60) [State.holdStill, hs]

@[simp] theorem ackMail_memOk (s : State) (c : Ch) (rank status queue msg next : Nat) (hs : s.memOk) :
    (s.ackMail c rank status queue msg next).memOk := by
  unfold State.ackMail
  (try dsimp only)
  repeat' split
  all_goals first | exact hs | assumption | (simp +contextual (maxDischargeDepth := 60) [hs]; done)

@[simp] theorem mailWhole_memOk (s : State) (c : Ch) (p : Pt) (h : MailHead) (hs : s.memOk) :
    (s.mailWhole c p h).memOk := by simp +contextual (maxDischargeDepth := 60) [State.mailWhole, hs]

@[simp] theorem takeFrags_memOk (s : State) (c : Ch) (p : Pt) (h : MailHead) (next : Nat) (data : List Byte) (poisoned : List Nat) (hs : s.memOk) :
    (s.takeFrags c p h next data poisoned).memOk := by simp +contextual (maxDischargeDepth := 60) [State.takeFrags, hs]

@[simp] theorem takeMail_memOk (s : State) (c : Ch) (p : Pt) (h : MailHead) (data : List Byte) (poisoned : List Nat) (hs : s.memOk) :
    (s.takeMail c p h data poisoned).memOk := by
  unfold State.takeMail
  (try dsimp only)
  repeat' split
  all_goals first | exact hs | assumption | (simp +contextual (maxDischargeDepth := 60) [hs]; done)

@[simp] theorem yardPost_memOk (s : State) (c : Ch) (i : Image) (dst tag msg : Nat) (data : List Byte) (hs : s.memOk) :
    (s.yardPost c i dst tag msg data).memOk := by simp +contextual (maxDischargeDepth := 60) [State.yardPost, hs]

@[simp] theorem yardPump_memOk (s : State) (c : Ch) (hs : s.memOk) :
    (s.yardPump c).memOk := by
  unfold State.yardPump
  split
  · exact hs
  · refine foldl_memOk _ _ _ hs (fun t o ht => ?_)
    split <;> simp [ht]

@[simp] theorem undeliverable_memOk (s : State) (c : Ch) (m : MsgOut) (source : Nat) (hs : s.memOk) :
    (s.undeliverable c m source).memOk := by simp +contextual (maxDischargeDepth := 60) [State.undeliverable, hs]

@[simp] theorem resendMail_memOk (s : State) (c : Ch) (m : MsgOut) (hs : s.memOk) :
    (s.resendMail c m).memOk := by simp +contextual (maxDischargeDepth := 60) [State.resendMail, hs]

@[simp] theorem yardSend_memOk (s : State) (c : Ch) (dst kind seg owner chunk : Nat) (data : List Byte) (hs : s.memOk) :
    (s.yardSend c dst kind seg owner chunk data).memOk := by simp +contextual (maxDischargeDepth := 60) [State.yardSend, hs]

@[simp] theorem yardDone_memOk (s : State) (c : Ch) (q : YardCar) (hs : s.memOk) :
    (s.yardDone c q).memOk := by
  unfold State.yardDone
  (try dsimp only)
  repeat' split
  all_goals first | exact hs | assumption | (simp +contextual (maxDischargeDepth := 60) [hs]; done)

@[simp] theorem tryDeliver_memOk (s : State) (c : Ch) (i : Image) (hs : s.memOk) :
    (s.tryDeliver c i).memOk := by simp +contextual (maxDischargeDepth := 60) [State.tryDeliver, hs]

@[simp] theorem tryAwait_memOk (s : State) (c : Ch) (i : Image) (hs : s.memOk) :
    (s.tryAwait c i).memOk := by simp +contextual (maxDischargeDepth := 60) [State.tryAwait, hs]

@[simp] theorem storeParts_memOk (s : State) (c : Ch) (parts : List (Nat × Nat)) (bs : List Byte) (hs : s.memOk) :
    (s.storeParts c parts bs).memOk := by
  unfold State.storeParts
  induction parts generalizing s bs with
  | nil => exact hs
  | cons p l ih => exact ih _ _ (depotStore_memOk _ _ _ _ hs)

@[simp] theorem putCopy_memOk (s : State) (c : Ch) (i : Image) (seg owner chunk : Nat) (bs : List Byte) (hs : s.memOk) :
    (s.putCopy c i seg owner chunk bs).memOk := by simp +contextual (maxDischargeDepth := 60) [State.putCopy, hs]

@[simp] theorem passOn_memOk (s : State) (c : Ch) (i : Image) (seg owner chunk : Nat) (bs : List Byte) (hs : s.memOk) :
    (s.passOn c i seg owner chunk bs).memOk := by simp +contextual (maxDischargeDepth := 60) [State.passOn, hs]

@[simp] theorem publishChunk_memOk (s : State) (c : Ch) (i : Image) (seg chunk : Nat) (bs : List Byte) (hs : s.memOk) :
    (s.publishChunk c i seg chunk bs).memOk := by simp +contextual (maxDischargeDepth := 60) [State.publishChunk, hs]

@[simp] theorem yardRoot_memOk (s : State) (c : Ch) (i : Image) (seg chunk : Nat) (ws : List W32) (hs : s.memOk) :
    (s.yardRoot c i seg chunk ws).memOk := by
  unfold State.yardRoot
  dsimp only
  split
  · split <;> simp +contextual (maxDischargeDepth := 60) [hs]
  · cases i.backupRank (s.ch c).rank <;> simp +contextual (maxDischargeDepth := 60) [hs]

@[simp] theorem useValue_memOk (s : State) (c : Ch) (i : Image) (seg chunk lm : Nat) (ws : List W32) (slot : Option Nat) (hs : s.memOk) :
    (s.useValue c i seg chunk lm ws slot).memOk := by simp +contextual (maxDischargeDepth := 60) [State.useValue, hs]

@[simp] theorem useBackup_memOk (s : State) (c : Ch) (i : Image) (q : QuadCopy) (after : Nat) (hs : s.memOk) :
    (s.useBackup c i q after).memOk := by simp +contextual (maxDischargeDepth := 60) [State.useBackup, hs]

@[simp] theorem deadlineUse_memOk (s : State) (c : Ch) (i : Image) (seg chunk lm due : Nat) (hs : s.memOk) :
    (s.deadlineUse c i seg chunk lm due).memOk := by
  unfold State.deadlineUse
  (try dsimp only)
  repeat' split
  all_goals first | exact hs | assumption | (simp +contextual (maxDischargeDepth := 60) [hs]; done)

@[simp] theorem compareCopies_memOk (s : State) (c : Ch) (seg chunk lm : Nat) (hs : s.memOk) :
    (s.compareCopies c seg chunk lm).memOk := by
  unfold State.compareCopies
  (try dsimp only)
  repeat' split
  all_goals first | exact hs | assumption | (simp +contextual (maxDischargeDepth := 60) [hs]; done)

@[simp] theorem useCopy_memOk (s : State) (c : Ch) (i : Image) (q : QuadCopy) (hs : s.memOk) :
    (s.useCopy c i q).memOk := by simp +contextual (maxDischargeDepth := 60) [State.useCopy, hs]

@[simp] theorem copyDone_memOk (s : State) (c : Ch) (i : Image) (seg chunk m : Nat) (data : List Byte) (slot : Option Nat) (hs : s.memOk) :
    (s.copyDone c i seg chunk m data slot).memOk := by
  unfold State.copyDone
  dsimp only
  split
  · exact useValue_memOk _ _ _ _ _ _ _ _ hs
  · refine compareCopies_memOk _ _ _ _ _ (useCopy_memOk _ _ _ _ ?_)
    split
    · exact deadlineUse_memOk _ _ _ _ _ _ _ hs
    · exact hs

@[simp] theorem placeNode_memOk (s : State) (c : Ch) (i : Image) (seg owner chunk level pos : Nat) (ws : List W32) (hs : s.memOk) :
    (s.placeNode c i seg owner chunk level pos ws).memOk := by simp +contextual (maxDischargeDepth := 60) [State.placeNode, hs]

@[simp] theorem askCredits_memOk (s : State) (c : Ch) (i : Image) (seg : Nat) (kinds : List Nat) (hs : s.memOk) :
    (s.askCredits c i seg kinds).memOk := by simp +contextual (maxDischargeDepth := 60) [State.askCredits, hs]

theorem yardCar_memOk (s : State) (w : At) (func amode : Nat) (body : Image → Car → State → State) (hs : s.memOk)
    (h_body : ∀ i e t, t.memOk → (body i e t).memOk) :
    (s.yardCar w func amode body).memOk := by
  unfold State.yardCar
  refine readPoint_memOk _ _ _ _ hs (fun car t u h ht => ?_)
  dsimp only at h
  split at h
  · cases h
  · split at h
    · cases h
    · split at h
      · obtain rfl := Option.some.inj h; simp [ht]
      · split at h
        · cases h
        · obtain ⟨v, hv, rfl⟩ := Option.map_eq_some_iff.mp h
          exact h_body _ _ _ (commonWait_memOk _ _ _ _ ht _ hv)

@[simp] theorem holdCar_memOk (s : State) (w : At) (car : Car) (hs : s.memOk) :
    (s.holdCar w car).memOk := by simp +contextual (maxDischargeDepth := 60) [State.holdCar, hs]

@[simp] theorem accumulate_memOk (s : State) (w : At) (i : Image) (car : Car) (add : Bool) (hs : s.memOk) :
    (s.accumulate w i car add).memOk := by
  unfold State.accumulate
  (try dsimp only)
  repeat' split
  all_goals first | exact hs | assumption | (simp +contextual (maxDischargeDepth := 60) [hs]; done)

@[simp] theorem enterLeaves_memOk (s : State) (w : At) (i : Image) (car : Car) (final : Bool) (hs : s.memOk) :
    (s.enterLeaves w i car final).memOk := by
  unfold State.enterLeaves
  (try dsimp only)
  repeat' split
  all_goals first | exact hs | assumption | (simp +contextual (maxDischargeDepth := 60) [hs]; done)

@[simp] theorem ackYard_memOk (s : State) (c : Ch) (m : YardMsg) (status : Nat) (hs : s.memOk) :
    (s.ackYard c m status).memOk := by simp +contextual (maxDischargeDepth := 60) [State.ackYard, hs]

@[simp] theorem uncredited_memOk (s : State) (c : Ch) (kind : Nat) (m : YardMsg) (hs : s.memOk) :
    (s.uncredited c kind m).memOk := by
  unfold State.uncredited
  all_goals first | exact hs | assumption | (simp +contextual (maxDischargeDepth := 60) [hs]; done)

@[simp] theorem poisonedYard_memOk (s : State) (c : Ch) (m : YardMsg) (hs : s.memOk) :
    (s.poisonedYard c m).memOk := by
  unfold State.poisonedYard
  all_goals first | exact hs | assumption | (simp +contextual (maxDischargeDepth := 60) [hs]; done)

@[simp] theorem atYard_memOk (s : State) (c : Ch) (kind : Nat) (m : YardMsg) (body : Image → State → State) (hs : s.memOk) (h_body : ∀ x0 t, (t.memOk → (body x0 t).memOk)) :
    (s.atYard c kind m body).memOk := by
  unfold State.atYard
  repeat' split
  all_goals first | exact hs | assumption | (simp +contextual (maxDischargeDepth := 60) [hs, h_body]; done)

@[simp] theorem yardTake_memOk (s : State) (c : Ch) (kind : Nat) (m : YardMsg) (body : Image → Nat → State → State) (hs : s.memOk)
    (h_body : ∀ x0 x1 t, t.memOk → (body x0 x1 t).memOk) :
    (s.yardTake c kind m body).memOk := by
  unfold State.yardTake
  refine atYard_memOk _ _ _ _ _ hs (fun i t ht => ?_)
  (try dsimp only)
  split
  · simp [ht]
  · split
    · simp [ht]
    · split
      · simp [ht]
      · exact settle_memOk _ _ (touch_memOk _ _ (h_body _ _ _ (ackYard_memOk _ _ _ _ (onYard_memOk _ _ _ ht))))

@[simp] theorem takeLeaf_memOk (s : State) (c : Ch) (m : YardMsg) (hs : s.memOk) :
    (s.takeLeaf c m).memOk := by simp +contextual (maxDischargeDepth := 60) [State.takeLeaf, hs]

@[simp] theorem takePair_memOk (s : State) (c : Ch) (m : YardMsg) (hs : s.memOk) :
    (s.takePair c m).memOk := by simp +contextual (maxDischargeDepth := 60) [State.takePair, hs]

@[simp] theorem takeQuad_memOk (s : State) (c : Ch) (m : YardMsg) (hs : s.memOk) :
    (s.takeQuad c m).memOk := by simp +contextual (maxDischargeDepth := 60) [State.takeQuad, hs]

@[simp] theorem takeRoot_memOk (s : State) (c : Ch) (m : YardMsg) (hs : s.memOk) :
    (s.takeRoot c m).memOk := by simp +contextual (maxDischargeDepth := 60) [State.takeRoot, hs]

@[simp] theorem takeSlice_memOk (s : State) (c : Ch) (kind : Nat) (m : YardMsg) (hs : s.memOk) :
    (s.takeSlice c kind m).memOk := by simp +contextual (maxDischargeDepth := 60) [State.takeSlice, hs]

@[simp] theorem takeCredit_memOk (s : State) (c : Ch) (m : YardMsg) (hs : s.memOk) :
    (s.takeCredit c m).memOk := by
  unfold State.takeCredit
  refine atYard_memOk _ _ _ _ _ hs (fun i t ht => ?_)
  (try dsimp only)
  split
  · simp [ht]
  · split
    · exact ackYard_memOk _ _ _ _ ht
    · exact yardPump_memOk _ _ (onYard_memOk _ _ _ (ackYard_memOk _ _ _ _ ht))

@[simp] theorem issueCredit_memOk (s : State) (c : Ch) (i : Image) (q : YardCredit) (hs : s.memOk) :
    (s.issueCredit c i q).memOk := by simp +contextual (maxDischargeDepth := 60) [State.issueCredit, hs]

@[simp] theorem yardMessage_memOk (s : State) (c : Ch) (kind : Nat) (m : YardMsg) (hs : s.memOk) :
    (s.yardMessage c kind m).memOk := by
  unfold State.yardMessage
  repeat' split
  all_goals first | exact hs | assumption | (simp +contextual (maxDischargeDepth := 60) [hs]; done)

@[simp] theorem yardTrain_memOk (s : State) (c : Ch) (h : MailHead) (data : List Byte) (poisoned : List Nat) (hs : s.memOk) :
    (s.yardTrain c h data poisoned).memOk := by
  unfold State.yardTrain
  (try dsimp only)
  repeat' split
  all_goals first | exact hs | assumption | (simp +contextual (maxDischargeDepth := 60) [hs]; done)

@[simp] theorem loadFailed_memOk (s : State) (c : Ch) (result : Nat) (hs : s.memOk) :
    (s.loadFailed c result).memOk := by simp +contextual (maxDischargeDepth := 60) [State.loadFailed, hs]

@[simp] theorem loadDone_memOk (s : State) (c : Ch) (g : Staging) (i : Image) (hs : s.memOk) :
    (s.loadDone c g i).memOk := by simp +contextual (maxDischargeDepth := 60) [State.loadDone, hs]

@[simp] theorem placed_memOk (s : State) (c : Ch) (g : Staging) (i : Image) (hs : s.memOk) :
    (s.placed c g i).memOk :=
  onMem_memOk' s c (g.writes i) hs (staging_writes_wf g i _ (hs c))

@[simp] theorem finishLoad_memOk (s : State) (c : Ch) (a : Nat) (hs : s.memOk) :
    (s.finishLoad c a).memOk := by
  unfold State.finishLoad
  dsimp only
  split
  · exact loadFailed_memOk _ _ _ hs
  · split
    · exact consumePoison_memOk _ _ _ _ hs
    · split
      · exact consumePoison_memOk _ _ _ _ hs
      · split
        · exact loadFailed_memOk _ _ _ hs
        · split
          · exact loadFailed_memOk _ _ _ hs
          · have h := placed_memOk s c { mem := (s.ch c).mem, base := a } (Staging.image { mem := (s.ch c).mem, base := a }) hs
            split
            · exact consumePoison_memOk _ _ _ _ h
            · split
              · exact loadDone_memOk _ _ _ _ h
              · exact loadFailed_memOk _ _ _ h

@[simp] theorem startLoad_memOk (s : State) (c : Ch) (a : Nat) (hs : s.memOk) :
    (s.startLoad c a).memOk := by simp +contextual (maxDischargeDepth := 60) [State.startLoad, hs]

@[simp] theorem enterFault_memOk (s : State) (c : Ch) (code : Nat) (param : List Byte) (hs : s.memOk) :
    (s.enterFault c code param).memOk := by simp +contextual (maxDischargeDepth := 60) [State.enterFault, hs]

@[simp] theorem channelOff_memOk (s : State) (c : Ch) (hs : s.memOk) :
    (s.channelOff c).memOk := by simp +contextual (maxDischargeDepth := 60) [State.channelOff, hs]

@[simp] theorem haltCars_memOk (s : State) (c : Ch) (hs : s.memOk) :
    (s.haltCars c).memOk := by simp +contextual (maxDischargeDepth := 60) [State.haltCars, hs]

@[simp] theorem safeChannel_memOk (s : State) (c : Ch) (trip : Bool) (hs : s.memOk) :
    (s.safeChannel c trip).memOk := by simp +contextual (maxDischargeDepth := 60) [State.safeChannel, hs]

@[simp] theorem enterSafe_memOk (s : State) (cause : Nat) (hs : s.memOk) :
    (s.enterSafe cause).memOk := by simp +contextual (maxDischargeDepth := 60) [State.enterSafe, hs]

@[simp] theorem logPair_memOk (s : State) (c : Ch) (r : Rg) (p old new : Nat) (a b : Int) (model : W32) (hs : s.memOk) :
    (s.logPair c r p old new a b model).memOk := by simp +contextual (maxDischargeDepth := 60) [State.logPair, hs]

@[simp] theorem forecastRegion_memOk (s : State) (c : Ch) (r : Rg) (rd : RegionReading) (hs : s.memOk) :
    (s.forecastRegion c r rd).memOk := by simp +contextual (maxDischargeDepth := 60) [State.forecastRegion, hs]

@[simp] theorem logLost_memOk (s : State) (old : Module) (hs : s.memOk) :
    (s.logLost old).memOk := by simp +contextual (maxDischargeDepth := 60) [State.logLost, hs]

@[simp] theorem logRange_memOk (s : State) (old : Module) (hs : s.memOk) :
    (s.logRange old).memOk := by simp +contextual (maxDischargeDepth := 60) [State.logRange, hs]

@[simp] theorem assignSensor_memOk (s : State) (i : Nat) (hs : s.memOk) :
    (s.assignSensor i).memOk := by simp +contextual (maxDischargeDepth := 60) [State.assignSensor, hs]

@[simp] theorem readSensors_memOk (s : State) (answers : List (Nat × Nat)) (hs : s.memOk) :
    (s.readSensors answers).memOk := by
  unfold State.readSensors
  refine foldl_memOk _ _ _ hs (fun t i ht => ?_)
  (try dsimp only)
  split <;> split <;> simp [ht]

@[simp] theorem leaveSafe_memOk (s : State) (hs : s.memOk) :
    s.leaveSafe.memOk := by
  unfold State.leaveSafe
  dsimp only
  refine equalShares_memOk _ (eachCh_memOk _ _ (by simp [hs]) (fun c t ht => ?_))
  cases (t.ch c).ctl.safeFrom <;> cases (t.ch c).run.image <;> simp +contextual (maxDischargeDepth := 60) [ht]

@[simp] theorem markLife_memOk (s : State) (c : Ch) (hs : s.memOk) :
    (s.markLife c).memOk := by simp +contextual (maxDischargeDepth := 60) [State.markLife, hs]

@[simp] theorem startRun_memOk (s : State) (c : Ch) (hs : s.memOk) :
    (s.startRun c).memOk := by simp +contextual (maxDischargeDepth := 60) [State.startRun, hs]

@[simp] theorem resumeRun_memOk (s : State) (c : Ch) (hs : s.memOk) :
    (s.resumeRun c).memOk := by simp +contextual (maxDischargeDepth := 60) [State.resumeRun, hs]

@[simp] theorem toStandby_memOk (s : State) (c : Ch) (hs : s.memOk) :
    (s.toStandby c).memOk := by simp +contextual (maxDischargeDepth := 60) [State.toStandby, hs]

@[simp] theorem wake_memOk (s : State) (c : Ch) (hs : s.memOk) :
    (s.wake c).memOk := by
  unfold State.wake
  refine wakeDone_memOk _ _ ?_
  split
  · refine foldl_memOk _ _ _ (by simp [hs]) (fun t x ht => ?_)
    split <;> simp [ht]
  · simp [hs]

@[simp] theorem release_memOk (s : State) (c : Ch) (hs : s.memOk) :
    (s.release c).memOk := by simp +contextual (maxDischargeDepth := 60) [State.release, hs]

@[simp] theorem booting_bytes_wf (x : Chan) (now : Nat) (b : Bool) (h : Tab.wf Memory.unwritten x.mem.bytes = true)
    (hm : Tab.wf 0 x.mem.marks = true) : Tab.wf Memory.unwritten (x.booting now b).mem.bytes = true := farOnly_bytes_wf x.mem h hm

@[simp] theorem booting_marks_wf (x : Chan) (now : Nat) (b : Bool) (h : Tab.wf Memory.unwritten x.mem.bytes = true)
    (hm : Tab.wf 0 x.mem.marks = true) : Tab.wf 0 (x.booting now b).mem.marks = true := farOnly_marks_wf x.mem h hm

@[simp] theorem startBoot_memOk (s : State) (c : Ch) (powerOn : Bool) (hs : s.memOk) : (s.startBoot c powerOn).memOk :=
  have h := markLife_memOk s c hs
  onCh_memOk _ _ _ h (booting_bytes_wf _ _ _ (h c).1 (h c).2) (booting_marks_wf _ _ _ (h c).1 (h c).2)

@[simp] theorem powerOff_memOk (s : State) (c : Ch) (hs : s.memOk) :
    (s.powerOff c).memOk := by simp +contextual (maxDischargeDepth := 60) [State.powerOff, hs]

@[simp] theorem command_memOk (s : State) (c : Ch) (cmd : Nat) (hs : s.memOk) :
    (s.command c cmd).memOk := by
  unfold State.command
  split <;> simp [hs]

@[simp] theorem logTxn_memOk (s : State) (l : List StagedWrite) (code : Nat) (ps : List Param) (hs : s.memOk) :
    (s.logTxn l code ps).memOk := by simp +contextual (maxDischargeDepth := 60) [State.logTxn, hs]

@[simp] theorem rollBack_memOk (s : State) (v : Via) (cause code : Nat) (hs : s.memOk) :
    (s.rollBack v cause code).memOk := by
  unfold State.rollBack
  repeat' split
  all_goals first | exact hs | assumption | (simp +contextual (maxDischargeDepth := 60) [hs]; done)

@[simp] theorem closeSession_memOk (s : State) (x : Session) (cause txnCause : Nat) (hs : s.memOk) :
    (s.closeSession x cause txnCause).memOk := by simp +contextual (maxDischargeDepth := 60) [State.closeSession, hs]

@[simp] theorem closeSessions_memOk (s : State) (p : Session → Bool) (cause txnCause : Nat) (hs : s.memOk) :
    (s.closeSessions p cause txnCause).memOk := by simp +contextual (maxDischargeDepth := 60) [State.closeSessions, hs]

@[simp] theorem restartSm_memOk (s : State) (hs : s.memOk) :
    s.restartSm.memOk := by simp +contextual (maxDischargeDepth := 60) [State.restartSm, hs]

@[simp] theorem owned_memOk (s : State) (hs : s.memOk) :
    s.owned.memOk := by simp +contextual (maxDischargeDepth := 60) [State.owned, hs]

@[simp] theorem raiseFloor_memOk (s : State) (b : List Byte) (hs : s.memOk) :
    (s.raiseFloor b).memOk := by simp +contextual (maxDischargeDepth := 60) [State.raiseFloor, hs]

@[simp] theorem putFloor_memOk (s : State) (o : Nat) (v : List Byte) (hs : s.memOk) :
    (s.putFloor o v).2.memOk := by
  unfold State.putFloor
  repeat' split
  all_goals first | exact hs | assumption | (simp +contextual (maxDischargeDepth := 60) [hs]; done)

@[simp] theorem stageFirmware_memOk (s : State) (b : List Byte) (hs : s.memOk) :
    (s.stageFirmware b).2.memOk := by
  unfold State.stageFirmware
  (try dsimp only)
  repeat' split
  all_goals first | exact hs | assumption | (simp +contextual (maxDischargeDepth := 60) [hs]; done)

@[simp] theorem putFirmware_memOk (s : State) (o : Nat) (v : List Byte) (hs : s.memOk) :
    (s.putFirmware o v).2.memOk := by
  unfold State.putFirmware
  repeat' split
  all_goals first | exact hs | assumption | (simp +contextual (maxDischargeDepth := 60) [hs]; done)

@[simp] theorem transferOwner_memOk (s : State) (b : List Byte) (hs : s.memOk) :
    (s.transferOwner b).memOk := by simp +contextual (maxDischargeDepth := 60) [State.transferOwner, hs]

@[simp] theorem putOwner_memOk (s : State) (o : Nat) (v : List Byte) (hs : s.memOk) :
    (s.putOwner o v).2.memOk := by
  unfold State.putOwner
  (try dsimp only)
  repeat' split
  all_goals first | exact hs | assumption | (simp +contextual (maxDischargeDepth := 60) [hs]; done)

@[simp] theorem newTenant_memOk (s : State) (c : Ch) (old new : Nat) (hs : s.memOk) :
    (s.newTenant c old new).memOk := by simp +contextual (maxDischargeDepth := 60) [State.newTenant, hs]

@[simp] theorem setTenant_memOk (s : State) (c : Ch) (new : Nat) (hs : s.memOk) :
    (s.setTenant c new).memOk := by simp +contextual (maxDischargeDepth := 60) [State.setTenant, hs]

@[simp] theorem keysChanged_memOk (s : State) (old : Tab Byte) (hs : s.memOk) :
    (s.keysChanged old).memOk := by simp +contextual (maxDischargeDepth := 60) [State.keysChanged, hs]

@[simp] theorem putNonce_memOk (s : State) (v : Via) (scope : Option Ch) (o : Nat) (bs : List Byte) (hs : s.memOk) :
    (s.putNonce v scope o bs).memOk := by simp +contextual (maxDischargeDepth := 60) [State.putNonce, hs]

@[simp] theorem sendSetup_memOk (s : State) (i3c : Bool) (setup step : Nat) (payload : List Byte) (hs : s.memOk) :
    (s.sendSetup i3c setup step payload).memOk := by simp +contextual (maxDischargeDepth := 60) [State.sendSetup, hs]

@[simp] theorem refuseSetup_memOk (s : State) (i3c : Bool) (setup step status : Nat) (hs : s.memOk) :
    (s.refuseSetup i3c setup step status).memOk := by simp +contextual (maxDischargeDepth := 60) [State.refuseSetup, hs]

/-- A change of a channel that leaves its memory's bytes and marks. -/
def KeepsMem (f : Chan → Chan) : Prop := ∀ x : Chan, (f x).mem.bytes = x.mem.bytes ∧ (f x).mem.marks = x.mem.marks

theorem setRun_memOk (s : State) (c : Ch) (f g : Chan → Chan) (hs : s.memOk) (hf : KeepsMem f) (hg : KeepsMem g) :
    (s.setRun c f g).memOk := by
  unfold State.setRun
  have h1 : (s.onCh c f).memOk := onCh_memOk _ _ _ hs (by rw [(hf _).1]; exact (hs c).1) (by rw [(hf _).2]; exact (hs c).2)
  dsimp only
  split
  · exact h1
  · exact onCh_memOk _ _ _ h1 (by rw [(hg _).1]; exact (h1 c).1) (by rw [(hg _).2]; exact (h1 c).2)

@[simp] theorem setDepot_memOk (s : State) (c : Ch) (n : Nat) (hs : s.memOk) :
    (s.setDepot c n).memOk := by simp +contextual (maxDischargeDepth := 60) [State.setDepot, hs]

@[simp] theorem setFar_memOk (s : State) (c : Ch) (on : Bool) (hs : s.memOk) :
    (s.setFar c on).memOk := by
  unfold State.setFar
  (try dsimp only)
  repeat' split
  all_goals first | exact hs | assumption | (simp +contextual (maxDischargeDepth := 60) [hs]; done)

@[simp] theorem setAllowance_memOk (s : State) (w : Nat) (hs : s.memOk) :
    (s.setAllowance w).memOk := by simp +contextual (maxDischargeDepth := 60) [State.setAllowance, hs]

@[simp] theorem setLayers_memOk (s : State) (c : Ch) (o : Nat) (v : List Byte) (hs : s.memOk) :
    (s.setLayers c o v).memOk := by simp +contextual (maxDischargeDepth := 60) [State.setLayers, hs]

@[simp] theorem putConfig_memOk (s : State) (scope : Option Ch) (o : Nat) (v : List Byte) (hs : s.memOk) :
    (s.putConfig scope o v).2.memOk := by
  unfold State.putConfig
  (try dsimp only)
  repeat' split
  all_goals first | exact hs | assumption | (simp +contextual (maxDischargeDepth := 60) [hs]; done)

@[simp] theorem refuse_memOk (s : State) (v : Via) (r : Request) (status : Nat) (hs : s.memOk) :
    (s.refuse v r status).memOk := by
  unfold State.refuse
  (try dsimp only)
  repeat' split
  all_goals first | exact hs | assumption | (simp +contextual (maxDischargeDepth := 60) [hs]; done)

@[simp] theorem openTxn_memOk (s : State) (v : Via) (hs : s.memOk) :
    (s.openTxn v).memOk := by simp +contextual (maxDischargeDepth := 60) [State.openTxn, hs]

@[simp] theorem stageWrite_memOk (s : State) (v : Via) (r : Request) (hs : s.memOk) :
    (s.stageWrite v r).memOk := by
  unfold State.stageWrite
  repeat' split
  all_goals first | exact hs | assumption

/-- What a write of an entry does keeps the memories canonical. -/
def SetsMem (g : State → Via → Nat → List Byte → Nat × State) : Prop := ∀ s v o b, s.memOk → (g s v o b).2.memOk

theorem setsMem_perCh (f : Ch → Entry) (h : ∀ c, SetsMem (f c).set) : ∀ e ∈ perCh f, SetsMem e.set := by
  intro e he
  simp only [perCh, List.mem_map] at he
  obtain ⟨c, _, rfl⟩ := he
  exact h c

theorem mEntries_memOk (c : Ch) : ∀ e ∈ mEntries c, SetsMem e.set := by
  simp only [mEntries, List.forall_mem_cons]
  repeat' apply And.intro
  all_goals first
    | (intro s v o b hs; simp (maxDischargeDepth := 60) [roN, roD, rwN, rwB, rwT, Entry.tenantOnly, hs]; done)
    | (intro s v o b hs; exact setRun_memOk _ _ _ _ hs (fun _ => ⟨rfl, rfl⟩) (fun _ => ⟨rfl, rfl⟩))
    | simp

theorem jEntries_memOk (c : Ch) (p : Pt) : ∀ e ∈ jEntries c p, SetsMem e.set := by
  simp only [jEntries, List.forall_mem_cons]
  repeat' apply And.intro
  all_goals first
    | (intro s v o b hs; simp (maxDischargeDepth := 60) [roN, roFree, roB, rwN, rwB, rwS, hs]; done)
    | (intro s v o b hs; exact setRun_memOk _ _ _ _ hs (fun _ => ⟨rfl, rfl⟩) (fun _ => ⟨rfl, rfl⟩))
    | simp

theorem xEntries_memOk (c : Ch) : ∀ e ∈ xEntries c, SetsMem e.set := by
  simp only [xEntries, List.forall_mem_cons]
  repeat' apply And.intro
  all_goals first
    | (intro s v o b hs; simp (maxDischargeDepth := 60) [roN, roD, rwN, rwT, rwR, hs]; done)
    | (intro s v o b hs; exact setRun_memOk _ _ _ _ hs (fun _ => ⟨rfl, rfl⟩) (fun _ => ⟨rfl, rfl⟩))
    | simp

theorem yEntries_memOk (c : Ch) : ∀ e ∈ yEntries c, SetsMem e.set := by
  simp only [yEntries, List.forall_mem_cons]
  repeat' apply And.intro
  all_goals first
    | (intro s v o b hs; simp (maxDischargeDepth := 60) [roN, roB, rwN, rwB, Entry.tenantOnly, hs]; done)
    | (intro s v o b hs; exact setRun_memOk _ _ _ _ hs (fun _ => ⟨rfl, rfl⟩) (fun _ => ⟨rfl, rfl⟩))
    | simp

theorem pEntries_memOk (c : Ch) : ∀ e ∈ pEntries c, SetsMem e.set := by
  simp only [pEntries, List.forall_mem_cons]
  repeat' apply And.intro
  all_goals first
    | (intro s v o b hs; simp (maxDischargeDepth := 60) [roN, roB, rwN, rwB, rwS, wo, hs]; done)
    | (intro s v o b hs; exact setRun_memOk _ _ _ _ hs (fun _ => ⟨rfl, rfl⟩) (fun _ => ⟨rfl, rfl⟩))
    | simp

theorem bEntries_memOk (c : Ch) : ∀ e ∈ bEntries c, SetsMem e.set := by
  simp only [bEntries, List.forall_mem_cons]
  repeat' apply And.intro
  all_goals first
    | (intro s v o b hs; simp (maxDischargeDepth := 60) [roN, roB, roD, rwN, rwB, Entry.tenantOnly, hs]; done)
    | (intro s v o b hs; exact setRun_memOk _ _ _ _ hs (fun _ => ⟨rfl, rfl⟩) (fun _ => ⟨rfl, rfl⟩))
    | simp

theorem kEntries_memOk (c : Ch) : ∀ e ∈ kEntries c, SetsMem e.set := by
  simp only [kEntries, attestEntries, List.forall_mem_append, List.forall_mem_cons]
  repeat' apply And.intro
  all_goals first
    | (intro s v o b hs; simp (maxDischargeDepth := 60) [roN, roB, rwN, rwB, hs]; done)
    | (intro s v o b hs; exact setRun_memOk _ _ _ _ hs (fun _ => ⟨rfl, rfl⟩) (fun _ => ⟨rfl, rfl⟩))
    | simp

theorem eEntries_memOk (c : Ch) : ∀ e ∈ eEntries c, SetsMem e.set := by
  simp only [eEntries, List.forall_mem_cons]
  repeat' apply And.intro
  all_goals first
    | (intro s v o b hs; simp (maxDischargeDepth := 60) [roN, roB, roD, hs]; done)
    | (intro s v o b hs; exact setRun_memOk _ _ _ _ hs (fun _ => ⟨rfl, rfl⟩) (fun _ => ⟨rfl, rfl⟩))
    | simp

theorem chanEntries_memOk (c : Ch) (i : Nat) : ∀ e ∈ (chanEntries c i).2, SetsMem e.set := by
  unfold chanEntries
  repeat' split
  · exact mEntries_memOk c
  · simp only [List.forall_mem_append, List.forall_mem_flatMap]
    exact ⟨fun p _ => jEntries_memOk c p, xEntries_memOk c⟩
  · exact yEntries_memOk c
  · exact pEntries_memOk c
  · exact bEntries_memOk c
  · exact kEntries_memOk c
  · exact eEntries_memOk c

theorem moduleEntries_memOk (i : Nat) : ∀ e ∈ moduleEntries i, SetsMem e.set := by
  unfold moduleEntries
  repeat' split
  all_goals
    simp only [mod1Entries, powerEntries, clockEntries, thermalEntries, securityEntries, attestEntries, txnEntries,
      List.forall_mem_append, List.forall_mem_cons]
    repeat' apply And.intro
    all_goals first
      | exact setsMem_perCh _ (fun c s v o b hs => by simpa [roN, roB, roD] using hs)
      | (intro s v o b hs; simp (maxDischargeDepth := 60) [roN, roB, roD, rwN, rwS, rwT, wo, blockEntry, hs]; done)
      | simp

theorem entry_memOk (i sub : Nat) (e : Entry) (h : entry? i sub = some e) : SetsMem e.set := by
  have hm := List.mem_of_find?_eq_some h
  unfold allAt at hm
  rcases List.mem_append.mp hm with hm | hm
  · unfold entriesAt at hm
    split at hm
    · exact chanEntries_memOk _ _ _ (List.mem_filter.mp hm).1
    · exact moduleEntries_memOk _ _ (List.mem_filter.mp hm).1
  · unfold configEntries at hm
    split at hm <;> split at hm <;> simp only [List.mem_singleton, List.not_mem_nil] at hm
    all_goals subst hm; intro s v o b hs; simp [blockEntry, hs]

@[simp] theorem applyOne_memOk (s : State) (v : Via) (w : StagedWrite) (hs : s.memOk) : (s.applyOne v w).2.memOk := by
  unfold State.applyOne
  (try dsimp only)
  split
  · exact hs
  · rename_i e he
    split
    · exact hs
    · split
      · split <;> simp [hs]
      · exact entry_memOk _ _ _ he _ _ _ _ hs

@[simp] theorem applyList_memOk (v : Via) (l : List StagedWrite) (s : State) (n : Nat) (hs : s.memOk) :
    (s.applyList v n l).2.memOk := by
  induction l generalizing s n with
  | nil => exact hs
  | cons w ws ih =>
    unfold State.applyList
    dsimp only
    split
    · simp [hs]
    · exact ih _ _ (applyOne_memOk _ _ _ hs)

@[simp] theorem applyAll_memOk (s : State) (v : Via) (ws : List StagedWrite) (hs : s.memOk) :
    (s.applyAll v ws).memOk := by
  unfold State.applyAll
  simp +contextual (maxDischargeDepth := 60) [hs]

@[simp] theorem refuseTxn_memOk (s : State) (v : Via) (t : Option Txn) (ws : List StagedWrite) (n status late : Nat) (hs : s.memOk) :
    (s.refuseTxn v t ws n status late).memOk := by
  unfold State.refuseTxn
  (try dsimp only)
  repeat' split
  all_goals first | exact hs | assumption | (simp +contextual (maxDischargeDepth := 60) [hs]; done)

@[simp] theorem commit_memOk (s : State) (v : Via) (t : Txn) (hs : s.memOk) :
    (s.commit v t).2.2.memOk := by
  unfold State.commit
  (try dsimp only)
  repeat' split
  all_goals first | exact hs | assumption | (simp +contextual (maxDischargeDepth := 60) [hs]; done)

@[simp] theorem commitOne_memOk (s : State) (p : PendCommit) (hs : s.memOk) :
    (s.commitOne p).memOk := by
  unfold State.commitOne
  (try dsimp only)
  repeat' split
  all_goals first | exact hs | assumption | (simp +contextual (maxDischargeDepth := 60) [hs]; done)

theorem accept_memOk (s : State) (v : Via) (r : Request) (e : Entry) (i sub : Nat) (he : entry? i sub = some e) (hs : s.memOk) :
    (s.accept v r e).2.2.memOk := by
  unfold State.accept
  have h := entry_memOk i sub e he s v r.offset r.value hs
  dsimp only
  repeat' split
  all_goals simp +contextual (maxDischargeDepth := 60) [hs, h]

@[simp] theorem request_memOk (s : State) (v : Via) (r : Request) (hs : s.memOk) :
    (s.request v r).2.2.memOk := by
  unfold State.request
  dsimp only
  split
  · rename_i e he
    split
    · exact accept_memOk _ _ _ _ _ _ (check_entry _ _ _ _ he) hs
    · simp [hs]
  · simp [hs]

@[simp] theorem carry_memOk (s : State) (q : Reply) (v : Via) (r : Request) (hs : s.memOk) :
    (s.carry q v r).memOk := by
  unfold State.carry
  (try dsimp only)
  repeat' split
  all_goals first | exact hs | assumption | (simp +contextual (maxDischargeDepth := 60) [hs]; done)

@[simp] theorem serve_memOk (s : State) (v : Via) (r : Request) (hs : s.memOk) :
    (s.serve v r).memOk := by simp +contextual (maxDischargeDepth := 60) [State.serve, hs]

@[simp] theorem cfgRecord_memOk (s : State) (scope : Option Ch) (w : StagedWrite) (hs : s.memOk) :
    (s.cfgRecord scope w).memOk := by
  unfold State.cfgRecord
  dsimp only
  split
  · cases scope <;> simp [hs]
  · split
    · exact hs
    · rename_i e he
      have h := entry_memOk _ _ e he s .modMbox w.offset w.value hs
      split
      · exact h
      · cases scope <;> simp [h]

@[simp] theorem applyConfig_memOk (s : State) (scope : Option Ch) (hs : s.memOk) :
    (s.applyConfig scope).memOk := by
  unfold State.applyConfig
  (try dsimp only)
  repeat' split
  all_goals first | exact hs | assumption | (simp +contextual (maxDischargeDepth := 60) [hs]; done)

@[simp] theorem discardDatagram_memOk (s : State) (hs : s.memOk) :
    s.discardDatagram.memOk := by simp +contextual (maxDischargeDepth := 60) [State.discardDatagram, hs]

@[simp] theorem sessionDatagram_memOk (s : State) (x : Session) (d : List Byte) (hs : s.memOk) :
    (s.sessionDatagram x d).memOk := by simp +contextual (maxDischargeDepth := 60) [State.sessionDatagram, hs]

@[simp] theorem serveMailbox_memOk (s : State) (c : Ch) (hs : s.memOk) :
    (s.serveMailbox c).memOk := by simp +contextual (maxDischargeDepth := 60) [State.serveMailbox, hs]

@[simp] theorem hostQueue_memOk (s : State) (c : Ch) (hs : s.memOk) :
    (s.hostQueue c).memOk := by
  unfold State.hostQueue
  dsimp only
  generalize (s.ch c).host.startWait = q
  cases q with
  | none => simp +contextual (maxDischargeDepth := 60) [hs]
  | some e => simp +contextual (maxDischargeDepth := 60) [hs]

@[simp] theorem putTail_memOk (s : State) (c : Ch) (value : Nat) (hs : s.memOk) :
    (s.putTail c value).memOk := by simp +contextual (maxDischargeDepth := 60) [State.putTail, hs]

@[simp] theorem dbRun_memOk (s : State) (c : Ch) (e : List Byte) (hs : s.memOk) :
    (s.dbRun c e).2.memOk := by
  unfold State.dbRun
  dsimp only
  split
  · simp [hs]
  · split
    · exact hs
    · split
      · exact hs
      · rename_i d hd
        split
        · simp [hs]
        · exact entry_memOk _ _ _ hd _ _ _ _ hs

@[simp] theorem doorbell_memOk (s : State) (c : Ch) (mine : Nat → Bool) (hs : s.memOk) :
    (s.doorbell c mine).memOk := by simp +contextual (maxDischargeDepth := 60) [State.doorbell, hs]

@[simp] theorem notify_memOk (s : State) (c : Ch) (r : EvtRing) (hs : s.memOk) :
    (s.notify c r).1.memOk := by simp +contextual (maxDischargeDepth := 60) [State.notify, hs]

@[simp] theorem putConsumed_memOk (s : State) (c : Ch) (value : Nat) (hs : s.memOk) :
    (s.putConsumed c value).memOk := by simp +contextual (maxDischargeDepth := 60) [State.putConsumed, hs]

@[simp] theorem chGo_memOk (s : State) (c : Ch) (hs : s.memOk) :
    (s.chGo c).memOk := by simp +contextual (maxDischargeDepth := 60) [State.chGo, hs]

@[simp] theorem modGo_memOk (s : State) (hs : s.memOk) :
    s.modGo.memOk := by simp +contextual (maxDischargeDepth := 60) [State.modGo, hs]

@[simp] theorem pageStore_memOk (s : State) (c : Ch) (o : Nat) (b : Byte) (hs : s.memOk) :
    (s.pageStore c o b).memOk := by simp +contextual (maxDischargeDepth := 60) [State.pageStore, hs]

@[simp] theorem pageWrite_memOk (s : State) (c : Ch) (o : Nat) (bs : List Byte) (hs : s.memOk) :
    (s.pageWrite c o bs).memOk := by simp +contextual (maxDischargeDepth := 60) [State.pageWrite, hs]

@[simp] theorem hostData_memOk (s : State) (c : Ch) (o : HostOp) (data : List Byte) (poisoned : Bool) (hs : s.memOk) :
    (s.hostData c o data poisoned).memOk := by simp +contextual (maxDischargeDepth := 60) [State.hostData, hs]

@[simp] theorem loseHost_memOk (s : State) (c : Ch) (hold : Nat) (param : List Byte) (hs : s.memOk) :
    (s.loseHost c hold param).memOk := by simp +contextual (maxDischargeDepth := 60) [State.loseHost, hs]

@[simp] theorem tick_memOk (s : State) (hs : s.memOk) :
    s.tick.memOk := by simp +contextual (maxDischargeDepth := 60) [State.tick, hs]

@[simp] theorem bootCause_memOk (s : State) (c : Ch) (fault : Nat) (hs : s.memOk) :
    (s.bootCause c fault).memOk := by
  have h := markLife_memOk s c hs
  unfold State.bootCause
  dsimp only
  split
  · exact onCtl_memOk _ _ _ (onCh_memOk _ _ _ h (booting_bytes_wf _ _ _ (h c).1 (h c).2) (booting_marks_wf _ _ _ (h c).1 (h c).2))
  · exact enterFault_memOk _ _ _ _ hs

@[simp] theorem contain_memOk (s : State) (c : Ch) (cause fault : Nat) (hs : s.memOk) :
    (s.contain c cause fault).memOk := by
  unfold State.contain
  repeat' split
  all_goals first | exact hs | assumption | (simp +contextual (maxDischargeDepth := 60) [hs]; done)

@[simp] theorem causeOf_memOk (s : State) (c : Ch) (source code : Nat) (ps : List Param) (cause fault : Nat) (hs : s.memOk) :
    (s.causeOf c source code ps cause fault).memOk := by simp +contextual (maxDischargeDepth := 60) [State.causeOf, hs]

@[simp] theorem farDrop_memOk (s : State) (c : Ch) (hs : s.memOk) : (s.farDrop c).memOk := by
  have hf : ∀ (l : List (FarOp × Nat)) (m : Memory), m.wf →
      (l.foldl (fun m o => if Config.freeBool (s.freeNo + o.2) then m.farLost o.1 else m) m).wf :=
    fun l m hm => foldl_mem_wf _ (fun t x ht => by
      split
      · exact Memory.farLost_wf _ ht
      · exact ht) _ _ hm
  exact mk_memOk _ _ _ _ _ _ _ (onMem_memOk' s c _ hs (hf _ _ (hs c)))

@[simp] theorem logPowerLoss_memOk (s : State) (cause volts : Nat) (hs : s.memOk) :
    (s.logPowerLoss cause volts).memOk := by simp +contextual (maxDischargeDepth := 60) [State.logPowerLoss, hs]

@[simp] theorem verifyFirmware_memOk (s : State) (hs : s.memOk) :
    s.verifyFirmware.memOk := by simp +contextual (maxDischargeDepth := 60) [State.verifyFirmware, hs]

@[simp] theorem bootAll_memOk (s : State) (hs : s.memOk) :
    s.bootAll.memOk := by simp +contextual (maxDischargeDepth := 60) [State.bootAll, hs]

@[simp] theorem bootOff_memOk (s : State) (hs : s.memOk) : s.bootOff.memOk := by
  unfold State.bootOff
  refine eachCh_memOk _ _ hs (fun c t ht => ?_)
  split <;> simp [ht]

@[simp] theorem firstReady_memOk (s : State) (hs : s.memOk) :
    s.firstReady.memOk := by simp +contextual (maxDischargeDepth := 60) [State.firstReady, hs]

@[simp] theorem readyAgain_memOk (s : State) (hs : s.memOk) :
    s.readyAgain.memOk := by simp +contextual (maxDischargeDepth := 60) [State.readyAgain, hs]

@[simp] theorem bootRegion_memOk (s : State) (c : Ch) (r : Nat) (t : RegionBoot) (hs : s.memOk) :
    (s.bootRegion c r t).memOk := by simp +contextual (maxDischargeDepth := 60) [State.bootRegion, hs]

@[simp] theorem vecStore_memOk (s : State) (c : Ch) (k : Nat) (car : Car) (r : VecRec) (ws : List W32) (hs : s.memOk) :
    (s.vecStore c k car r ws).1.memOk := by
  unfold State.vecStore
  (try dsimp only)
  repeat' split
  all_goals first | exact hs | assumption | (simp +contextual (maxDischargeDepth := 60) [hs]; done)

@[simp] theorem putWords_memOk (s : State) (c : Ch) (k : Nat) (reg : Bool) (fieldV : Nat) (ws : List W32) (hs : s.memOk) :
    (s.putWords c k reg fieldV ws).memOk := by simp +contextual (maxDischargeDepth := 60) [State.putWords, hs]

@[simp] theorem vecCar_memOk (s : State) (w : At) (opc func : Nat) (tell : Bool) (body : Chan → Car → VecRec → State → State × List W32 × Counts) (hs : s.memOk) (h_body : ∀ x0 x1 x2 t, (t.memOk → (body x0 x1 x2 t).1.memOk)) :
    (s.vecCar w opc func tell body).memOk := by
  unfold State.vecCar
  first
  | refine issueFrom_memOk _ _ _ _ _ hs (fun e t u h ht => ?_)
  | refine readPoint_memOk _ _ _ _ hs (fun e t u h ht => ?_)
  revert h
  (try dsimp only)
  repeat' split
  all_goals intro h
  all_goals first
    | (cases h; done)
    | (obtain rfl := Option.some.inj h; simp +contextual (maxDischargeDepth := 60) [h_body, ht]; done)

@[simp] theorem elementwise_memOk (s : State) (w : At) (opc func : Nat) (op : VecRec → W32 → W32 → W32 → W32) (hs : s.memOk) :
    (s.elementwise w opc func op).memOk := by simp +contextual (maxDischargeDepth := 60) [State.elementwise, hs]

@[simp] theorem addOor_memOk (s : State) (c : Ch) (k n : Nat) (hs : s.memOk) :
    (s.addOor c k n).memOk := by simp +contextual (maxDischargeDepth := 60) [State.addOor, hs]

@[simp] theorem scanCar_memOk (s : State) (w : At) (func : Nat) (hs : s.memOk) :
    (s.scanCar w func).memOk := by simp +contextual (maxDischargeDepth := 60) [State.scanCar, hs]

@[simp] theorem fillCar_memOk (s : State) (w : At) (func : Nat) (tell : Bool) (op : VecRec → Ticket → W32 → W32) (hs : s.memOk) :
    (s.fillCar w func tell op).memOk := by simp +contextual (maxDischargeDepth := 60) [State.fillCar, hs]

@[simp] theorem optCar_memOk (s : State) (w : At) (kind : Nat) (hs : s.memOk) :
    (s.optCar w kind).memOk := by
  unfold State.optCar
  refine vecCar_memOk _ _ _ _ _ _ hs (fun x car r t ht => ?_)
  dsimp only
  split
  · split
    · split <;> simp +contextual (maxDischargeDepth := 60) [ht]
    · split <;> simp +contextual (maxDischargeDepth := 60) [ht]
  · split <;> simp +contextual (maxDischargeDepth := 60) [ht]

@[simp] theorem reduceCar_memOk (s : State) (w : At) (func : Nat) (step comb : W32 → W32 → W32) (start : Option W32) (pre : W32 → W32) (hs : s.memOk) :
    (s.reduceCar w func step comb start pre).memOk := by simp +contextual (maxDischargeDepth := 60) [State.reduceCar, hs]

end Sys2Proof.Machine
end

