-- ==== Sys2Proof/Laws/ExecMemory.lean ====
section
/-! SUPPORT. Every command keeps the memories in their canonical form. -/

namespace Sys2Proof.Machine

theorem kept_mem_wf (x : Chan) (h : x.mem.wf) : x.kept.mem.wf :=
  ⟨farOnly_bytes_wf _ h.1 h.2, farOnly_marks_wf _ h.1 h.2⟩

theorem powerLoss_ch (s : State) (cause volts : Nat) (c : Ch) :
    (s.powerLoss cause volts).ch c = (((s.eachCh (fun c t => t.markLife c)).logPowerLoss cause volts).ch c).kept := by
  unfold State.powerLoss
  simp only [State.ch, Fin.getElem_fin, Vector.getElem_map, State.onM]

theorem powerLoss_memOk (s : State) (cause volts : Nat) (hs : s.memOk) : (s.powerLoss cause volts).memOk := by
  intro d
  rw [powerLoss_ch]
  exact kept_mem_wf _ (logPowerLoss_memOk _ cause volts (eachCh_memOk s (fun c t => t.markLife c) hs (fun c t ht => markLife_memOk _ _ ht)) d)

theorem execMatmul_memOk (w : At) (eng : Fin 4) (faults : List MemFault) (s : State) (hs : s.memOk) (u : State) (hu : execMatmul w eng faults s = .next u) : u.memOk := by
  obtain rfl := Host.Outcome.next.inj hu
  simp +contextual (maxDischargeDepth := 60) [hs]

theorem execSum_memOk (w : At) (eng : Fin 4) (s : State) (hs : s.memOk) (u : State) (hu : execSum w eng s = .next u) : u.memOk := by
  obtain rfl := Host.Outcome.next.inj hu
  simp +contextual (maxDischargeDepth := 60) [hs]

theorem execMaxabs_memOk (w : At) (eng : Fin 4) (s : State) (hs : s.memOk) (u : State) (hu : execMaxabs w eng s = .next u) : u.memOk := by
  obtain rfl := Host.Outcome.next.inj hu
  simp +contextual (maxDischargeDepth := 60) [hs]

theorem execTopk_memOk (w : At) (eng : Fin 4) (s : State) (hs : s.memOk) (u : State) (hu : execTopk w eng s = .next u) : u.memOk := by
  obtain rfl := Host.Outcome.next.inj hu
  simp +contextual (maxDischargeDepth := 60) [hs]

theorem execPowerShare_memOk (p : Measured) (s : State) (hs : s.memOk) (u : State) (hu : execPowerShare p s = .next u) : u.memOk := by
  obtain rfl := Host.Outcome.next.inj hu
  simp +contextual (maxDischargeDepth := 60) [hs]

theorem execEasingRise_memOk (scope : EaseScope) (a : Averages) (s : State) (hs : s.memOk) (u : State) (hu : execEasingRise scope a s = .next u) : u.memOk := by
  obtain rfl := Host.Outcome.next.inj hu
  simp +contextual (maxDischargeDepth := 60) [hs]

theorem execEasingFall_memOk (scope : EaseScope) (a : Averages) (s : State) (hs : s.memOk) (u : State) (hu : execEasingFall scope a s = .next u) : u.memOk := by
  obtain rfl := Host.Outcome.next.inj hu
  simp +contextual (maxDischargeDepth := 60) [hs]

theorem execSustainedLimit_memOk (c : Ch) (easedOf16 : Nat) (amps : List Nat) (s : State) (hs : s.memOk) (u : State) (hu : execSustainedLimit c easedOf16 amps s = .next u) : u.memOk := by
  obtain rfl := Host.Outcome.next.inj hu
  (try dsimp only)
  repeat' split
  all_goals first | exact hs | assumption | (simp +contextual (maxDischargeDepth := 60) [hs]; done)

theorem execMarginMonitor_memOk (c : Ch) (r : Rg) (margin : Nat) (s : State) (hs : s.memOk) (u : State) (hu : execMarginMonitor c r margin s = .next u) : u.memOk := by
  obtain rfl := Host.Outcome.next.inj hu
  (try dsimp only)
  repeat' split
  all_goals first | exact hs | assumption | (simp +contextual (maxDischargeDepth := 60) [hs]; done)

theorem execCellFailed_memOk (c : Ch) (r : Rg) (cell : Fin 16) (cause : Nat) (s : State) (hs : s.memOk) (u : State) (hu : execCellFailed c r cell cause s = .next u) : u.memOk := by
  obtain rfl := Host.Outcome.next.inj hu
  simp +contextual (maxDischargeDepth := 60) [hs]

theorem execRegionLost_memOk (c : Ch) (r : Rg) (cause : Nat) (s : State) (hs : s.memOk) (u : State) (hu : execRegionLost c r cause s = .next u) : u.memOk := by
  obtain rfl := Host.Outcome.next.inj hu
  simp +contextual (maxDischargeDepth := 60) [hs]

theorem execUpshiftRamp_memOk (c : Ch) (s : State) (hs : s.memOk) (u : State) (hu : execUpshiftRamp c s = .next u) : u.memOk := by
  obtain rfl := Host.Outcome.next.inj hu
  repeat' split
  all_goals first | exact hs | assumption | (simp +contextual (maxDischargeDepth := 60) [hs]; done)

theorem execVoltageCheck_memOk (c : Ch) (mv : List Nat) (s : State) (hs : s.memOk) (u : State) (hu : execVoltageCheck c mv s = .next u) : u.memOk := by
  obtain rfl := Host.Outcome.next.inj hu
  (try dsimp only)
  repeat' split
  all_goals first | exact hs | assumption | (simp +contextual (maxDischargeDepth := 60) [hs]; done)

theorem execFrequencyChange_memOk (c : Ch) (s : State) (hs : s.memOk) (u : State) (hu : execFrequencyChange c s = .next u) : u.memOk := by
  obtain rfl := Host.Outcome.next.inj hu
  (try dsimp only)
  repeat' split
  all_goals first | exact hs | assumption | (simp +contextual (maxDischargeDepth := 60) [hs]; done)

theorem execDroop_memOk (c : Ch) (r : Rg) (mvBelow : Nat) (held : Stretch) (s : State) (hs : s.memOk) (u : State) (hu : execDroop c r mvBelow held s = .next u) : u.memOk := by
  obtain rfl := Host.Outcome.next.inj hu
  simp +contextual (maxDischargeDepth := 60) [hs]

theorem execRampGrant_memOk (c : Ch) (amps : Nat) (s : State) (hs : s.memOk) (u : State) (hu : execRampGrant c amps s = .next u) : u.memOk := by
  obtain rfl := Host.Outcome.next.inj hu
  (try dsimp only)
  repeat' split
  all_goals first | exact hs | assumption | (simp +contextual (maxDischargeDepth := 60) [hs]; done)

theorem execRegionOn_memOk (c : Ch) (r : Rg) (s : State) (hs : s.memOk) (u : State) (hu : execRegionOn c r s = .next u) : u.memOk := by
  obtain rfl := Host.Outcome.next.inj hu
  simp +contextual (maxDischargeDepth := 60) [hs]

theorem execRampRelease_memOk (c : Ch) (r : Rg) (s : State) (hs : s.memOk) (u : State) (hu : execRampRelease c r s = .next u) : u.memOk := by
  obtain rfl := Host.Outcome.next.inj hu
  simp +contextual (maxDischargeDepth := 60) [hs]

theorem execRampDenied_memOk (c : Ch) (r : Rg) (amps : Nat) (s : State) (hs : s.memOk) (u : State) (hu : execRampDenied c r amps s = .next u) : u.memOk := by
  obtain rfl := Host.Outcome.next.inj hu
  simp +contextual (maxDischargeDepth := 60) [hs]

theorem execRampWait_memOk (c : Ch) (r : Rg) (s : State) (hs : s.memOk) (u : State) (hu : execRampWait c r s = .next u) : u.memOk := by
  obtain rfl := Host.Outcome.next.inj hu
  simp +contextual (maxDischargeDepth := 60) [hs]

theorem execShedNAssert_memOk (s : State) (hs : s.memOk) (u : State) (hu : execShedNAssert s = .next u) : u.memOk := by
  obtain rfl := Host.Outcome.next.inj hu
  simp +contextual (maxDischargeDepth := 60) [hs]

theorem execShedNRelease_memOk (s : State) (hs : s.memOk) (u : State) (hu : execShedNRelease s = .next u) : u.memOk := by
  obtain rfl := Host.Outcome.next.inj hu
  simp +contextual (maxDischargeDepth := 60) [hs]

theorem execInputRange_memOk (volts : W32) (s : State) (hs : s.memOk) (u : State) (hu : execInputRange volts s = .next u) : u.memOk := by
  obtain rfl := Host.Outcome.next.inj hu
  simp +contextual (maxDischargeDepth := 60) [hs]

theorem execInputRangeEnd_memOk (volts : W32) (s : State) (hs : s.memOk) (u : State) (hu : execInputRangeEnd volts s = .next u) : u.memOk := by
  obtain rfl := Host.Outcome.next.inj hu
  simp +contextual (maxDischargeDepth := 60) [hs]

theorem execRefclkLost_memOk (s : State) (hs : s.memOk) (u : State) (hu : execRefclkLost s = .next u) : u.memOk := by
  obtain rfl := Host.Outcome.next.inj hu
  simp +contextual (maxDischargeDepth := 60) [hs]

theorem execRefclkRestored_memOk (s : State) (hs : s.memOk) (u : State) (hu : execRefclkRestored s = .next u) : u.memOk := by
  obtain rfl := Host.Outcome.next.inj hu
  simp +contextual (maxDischargeDepth := 60) [hs]

theorem execAlignTimeout_memOk (s : State) (hs : s.memOk) (u : State) (hu : execAlignTimeout s = .next u) : u.memOk := by
  obtain rfl := Host.Outcome.next.inj hu
  simp +contextual (maxDischargeDepth := 60) [hs]

theorem execCopy_memOk (w : At) (ahead : List Nat) (faults : List MemFault) (s : State) (hs : s.memOk) (u : State) (hu : execCopy w ahead faults s = .next u) : u.memOk := by
  obtain rfl := Host.Outcome.next.inj hu
  simp +contextual (maxDischargeDepth := 60) [hs]

theorem execCompress_memOk (w : At) (ahead : List Nat) (faults : List MemFault) (s : State) (hs : s.memOk) (u : State) (hu : execCompress w ahead faults s = .next u) : u.memOk := by
  obtain rfl := Host.Outcome.next.inj hu
  simp +contextual (maxDischargeDepth := 60) [hs]

theorem execDecompress_memOk (w : At) (ahead : List Nat) (faults : List MemFault) (s : State) (hs : s.memOk) (u : State) (hu : execDecompress w ahead faults s = .next u) : u.memOk := by
  obtain rfl := Host.Outcome.next.inj hu
  simp +contextual (maxDischargeDepth := 60) [hs]

theorem execNarrowE4m3_memOk (w : At) (ahead : List Nat) (faults : List MemFault) (s : State) (hs : s.memOk) (u : State) (hu : execNarrowE4m3 w ahead faults s = .next u) : u.memOk := by
  obtain rfl := Host.Outcome.next.inj hu
  simp +contextual (maxDischargeDepth := 60) [hs]

theorem execWidenE4m3_memOk (w : At) (ahead : List Nat) (faults : List MemFault) (s : State) (hs : s.memOk) (u : State) (hu : execWidenE4m3 w ahead faults s = .next u) : u.memOk := by
  obtain rfl := Host.Outcome.next.inj hu
  simp +contextual (maxDischargeDepth := 60) [hs]

theorem execDemandPoint_memOk (w : At) (slot : Nat) (faults : List MemFault) (s : State) (hs : s.memOk) (u : State) (hu : execDemandPoint w slot faults s = .next u) : u.memOk := by
  obtain rfl := Host.Outcome.next.inj hu
  repeat' split
  all_goals first | exact hs | assumption | (simp +contextual (maxDischargeDepth := 60) [hs]; done)

theorem execRefetchDone_memOk (w : At) (eng : Fin 4) (s : State) (hs : s.memOk) (u : State) (hu : execRefetchDone w eng s = .next u) : u.memOk := by
  obtain rfl := Host.Outcome.next.inj hu
  (try dsimp only)
  repeat' split
  all_goals simp +contextual (maxDischargeDepth := 60) [hs]

theorem execWorldEnd_memOk (w : At) (s : State) (hs : s.memOk) (u : State) (hu : execWorldEnd w s = .next u) : u.memOk := by
  obtain rfl := Host.Outcome.next.inj hu
  refine issueFrom_memOk _ _ _ _ _ (meet_memOk _ _ hs) (fun e t u h ht => ?_)
  revert h
  (try dsimp only)
  repeat' split
  all_goals intro h
  all_goals first
    | (cases h; done)
    | (obtain rfl := Option.some.inj h; simp +contextual (maxDischargeDepth := 60) [ht]; done)

theorem execWorldReset_memOk (w : At) (s : State) (hs : s.memOk) (u : State) (hu : execWorldReset w s = .next u) : u.memOk := by
  obtain rfl := Host.Outcome.next.inj hu
  refine issueFrom_memOk _ _ _ _ _ (meet_memOk _ _ hs) (fun e t u h ht => ?_)
  revert h
  (try dsimp only)
  repeat' split
  all_goals intro h
  all_goals first
    | (cases h; done)
    | (obtain rfl := Option.some.inj h; simp +contextual (maxDischargeDepth := 60) [ht]; done)

theorem execRecord_memOk (w : At) (s : State) (hs : s.memOk) (u : State) (hu : execRecord w s = .next u) : u.memOk := by
  obtain rfl := Host.Outcome.next.inj hu
  refine worldCar_memOk _ _ _ _ _ (meet_memOk _ _ hs) (fun e i a b t ht => ?_)
  dsimp only
  split
  · simp [ht]
  · refine worldDone_memOk _ _ _ _ (onMem_memOk' _ _ _ ht ?_)
    exact foldl_mem_wf _ (fun m p hm => Memory.write_wf _ _ hm) _ _ (ht _)

theorem execAdvance_memOk (w : At) (s : State) (hs : s.memOk) (u : State) (hu : execAdvance w s = .next u) : u.memOk := by
  obtain rfl := Host.Outcome.next.inj hu
  simp +contextual (maxDischargeDepth := 60) [hs]

theorem execSend_memOk (w : At) (s : State) (hs : s.memOk) (u : State) (hu : execSend w s = .next u) : u.memOk := by
  obtain rfl := Host.Outcome.next.inj hu
  refine doorbellCar_memOk _ _ _ _ _ (meet_memOk _ _ hs) (fun n b t u ht h => ?_)
  revert h
  (try dsimp only)
  repeat' split
  all_goals first
    | (intro h; cases h; done)
    | (intro h; obtain rfl := Ring.done.inj h; simp (maxDischargeDepth := 60) [ht])

theorem execAtomic_memOk (w : At) (s : State) (hs : s.memOk) (u : State) (hu : execAtomic w s = .next u) : u.memOk := by
  obtain rfl := Host.Outcome.next.inj hu
  refine doorbellCar_memOk _ _ _ _ _ (meet_memOk _ _ hs) (fun n b t u ht h => ?_)
  revert h
  (try dsimp only)
  repeat' split
  all_goals first
    | (intro h; cases h; done)
    | (intro h; obtain rfl := Ring.done.inj h; simp (maxDischargeDepth := 60) [ht])

theorem execFence_memOk (w : At) (s : State) (hs : s.memOk) (u : State) (hu : execFence w s = .next u) : u.memOk := by
  obtain rfl := Host.Outcome.next.inj hu
  refine doorbellCar_memOk _ _ _ _ _ (meet_memOk _ _ hs) (fun n b t u ht h => ?_)
  revert h
  repeat' split
  all_goals first
    | (intro h; cases h; done)
    | (intro h; obtain rfl := Ring.done.inj h; simp (maxDischargeDepth := 60) [ht])

theorem execHello_memOk (c : Ch) (p : Pt) (hello : Hello) (s : State) (hs : s.memOk) (u : State) (hu : execHello c p hello s = .next u) : u.memOk := by
  obtain rfl := Host.Outcome.next.inj hu
  simp +contextual (maxDischargeDepth := 60) [hs]

theorem execHelloTransmit_memOk (c : Ch) (p : Pt) (s : State) (hs : s.memOk) (u : State) (hu : execHelloTransmit c p s = .next u) : u.memOk := by
  obtain rfl := Host.Outcome.next.inj hu
  simp +contextual (maxDischargeDepth := 60) [hs]

theorem execLinkUp_memOk (c : Ch) (p : Pt) (hello : Hello) (s : State) (hs : s.memOk) (u : State) (hu : execLinkUp c p hello s = .next u) : u.memOk := by
  obtain rfl := Host.Outcome.next.inj hu
  simp +contextual (maxDischargeDepth := 60) [hs]

theorem execPortFailed_memOk (c : Ch) (p : Pt) (s : State) (hs : s.memOk) (u : State) (hu : execPortFailed c p s = .next u) : u.memOk := by
  obtain rfl := Host.Outcome.next.inj hu
  simp +contextual (maxDischargeDepth := 60) [hs]

theorem execCreditReturn_memOk (c : Ch) (p : Pt) (s : State) (hs : s.memOk) (u : State) (hu : execCreditReturn c p s = .next u) : u.memOk := by
  obtain rfl := Host.Outcome.next.inj hu
  simp +contextual (maxDischargeDepth := 60) [hs]

theorem execCtrl_memOk (c : Ch) (p : Pt) (k : Ctrl) (s : State) (hs : s.memOk) (u : State) (hu : execCtrl c p k s = .next u) : u.memOk := by
  obtain rfl := Host.Outcome.next.inj hu
  simp +contextual (maxDischargeDepth := 60) [hs]

theorem execFailedWagon_memOk (c : Ch) (p : Pt) (lseq : Nat) (s : State) (hs : s.memOk) (u : State) (hu : execFailedWagon c p lseq s = .next u) : u.memOk := by
  obtain rfl := Host.Outcome.next.inj hu
  simp +contextual (maxDischargeDepth := 60) [hs]

theorem execPortDown_memOk (c : Ch) (p : Pt) (lockLost : Bool) (s : State) (hs : s.memOk) (u : State) (hu : execPortDown c p lockLost s = .next u) : u.memOk := by
  obtain rfl := Host.Outcome.next.inj hu
  simp +contextual (maxDischargeDepth := 60) [hs]

theorem execRead_memOk (c : Ch) (p : Pt) (h : ReadReq) (s : State) (hs : s.memOk) (u : State) (hu : execRead c p h s = .next u) : u.memOk := by
  obtain rfl := Host.Outcome.next.inj hu
  simp +contextual (maxDischargeDepth := 60) [hs]

theorem execWrite_memOk (c : Ch) (p : Pt) (h : ReqHead) (data : List Byte) (poisoned : List Nat) (s : State) (hs : s.memOk) (u : State) (hu : execWrite c p h data poisoned s = .next u) : u.memOk := by
  obtain rfl := Host.Outcome.next.inj hu
  simp +contextual (maxDischargeDepth := 60) [hs]

theorem execAtomicAdd64_memOk (c : Ch) (p : Pt) (h : AtomHead) (s : State) (hs : s.memOk) (u : State) (hu : execAtomicAdd64 c p h s = .next u) : u.memOk := by
  obtain rfl := Host.Outcome.next.inj hu
  simp +contextual (maxDischargeDepth := 60) [hs]

theorem execAtomicUmin64_memOk (c : Ch) (p : Pt) (h : AtomHead) (s : State) (hs : s.memOk) (u : State) (hu : execAtomicUmin64 c p h s = .next u) : u.memOk := by
  obtain rfl := Host.Outcome.next.inj hu
  simp +contextual (maxDischargeDepth := 60) [hs]

theorem execAtomicUmax64_memOk (c : Ch) (p : Pt) (h : AtomHead) (s : State) (hs : s.memOk) (u : State) (hu : execAtomicUmax64 c p h s = .next u) : u.memOk := by
  obtain rfl := Host.Outcome.next.inj hu
  simp +contextual (maxDischargeDepth := 60) [hs]

theorem execAtomicSmin64_memOk (c : Ch) (p : Pt) (h : AtomHead) (s : State) (hs : s.memOk) (u : State) (hu : execAtomicSmin64 c p h s = .next u) : u.memOk := by
  obtain rfl := Host.Outcome.next.inj hu
  simp +contextual (maxDischargeDepth := 60) [hs]

theorem execAtomicSmax64_memOk (c : Ch) (p : Pt) (h : AtomHead) (s : State) (hs : s.memOk) (u : State) (hu : execAtomicSmax64 c p h s = .next u) : u.memOk := by
  obtain rfl := Host.Outcome.next.inj hu
  simp +contextual (maxDischargeDepth := 60) [hs]

theorem execAtomicSwap64_memOk (c : Ch) (p : Pt) (h : AtomHead) (s : State) (hs : s.memOk) (u : State) (hu : execAtomicSwap64 c p h s = .next u) : u.memOk := by
  obtain rfl := Host.Outcome.next.inj hu
  simp +contextual (maxDischargeDepth := 60) [hs]

theorem execAtomicCas64_memOk (c : Ch) (p : Pt) (h : AtomHead) (s : State) (hs : s.memOk) (u : State) (hu : execAtomicCas64 c p h s = .next u) : u.memOk := by
  obtain rfl := Host.Outcome.next.inj hu
  simp +contextual (maxDischargeDepth := 60) [hs]

theorem execAtomicAdd32_memOk (c : Ch) (p : Pt) (h : AtomHead) (s : State) (hs : s.memOk) (u : State) (hu : execAtomicAdd32 c p h s = .next u) : u.memOk := by
  obtain rfl := Host.Outcome.next.inj hu
  simp +contextual (maxDischargeDepth := 60) [hs]

theorem execAtomicUmin32_memOk (c : Ch) (p : Pt) (h : AtomHead) (s : State) (hs : s.memOk) (u : State) (hu : execAtomicUmin32 c p h s = .next u) : u.memOk := by
  obtain rfl := Host.Outcome.next.inj hu
  simp +contextual (maxDischargeDepth := 60) [hs]

theorem execAtomicUmax32_memOk (c : Ch) (p : Pt) (h : AtomHead) (s : State) (hs : s.memOk) (u : State) (hu : execAtomicUmax32 c p h s = .next u) : u.memOk := by
  obtain rfl := Host.Outcome.next.inj hu
  simp +contextual (maxDischargeDepth := 60) [hs]

theorem execAtomicSmin32_memOk (c : Ch) (p : Pt) (h : AtomHead) (s : State) (hs : s.memOk) (u : State) (hu : execAtomicSmin32 c p h s = .next u) : u.memOk := by
  obtain rfl := Host.Outcome.next.inj hu
  simp +contextual (maxDischargeDepth := 60) [hs]

theorem execAtomicSmax32_memOk (c : Ch) (p : Pt) (h : AtomHead) (s : State) (hs : s.memOk) (u : State) (hu : execAtomicSmax32 c p h s = .next u) : u.memOk := by
  obtain rfl := Host.Outcome.next.inj hu
  simp +contextual (maxDischargeDepth := 60) [hs]

theorem execAtomicSwap32_memOk (c : Ch) (p : Pt) (h : AtomHead) (s : State) (hs : s.memOk) (u : State) (hu : execAtomicSwap32 c p h s = .next u) : u.memOk := by
  obtain rfl := Host.Outcome.next.inj hu
  simp +contextual (maxDischargeDepth := 60) [hs]

theorem execAtomicCas32_memOk (c : Ch) (p : Pt) (h : AtomHead) (s : State) (hs : s.memOk) (u : State) (hu : execAtomicCas32 c p h s = .next u) : u.memOk := by
  obtain rfl := Host.Outcome.next.inj hu
  simp +contextual (maxDischargeDepth := 60) [hs]

theorem execRoundTimeout_memOk (c : Ch) (addr round : Nat) (s : State) (hs : s.memOk) (u : State) (hu : execRoundTimeout c addr round s = .next u) : u.memOk := by
  obtain rfl := Host.Outcome.next.inj hu
  (try dsimp only)
  repeat' split
  all_goals first | exact hs | assumption | (simp +contextual (maxDischargeDepth := 60) [hs]; done)

theorem execReadData_memOk (c : Ch) (p : Pt) (h : RespHead) (data : List Byte) (poisoned : List Nat) (s : State) (hs : s.memOk) (u : State) (hu : execReadData c p h data poisoned s = .next u) : u.memOk := by
  obtain rfl := Host.Outcome.next.inj hu
  refine onTrain_memOk _ _ _ _ _ _ _ hs (fun s hs => ?_)
  (try dsimp only)
  repeat' split
  all_goals simp +contextual (maxDischargeDepth := 60) [hs]

theorem execWriteAck_memOk (c : Ch) (p : Pt) (h : RespHead) (s : State) (hs : s.memOk) (u : State) (hu : execWriteAck c p h s = .next u) : u.memOk := by
  obtain rfl := Host.Outcome.next.inj hu
  refine onTrain_memOk _ _ _ _ _ _ _ hs (fun s hs => ?_)
  (try dsimp only)
  repeat' split
  all_goals simp +contextual (maxDischargeDepth := 60) [hs]

theorem execAtomicResult_memOk (c : Ch) (p : Pt) (h : RespHead) (s : State) (hs : s.memOk) (u : State) (hu : execAtomicResult c p h s = .next u) : u.memOk := by
  obtain rfl := Host.Outcome.next.inj hu
  refine onTrain_memOk _ _ _ _ _ _ _ hs (fun s hs => ?_)
  (try dsimp only)
  repeat' split
  all_goals simp +contextual (maxDischargeDepth := 60) [hs]

theorem execDetour_memOk (c : Ch) (p : Pt) (h : MailHead) (inner : Inner) (s : State) (hs : s.memOk) (u : State) (hu : execDetour c p h inner s = .next u) : u.memOk := by
  obtain rfl := Host.Outcome.next.inj hu
  (try dsimp only)
  repeat' split
  all_goals first | exact hs | assumption | (simp +contextual (maxDischargeDepth := 60) [hs]; done)

theorem execSignalAdd_memOk (w : At) (s : State) (hs : s.memOk) (u : State) (hu : execSignalAdd w s = .next u) : u.memOk := by
  obtain rfl := Host.Outcome.next.inj hu
  refine signalCar_memOk _ _ _ _ (meet_memOk _ _ hs) (fun e t u h ht => ?_)
  obtain rfl := Option.some.inj h
  simp +contextual (maxDischargeDepth := 60) [ht]

theorem execSignalWait_memOk (w : At) (s : State) (hs : s.memOk) (u : State) (hu : execSignalWait w s = .next u) : u.memOk := by
  obtain rfl := Host.Outcome.next.inj hu
  refine signalCar_memOk _ _ _ _ (meet_memOk _ _ hs) (fun e t u h ht => ?_)
  dsimp only at h
  split at h
  · obtain rfl := Option.some.inj h
    simp +contextual (maxDischargeDepth := 60) [ht]
  · cases h

theorem execLeg_memOk (w : At) (s : State) (hs : s.memOk) (u : State) (hu : execLeg w s = .next u) : u.memOk := by
  obtain rfl := Host.Outcome.next.inj hu
  refine controlCar_memOk _ _ _ _ (meet_memOk _ _ hs) (fun e cl t u h ht => ?_)
  revert h
  repeat' split
  all_goals intro h
  all_goals first
    | (cases h; done)
    | (obtain rfl := Option.some.inj h; simp +contextual (maxDischargeDepth := 60) [ht]; done)

theorem execLoop_memOk (w : At) (s : State) (hs : s.memOk) (u : State) (hu : execLoop w s = .next u) : u.memOk := by
  obtain rfl := Host.Outcome.next.inj hu
  refine controlCar_memOk _ _ _ _ (meet_memOk _ _ hs) (fun e cl t u h ht => ?_)
  revert h
  all_goals intro h
  all_goals first
    | (cases h; done)
    | (obtain rfl := Option.some.inj h; simp +contextual (maxDischargeDepth := 60) [ht]; done)

theorem execEndloop_memOk (w : At) (s : State) (hs : s.memOk) (u : State) (hu : execEndloop w s = .next u) : u.memOk := by
  obtain rfl := Host.Outcome.next.inj hu
  refine controlCar_memOk _ _ _ _ (meet_memOk _ _ hs) (fun e cl t u h ht => ?_)
  revert h
  all_goals intro h
  all_goals first
    | (cases h; done)
    | (obtain rfl := Option.some.inj h; simp +contextual (maxDischargeDepth := 60) [ht]; done)

theorem execNop_memOk (w : At) (s : State) (hs : s.memOk) (u : State) (hu : execNop w s = .next u) : u.memOk := by
  obtain rfl := Host.Outcome.next.inj hu
  refine controlCar_memOk _ _ _ _ (meet_memOk _ _ hs) (fun e cl t u h ht => ?_)
  revert h
  all_goals intro h
  all_goals first
    | (cases h; done)
    | (obtain rfl := Option.some.inj h; simp +contextual (maxDischargeDepth := 60) [ht]; done)

theorem execMark_memOk (w : At) (s : State) (hs : s.memOk) (u : State) (hu : execMark w s = .next u) : u.memOk := by
  obtain rfl := Host.Outcome.next.inj hu
  refine controlCar_memOk _ _ _ _ (meet_memOk _ _ hs) (fun e cl t u h ht => ?_)
  revert h
  (try dsimp only)
  repeat' split
  all_goals intro h
  all_goals first
    | (cases h; done)
    | (obtain rfl := Option.some.inj h; simp +contextual (maxDischargeDepth := 60) [ht]; done)

theorem execPost_memOk (c : Ch) (slot : Nat) (s : State) (hs : s.memOk) (u : State) (hu : execPost c slot s = .next u) : u.memOk := by
  obtain rfl := Host.Outcome.next.inj hu
  (try dsimp only)
  repeat' split
  all_goals first | exact hs | assumption | (simp +contextual (maxDischargeDepth := 60) [hs]; done)

theorem execCommit_memOk (w : At) (s : State) (hs : s.memOk) (u : State) (hu : execCommit w s = .next u) : u.memOk := by
  have hs := meet_memOk s w hs
  obtain rfl := Host.Outcome.next.inj hu
  (try dsimp only)
  split
  · rename_i t ht
    split at ht
    · exact settle_memOk _ _ (reportCommit_memOk _ _ _ hs _ ht)
    · cases ht
  · refine readPoint_memOk _ _ _ _ hs (fun car t u h ht => ?_)
    split at h
    · cases h
    · split at h
      · obtain rfl := Option.some.inj h; simp [ht]
      · split at h
        · obtain rfl := Option.some.inj h; simp [ht]
        · obtain ⟨v, hv, rfl⟩ := Option.map_eq_some_iff.mp h
          have hc := commonWait_memOk _ _ _ _ ht _ hv
          refine touch_memOk _ _ ?_
          generalize hr : State.reportCommit _ _ _ = r
          cases r with
          | none => simp +contextual (maxDischargeDepth := 60) [hc]
          | some q => exact reportCommit_memOk _ _ _ (onWatch_memOk _ _ _ (onCluster_memOk _ _ _ _ hc)) _ hr

theorem execVerdict_memOk (c : Ch) (layer occ : Nat) (s : State) (hs : s.memOk) (u : State) (hu : execVerdict c layer occ s = .next u) : u.memOk := by
  obtain rfl := Host.Outcome.next.inj hu
  (try dsimp only)
  split
  · exact hs
  · split
    · exact hs
    · refine settle_memOk _ _ (touch_memOk _ _ ?_)
      have h := fun o g => logMismatches_memOk s c o g hs
      generalize verdictOf _ _ _ _ _ _ _ = v
      cases v <;> simp +contextual (maxDischargeDepth := 60) [h]

theorem execCrowsnestCheck_memOk (c : Ch) (wrong : List (Nat × W32)) (s : State) (hs : s.memOk) (u : State) (hu : execCrowsnestCheck c wrong s = .next u) : u.memOk := by
  obtain rfl := Host.Outcome.next.inj hu
  (try dsimp only)
  repeat' split
  all_goals first | exact hs | assumption | (simp +contextual (maxDischargeDepth := 60) [hs]; done)

theorem execLegBoundary_memOk (c : Ch) (s : State) (hs : s.memOk) (u : State) (hu : execLegBoundary c s = .next u) : u.memOk := by
  obtain rfl := Host.Outcome.next.inj hu
  repeat' split
  all_goals first | exact hs | assumption | (simp +contextual (maxDischargeDepth := 60) [hs]; done)

theorem execSignalDeadlock_memOk (c : Ch) (s : State) (hs : s.memOk) (u : State) (hu : execSignalDeadlock c s = .next u) : u.memOk := by
  obtain rfl := Host.Outcome.next.inj hu
  simp +contextual (maxDischargeDepth := 60) [hs]

theorem execSignalStall_memOk (c : Ch) (s : State) (hs : s.memOk) (u : State) (hu : execSignalStall c s = .next u) : u.memOk := by
  obtain rfl := Host.Outcome.next.inj hu
  simp +contextual (maxDischargeDepth := 60) [hs]

theorem execMailAck_memOk (c : Ch) (p : Pt) (h : AckHead) (s : State) (hs : s.memOk) (u : State) (hu : execMailAck c p h s = .next u) : u.memOk := by
  obtain rfl := Host.Outcome.next.inj hu
  split
  · exact hs
  · refine onTrain_memOk _ _ _ _ _ _ _ hs (fun s hs => ?_)
    (try dsimp only)
    repeat' split
    all_goals simp +contextual (maxDischargeDepth := 60) [hs]

theorem execMailTimeout_memOk (c : Ch) (slot : Nat) (s : State) (hs : s.memOk) (u : State) (hu : execMailTimeout c slot s = .next u) : u.memOk := by
  obtain rfl := Host.Outcome.next.inj hu
  repeat' split
  all_goals first | exact hs | assumption | (simp +contextual (maxDischargeDepth := 60) [hs]; done)

theorem execMailRetry_memOk (c : Ch) (slot : Nat) (s : State) (hs : s.memOk) (u : State) (hu : execMailRetry c slot s = .next u) : u.memOk := by
  obtain rfl := Host.Outcome.next.inj hu
  repeat' split
  all_goals first | exact hs | assumption | (simp +contextual (maxDischargeDepth := 60) [hs]; done)

theorem execPartnerTimeout_memOk (c : Ch) (mail : Bool) (slot : Nat) (s : State) (hs : s.memOk) (u : State) (hu : execPartnerTimeout c mail slot s = .next u) : u.memOk := by
  obtain rfl := Host.Outcome.next.inj hu
  (try dsimp only)
  repeat' split
  all_goals simp +contextual (maxDischargeDepth := 60) [hs]

theorem execForward_memOk (c : Ch) (p : Pt) (lane op : Nat) (h : MailHead) (data : List Byte) (poisoned : List Nat) (s : State) (hs : s.memOk) (u : State) (hu : execForward c p lane op h data poisoned s = .next u) : u.memOk := by
  obtain rfl := Host.Outcome.next.inj hu
  split
  · exact hs
  · refine onTrain_memOk _ _ _ _ _ _ _ hs (fun s hs => ?_)
    (try dsimp only)
    repeat' split
    all_goals simp +contextual (maxDischargeDepth := 60) [hs]

theorem execDiscardedFrame_memOk (c : Ch) (p : Pt) (s : State) (hs : s.memOk) (u : State) (hu : execDiscardedFrame c p s = .next u) : u.memOk := by
  obtain rfl := Host.Outcome.next.inj hu
  simp +contextual (maxDischargeDepth := 60) [hs]

theorem execNeighbourSolicitation_memOk (port : Option (Ch × Pt)) (target : List Byte) (s : State) (hs : s.memOk) (u : State) (hu : execNeighbourSolicitation port target s = .next u) : u.memOk := by
  obtain rfl := Host.Outcome.next.inj hu
  (try dsimp only)
  repeat' split
  all_goals first | exact hs | assumption

theorem execContributeStart_memOk (w : At) (s : State) (hs : s.memOk) (u : State) (hu : execContributeStart w s = .next u) : u.memOk := by
  obtain rfl := Host.Outcome.next.inj hu
  refine yardCar_memOk _ _ _ _ _ (meet_memOk _ _ hs) (fun i e t ht => ?_)
  all_goals simp +contextual (maxDischargeDepth := 60) [ht]

theorem execContributeAdd_memOk (w : At) (s : State) (hs : s.memOk) (u : State) (hu : execContributeAdd w s = .next u) : u.memOk := by
  obtain rfl := Host.Outcome.next.inj hu
  refine yardCar_memOk _ _ _ _ _ (meet_memOk _ _ hs) (fun i e t ht => ?_)
  all_goals simp +contextual (maxDischargeDepth := 60) [ht]

theorem execContributeFinal_memOk (w : At) (s : State) (hs : s.memOk) (u : State) (hu : execContributeFinal w s = .next u) : u.memOk := by
  obtain rfl := Host.Outcome.next.inj hu
  refine yardCar_memOk _ _ _ _ _ (meet_memOk _ _ hs) (fun i e t ht => ?_)
  all_goals simp +contextual (maxDischargeDepth := 60) [ht]

theorem execContributeOnly_memOk (w : At) (s : State) (hs : s.memOk) (u : State) (hu : execContributeOnly w s = .next u) : u.memOk := by
  obtain rfl := Host.Outcome.next.inj hu
  refine yardCar_memOk _ _ _ _ _ (meet_memOk _ _ hs) (fun i e t ht => ?_)
  all_goals simp +contextual (maxDischargeDepth := 60) [ht]

theorem execDeliver_memOk (w : At) (s : State) (hs : s.memOk) (u : State) (hu : execDeliver w s = .next u) : u.memOk := by
  obtain rfl := Host.Outcome.next.inj hu
  refine yardCar_memOk _ _ _ _ _ (meet_memOk _ _ hs) (fun i e t ht => ?_)
  all_goals simp +contextual (maxDischargeDepth := 60) [ht]

theorem execPublish_memOk (w : At) (s : State) (hs : s.memOk) (u : State) (hu : execPublish w s = .next u) : u.memOk := by
  obtain rfl := Host.Outcome.next.inj hu
  refine yardCar_memOk _ _ _ _ _ (meet_memOk _ _ hs) (fun i e t ht => ?_)
  (try dsimp only)
  repeat' split
  all_goals simp +contextual (maxDischargeDepth := 60) [ht]

theorem execAwait_memOk (w : At) (s : State) (hs : s.memOk) (u : State) (hu : execAwait w s = .next u) : u.memOk := by
  obtain rfl := Host.Outcome.next.inj hu
  refine yardCar_memOk _ _ _ _ _ (meet_memOk _ _ hs) (fun i e t ht => ?_)
  all_goals simp +contextual (maxDischargeDepth := 60) [ht]

theorem execLeaf_memOk (c : Ch) (m : YardMsg) (s : State) (hs : s.memOk) (u : State) (hu : execLeaf c m s = .next u) : u.memOk := by
  obtain rfl := Host.Outcome.next.inj hu
  simp +contextual (maxDischargeDepth := 60) [hs]

theorem execPair_memOk (c : Ch) (m : YardMsg) (s : State) (hs : s.memOk) (u : State) (hu : execPair c m s = .next u) : u.memOk := by
  obtain rfl := Host.Outcome.next.inj hu
  simp +contextual (maxDischargeDepth := 60) [hs]

theorem execQuad_memOk (c : Ch) (m : YardMsg) (s : State) (hs : s.memOk) (u : State) (hu : execQuad c m s = .next u) : u.memOk := by
  obtain rfl := Host.Outcome.next.inj hu
  simp +contextual (maxDischargeDepth := 60) [hs]

theorem execRoot_memOk (c : Ch) (m : YardMsg) (s : State) (hs : s.memOk) (u : State) (hu : execRoot c m s = .next u) : u.memOk := by
  obtain rfl := Host.Outcome.next.inj hu
  simp +contextual (maxDischargeDepth := 60) [hs]

theorem execYardCopy_memOk (c : Ch) (m : YardMsg) (s : State) (hs : s.memOk) (u : State) (hu : execYardCopy c m s = .next u) : u.memOk := by
  obtain rfl := Host.Outcome.next.inj hu
  simp +contextual (maxDischargeDepth := 60) [hs]

theorem execSpread_memOk (c : Ch) (m : YardMsg) (s : State) (hs : s.memOk) (u : State) (hu : execSpread c m s = .next u) : u.memOk := by
  obtain rfl := Host.Outcome.next.inj hu
  simp +contextual (maxDischargeDepth := 60) [hs]

theorem execCredit_memOk (c : Ch) (m : YardMsg) (s : State) (hs : s.memOk) (u : State) (hu : execCredit c m s = .next u) : u.memOk := by
  obtain rfl := Host.Outcome.next.inj hu
  all_goals first | exact hs | assumption | (simp +contextual (maxDischargeDepth := 60) [hs]; done)

theorem execYardCredit_memOk (c : Ch) (s : State) (hs : s.memOk) (u : State) (hu : execYardCredit c s = .next u) : u.memOk := by
  obtain rfl := Host.Outcome.next.inj hu
  (try dsimp only)
  repeat' split
  all_goals first | exact hs | assumption | (simp +contextual (maxDischargeDepth := 60) [hs]; done)

theorem execNodeEvaluation_memOk (c : Ch) (seg owner chunk level pos : Nat) (s : State) (hs : s.memOk) (u : State) (hu : execNodeEvaluation c seg owner chunk level pos s = .next u) : u.memOk := by
  obtain rfl := Host.Outcome.next.inj hu
  (try dsimp only)
  repeat' split
  all_goals first | exact hs | assumption | (simp +contextual (maxDischargeDepth := 60) [hs]; done)

theorem execDeadline_memOk (c : Ch) (seg owner chunk m : Nat) (s : State) (hs : s.memOk) (u : State) (hu : execDeadline c seg owner chunk m s = .next u) : u.memOk := by
  obtain rfl := Host.Outcome.next.inj hu
  (try dsimp only)
  repeat' split
  all_goals first | exact hs | assumption | (simp +contextual (maxDischargeDepth := 60) [hs]; done)

theorem execYardTimeout_memOk (c : Ch) (s : State) (hs : s.memOk) (u : State) (hu : execYardTimeout c s = .next u) : u.memOk := by
  obtain rfl := Host.Outcome.next.inj hu
  (try dsimp only)
  repeat' split
  all_goals first | exact hs | assumption | (simp +contextual (maxDischargeDepth := 60) [hs]; done)

theorem execMail_memOk (c : Ch) (p : Pt) (h : MailHead) (data : List Byte) (poisoned : List Nat) (s : State) (hs : s.memOk) (u : State) (hu : execMail c p h data poisoned s = .next u) : u.memOk := by
  obtain rfl := Host.Outcome.next.inj hu
  split
  · exact hs
  · refine onTrain_memOk _ _ _ _ _ _ _ hs (fun s hs => ?_)
    repeat' split
    all_goals simp +contextual (maxDischargeDepth := 60) [hs]

theorem execLoadEnd_memOk (c : Ch) (s : State) (hs : s.memOk) (u : State) (hu : execLoadEnd c s = .next u) : u.memOk := by
  obtain rfl := Host.Outcome.next.inj hu
  (try dsimp only)
  repeat' split
  all_goals first | exact hs | assumption | (simp +contextual (maxDischargeDepth := 60) [hs]; done)

theorem execThermalForecast_memOk (c : Ch) (readings : List RegionReading) (s : State) (hs : s.memOk) (u : State) (hu : execThermalForecast c readings s = .next u) : u.memOk := by
  obtain rfl := Host.Outcome.next.inj hu
  simp +contextual (maxDischargeDepth := 60) [hs]

theorem execSensorCleared_memOk (c : Ch) (r : Rg) (pair : Fin 2) (s : State) (hs : s.memOk) (u : State) (hu : execSensorCleared c r pair s = .next u) : u.memOk := by
  obtain rfl := Host.Outcome.next.inj hu
  simp +contextual (maxDischargeDepth := 60) [hs]

theorem execThermalTrip_memOk (c : Ch) (r : Rg) (sensor : Fin 4) (reading : Int) (s : State) (hs : s.memOk) (u : State) (hu : execThermalTrip c r sensor reading s = .next u) : u.memOk := by
  obtain rfl := Host.Outcome.next.inj hu
  simp +contextual (maxDischargeDepth := 60) [hs]

theorem execThermalPowerOff_memOk (c : Ch) (r : Rg) (sensor : Fin 4) (reading : Int) (s : State) (hs : s.memOk) (u : State) (hu : execThermalPowerOff c r sensor reading s = .next u) : u.memOk := by
  obtain rfl := Host.Outcome.next.inj hu
  simp +contextual (maxDischargeDepth := 60) [hs]

theorem execCoolantPoll_memOk (first second third : Option (Nat × Nat)) (s : State) (hs : s.memOk) (u : State) (hu : execCoolantPoll first second third s = .next u) : u.memOk := by
  unfold execCoolantPoll at hu
  generalize [first, second, third].filterMap id = answers at hu
  obtain rfl := Host.Outcome.next.inj hu
  simp +contextual (maxDischargeDepth := 60) [hs]

theorem execCoolantLoss_memOk (s : State) (hs : s.memOk) (u : State) (hu : execCoolantLoss s = .next u) : u.memOk := by
  obtain rfl := Host.Outcome.next.inj hu
  repeat' split
  all_goals first | exact hs | assumption | (simp +contextual (maxDischargeDepth := 60) [hs]; done)

theorem execInletHigh_memOk (s : State) (hs : s.memOk) (u : State) (hu : execInletHigh s = .next u) : u.memOk := by
  obtain rfl := Host.Outcome.next.inj hu
  repeat' split
  all_goals first | exact hs | assumption | (simp +contextual (maxDischargeDepth := 60) [hs]; done)

theorem execOpenSession_memOk (i3c : Bool) (setup : Nat) (payload : List Byte) (s : State) (hs : s.memOk) (u : State) (hu : execOpenSession i3c setup payload s = .next u) : u.memOk := by
  obtain rfl := Host.Outcome.next.inj hu
  (try dsimp only)
  repeat' split
  all_goals first | exact hs | assumption | (simp +contextual (maxDischargeDepth := 60) [hs]; done)

theorem execResponse_memOk (i3c : Bool) (setup : Nat) (payload : List Byte) (s : State) (hs : s.memOk) (u : State) (hu : execResponse i3c setup payload s = .next u) : u.memOk := by
  obtain rfl := Host.Outcome.next.inj hu
  (try dsimp only)
  repeat' split
  all_goals first | exact hs | assumption | (simp +contextual (maxDischargeDepth := 60) [hs]; done)

theorem execSetupTimeout_memOk (number : Nat) (s : State) (hs : s.memOk) (u : State) (hu : execSetupTimeout number s = .next u) : u.memOk := by
  obtain rfl := Host.Outcome.next.inj hu
  simp +contextual (maxDischargeDepth := 60) [hs]

theorem execSessionClosed_memOk (number : Nat) (s : State) (hs : s.memOk) (u : State) (hu : execSessionClosed number s = .next u) : u.memOk := by
  obtain rfl := Host.Outcome.next.inj hu
  repeat' split
  all_goals first | exact hs | assumption | (simp +contextual (maxDischargeDepth := 60) [hs]; done)

theorem execDynamicAddressAssignment_memOk (addr : Nat) (_setdasa : Bool) (s : State) (hs : s.memOk) (u : State) (hu : execDynamicAddressAssignment addr _setdasa s = .next u) : u.memOk := by
  obtain rfl := Host.Outcome.next.inj hu
  simp +contextual (maxDischargeDepth := 60) [hs]

theorem execCommitCount_memOk (s : State) (hs : s.memOk) (u : State) (hu : execCommitCount s = .next u) : u.memOk := by
  obtain rfl := Host.Outcome.next.inj hu
  simp +contextual (maxDischargeDepth := 60) [hs]

theorem execTxnTimeout_memOk (via : Via) (s : State) (hs : s.memOk) (u : State) (hu : execTxnTimeout via s = .next u) : u.memOk := by
  obtain rfl := Host.Outcome.next.inj hu
  repeat' split
  all_goals first | exact hs | assumption | (simp +contextual (maxDischargeDepth := 60) [hs]; done)

theorem execManagementDatagram_memOk (i3c : Bool) (datagram : List Byte) (s : State) (hs : s.memOk) (u : State) (hu : execManagementDatagram i3c datagram s = .next u) : u.memOk := by
  obtain rfl := Host.Outcome.next.inj hu
  (try dsimp only)
  repeat' split
  all_goals first | exact hs | assumption | (simp +contextual (maxDischargeDepth := 60) [hs]; done)

theorem execTtLoad_memOk (via : Via) (c : Ch) (addr : Nat) (s : State) (hs : s.memOk) (u : State) (hu : execTtLoad via c addr s = .next u) : u.memOk := by
  obtain rfl := Host.Outcome.next.inj hu
  simp +contextual (maxDischargeDepth := 60) [hs]

theorem execStart_memOk (via : Via) (c : Ch) (s : State) (hs : s.memOk) (u : State) (hu : execStart via c s = .next u) : u.memOk := by
  obtain rfl := Host.Outcome.next.inj hu
  simp +contextual (maxDischargeDepth := 60) [hs]

theorem execResume_memOk (via : Via) (c : Ch) (s : State) (hs : s.memOk) (u : State) (hu : execResume via c s = .next u) : u.memOk := by
  obtain rfl := Host.Outcome.next.inj hu
  simp +contextual (maxDischargeDepth := 60) [hs]

theorem execHoldRequest_memOk (via : Via) (c : Ch) (s : State) (hs : s.memOk) (u : State) (hu : execHoldRequest via c s = .next u) : u.memOk := by
  obtain rfl := Host.Outcome.next.inj hu
  simp +contextual (maxDischargeDepth := 60) [hs]

theorem execStandby_memOk (via : Via) (c : Ch) (s : State) (hs : s.memOk) (u : State) (hu : execStandby via c s = .next u) : u.memOk := by
  obtain rfl := Host.Outcome.next.inj hu
  simp +contextual (maxDischargeDepth := 60) [hs]

theorem execWake_memOk (via : Via) (c : Ch) (s : State) (hs : s.memOk) (u : State) (hu : execWake via c s = .next u) : u.memOk := by
  obtain rfl := Host.Outcome.next.inj hu
  simp +contextual (maxDischargeDepth := 60) [hs]

theorem execRelease_memOk (via : Via) (c : Ch) (s : State) (hs : s.memOk) (u : State) (hu : execRelease via c s = .next u) : u.memOk := by
  obtain rfl := Host.Outcome.next.inj hu
  simp +contextual (maxDischargeDepth := 60) [hs]

theorem execReset_memOk (via : Via) (c : Ch) (s : State) (hs : s.memOk) (u : State) (hu : execReset via c s = .next u) : u.memOk := by
  obtain rfl := Host.Outcome.next.inj hu
  simp +contextual (maxDischargeDepth := 60) [hs]

theorem execPowerOff_memOk (via : Via) (c : Ch) (s : State) (hs : s.memOk) (u : State) (hu : execPowerOff via c s = .next u) : u.memOk := by
  obtain rfl := Host.Outcome.next.inj hu
  simp +contextual (maxDischargeDepth := 60) [hs]

theorem execPowerOn_memOk (via : Via) (c : Ch) (s : State) (hs : s.memOk) (u : State) (hu : execPowerOn via c s = .next u) : u.memOk := by
  obtain rfl := Host.Outcome.next.inj hu
  simp +contextual (maxDischargeDepth := 60) [hs]

theorem execClearSafe_memOk (via : Via) (s : State) (hs : s.memOk) (u : State) (hu : execClearSafe via s = .next u) : u.memOk := by
  obtain rfl := Host.Outcome.next.inj hu
  simp +contextual (maxDischargeDepth := 60) [hs]

theorem execBegin_memOk (via : Via) (s : State) (hs : s.memOk) (u : State) (hu : execBegin via s = .next u) : u.memOk := by
  obtain rfl := Host.Outcome.next.inj hu
  simp +contextual (maxDischargeDepth := 60) [hs]

theorem execTxnCommit_memOk (via : Via) (s : State) (hs : s.memOk) (u : State) (hu : execTxnCommit via s = .next u) : u.memOk := by
  obtain rfl := Host.Outcome.next.inj hu
  simp +contextual (maxDischargeDepth := 60) [hs]

theorem execRollback_memOk (via : Via) (s : State) (hs : s.memOk) (u : State) (hu : execRollback via s = .next u) : u.memOk := by
  obtain rfl := Host.Outcome.next.inj hu
  simp +contextual (maxDischargeDepth := 60) [hs]

theorem execLayerState_memOk (via : Via) (c : Ch) (offset : Nat) (value : List Byte) (s : State) (hs : s.memOk) (u : State) (hu : execLayerState via c offset value s = .next u) : u.memOk := by
  obtain rfl := Host.Outcome.next.inj hu
  simp +contextual (maxDischargeDepth := 60) [hs]

theorem execAttestNonce_memOk (via : Via) (scope : Option Ch) (offset : Nat) (value : List Byte) (s : State) (hs : s.memOk) (u : State) (hu : execAttestNonce via scope offset value s = .next u) : u.memOk := by
  cases scope <;> (obtain rfl := Host.Outcome.next.inj hu; simp [hs])

theorem execFwPending_memOk (via : Via) (offset : Nat) (value : List Byte) (s : State) (hs : s.memOk) (u : State) (hu : execFwPending via offset value s = .next u) : u.memOk := by
  obtain rfl := Host.Outcome.next.inj hu
  simp +contextual (maxDischargeDepth := 60) [hs]

theorem execFloorCert_memOk (via : Via) (offset : Nat) (value : List Byte) (s : State) (hs : s.memOk) (u : State) (hu : execFloorCert via offset value s = .next u) : u.memOk := by
  obtain rfl := Host.Outcome.next.inj hu
  simp +contextual (maxDischargeDepth := 60) [hs]

theorem execOwnerKey_memOk (via : Via) (offset : Nat) (value : List Byte) (s : State) (hs : s.memOk) (u : State) (hu : execOwnerKey via offset value s = .next u) : u.memOk := by
  obtain rfl := Host.Outcome.next.inj hu
  simp +contextual (maxDischargeDepth := 60) [hs]

theorem execOwnerTransfer_memOk (via : Via) (offset : Nat) (value : List Byte) (s : State) (hs : s.memOk) (u : State) (hu : execOwnerTransfer via offset value s = .next u) : u.memOk := by
  obtain rfl := Host.Outcome.next.inj hu
  simp +contextual (maxDischargeDepth := 60) [hs]

theorem execTenantSlot_memOk (via : Via) (c : Ch) (value : List Byte) (s : State) (hs : s.memOk) (u : State) (hu : execTenantSlot via c value s = .next u) : u.memOk := by
  obtain rfl := Host.Outcome.next.inj hu
  simp +contextual (maxDischargeDepth := 60) [hs]

theorem execConfigModule_memOk (via : Via) (offset : Nat) (value : List Byte) (s : State) (hs : s.memOk) (u : State) (hu : execConfigModule via offset value s = .next u) : u.memOk := by
  obtain rfl := Host.Outcome.next.inj hu
  simp +contextual (maxDischargeDepth := 60) [hs]

theorem execConfigChannel_memOk (via : Via) (c : Ch) (offset : Nat) (value : List Byte) (s : State) (hs : s.memOk) (u : State) (hu : execConfigChannel via c offset value s = .next u) : u.memOk := by
  obtain rfl := Host.Outcome.next.inj hu
  simp +contextual (maxDischargeDepth := 60) [hs]

theorem execDepotSize_memOk (via : Via) (c : Ch) (value : List Byte) (s : State) (hs : s.memOk) (u : State) (hu : execDepotSize via c value s = .next u) : u.memOk := by
  obtain rfl := Host.Outcome.next.inj hu
  simp +contextual (maxDischargeDepth := 60) [hs]

theorem execFarEnable_memOk (via : Via) (c : Ch) (value : List Byte) (s : State) (hs : s.memOk) (u : State) (hu : execFarEnable via c value s = .next u) : u.memOk := by
  obtain rfl := Host.Outcome.next.inj hu
  simp +contextual (maxDischargeDepth := 60) [hs]

theorem execLinkEnable_memOk (via : Via) (c : Ch) (p : Pt) (value : List Byte) (s : State) (hs : s.memOk) (u : State) (hu : execLinkEnable via c p value s = .next u) : u.memOk := by
  obtain rfl := Host.Outcome.next.inj hu
  simp +contextual (maxDischargeDepth := 60) [hs]

theorem execPowerAllowance_memOk (via : Via) (value : List Byte) (s : State) (hs : s.memOk) (u : State) (hu : execPowerAllowance via value s = .next u) : u.memOk := by
  obtain rfl := Host.Outcome.next.inj hu
  simp +contextual (maxDischargeDepth := 60) [hs]

theorem execEntryWrite_memOk (via : Via) (index sub offset : Nat) (value : List Byte) (s : State) (hs : s.memOk) (u : State) (hu : execEntryWrite via index sub offset value s = .next u) : u.memOk := by
  obtain rfl := Host.Outcome.next.inj hu
  simp +contextual (maxDischargeDepth := 60) [hs]

theorem execDbStart_memOk (c : Ch) (s : State) (hs : s.memOk) (u : State) (hu : execDbStart c s = .next u) : u.memOk := by
  obtain rfl := Host.Outcome.next.inj hu
  simp +contextual (maxDischargeDepth := 60) [hs]

theorem execDbResume_memOk (c : Ch) (s : State) (hs : s.memOk) (u : State) (hu : execDbResume c s = .next u) : u.memOk := by
  obtain rfl := Host.Outcome.next.inj hu
  simp +contextual (maxDischargeDepth := 60) [hs]

theorem execDbHoldRequest_memOk (c : Ch) (s : State) (hs : s.memOk) (u : State) (hu : execDbHoldRequest c s = .next u) : u.memOk := by
  obtain rfl := Host.Outcome.next.inj hu
  simp +contextual (maxDischargeDepth := 60) [hs]

theorem execDbTtLoad_memOk (c : Ch) (s : State) (hs : s.memOk) (u : State) (hu : execDbTtLoad c s = .next u) : u.memOk := by
  obtain rfl := Host.Outcome.next.inj hu
  simp +contextual (maxDischargeDepth := 60) [hs]

theorem execDbNop_memOk (c : Ch) (s : State) (hs : s.memOk) (u : State) (hu : execDbNop c s = .next u) : u.memOk := by
  obtain rfl := Host.Outcome.next.inj hu
  simp +contextual (maxDischargeDepth := 60) [hs]

theorem execEventNotify_memOk (ring : Option Ch) (s : State) (hs : s.memOk) (u : State) (hu : execEventNotify ring s = .next u) : u.memOk := by
  obtain rfl := Host.Outcome.next.inj hu
  (try dsimp only)
  repeat' split
  all_goals simp +contextual (maxDischargeDepth := 60) [hs]

theorem execDbTail_memOk (c : Ch) (value : Nat) (s : State) (hs : s.memOk) (u : State) (hu : execDbTail c value s = .next u) : u.memOk := by
  obtain rfl := Host.Outcome.next.inj hu
  simp +contextual (maxDischargeDepth := 60) [hs]

theorem execEvtConsumed_memOk (c : Ch) (value : Nat) (s : State) (hs : s.memOk) (u : State) (hu : execEvtConsumed c value s = .next u) : u.memOk := by
  obtain rfl := Host.Outcome.next.inj hu
  simp +contextual (maxDischargeDepth := 60) [hs]

theorem execChMboxGo_memOk (c : Ch) (s : State) (hs : s.memOk) (u : State) (hu : execChMboxGo c s = .next u) : u.memOk := by
  obtain rfl := Host.Outcome.next.inj hu
  simp +contextual (maxDischargeDepth := 60) [hs]

theorem execModMboxGo_memOk (c : Ch) (s : State) (hs : s.memOk) (u : State) (hu : execModMboxGo c s = .next u) : u.memOk := by
  obtain rfl := Host.Outcome.next.inj hu
  simp +contextual (maxDischargeDepth := 60) [hs]

theorem execHostRead_memOk (c : Ch) (addr len : Nat) (faults : List MemFault) (s : State) (hs : s.memOk) (u : State) (hu : execHostRead c addr len faults s = .next u) : u.memOk := by
  obtain rfl := Host.Outcome.next.inj hu
  simp +contextual (maxDischargeDepth := 60) [hs]

theorem execHostWrite_memOk (c : Ch) (addr : Nat) (data : List Byte) (s : State) (hs : s.memOk) (u : State) (hu : execHostWrite c addr data s = .next u) : u.memOk := by
  obtain rfl := Host.Outcome.next.inj hu
  simp +contextual (maxDischargeDepth := 60) [hs]

theorem execRecall_memOk (c : Ch) (hostAddr : Nat) (s : State) (hs : s.memOk) (u : State) (hu : execRecall c hostAddr s = .next u) : u.memOk := by
  obtain rfl := Host.Outcome.next.inj hu
  simp +contextual (maxDischargeDepth := 60) [hs]

theorem execHostCompletion_memOk (c : Ch) (id : Nat) (data : List Byte) (poisoned : Bool) (s : State) (hs : s.memOk) (u : State) (hu : execHostCompletion c id data poisoned s = .next u) : u.memOk := by
  obtain rfl := Host.Outcome.next.inj hu
  (try dsimp only)
  repeat' split
  all_goals first | exact hs | assumption | (simp +contextual (maxDischargeDepth := 60) [hs]; done)

theorem execFlitReplay_memOk (c : Ch) (s : State) (hs : s.memOk) (u : State) (hu : execFlitReplay c s = .next u) : u.memOk := by
  obtain rfl := Host.Outcome.next.inj hu
  simp +contextual (maxDischargeDepth := 60) [hs]

theorem execSliceUp_memOk (c : Ch) (link : Nat) (s : State) (hs : s.memOk) (u : State) (hu : execSliceUp c link s = .next u) : u.memOk := by
  obtain rfl := Host.Outcome.next.inj hu
  simp +contextual (maxDischargeDepth := 60) [hs]

theorem execHostLinkDown_memOk (c : Ch) (s : State) (hs : s.memOk) (u : State) (hu : execHostLinkDown c s = .next u) : u.memOk := by
  obtain rfl := Host.Outcome.next.inj hu
  simp +contextual (maxDischargeDepth := 60) [hs]

theorem execHostTimeout_memOk (c : Ch) (s : State) (hs : s.memOk) (u : State) (hu : execHostTimeout c s = .next u) : u.memOk := by
  obtain rfl := Host.Outcome.next.inj hu
  (try dsimp only)
  repeat' split
  all_goals first | exact hs | assumption | (simp +contextual (maxDischargeDepth := 60) [hs]; done)

theorem execControlUncorrectable_memOk (c : Ch) (structureNo cluster : Nat) (s : State) (hs : s.memOk) (u : State) (hu : execControlUncorrectable c structureNo cluster s = .next u) : u.memOk := by
  obtain rfl := Host.Outcome.next.inj hu
  simp +contextual (maxDischargeDepth := 60) [hs]

theorem execComparatorTrip_memOk (c : Ch) (comparator die : Nat) (s : State) (hs : s.memOk) (u : State) (hu : execComparatorTrip c comparator die s = .next u) : u.memOk := by
  obtain rfl := Host.Outcome.next.inj hu
  simp +contextual (maxDischargeDepth := 60) [hs]

theorem execRootPllLockLoss_memOk (c : Ch) (s : State) (hs : s.memOk) (u : State) (hu : execRootPllLockLoss c s = .next u) : u.memOk := by
  obtain rfl := Host.Outcome.next.inj hu
  simp +contextual (maxDischargeDepth := 60) [hs]

theorem execWatchdogExpiry_memOk (c : Ch) (s : State) (hs : s.memOk) (u : State) (hu : execWatchdogExpiry c s = .next u) : u.memOk := by
  obtain rfl := Host.Outcome.next.inj hu
  simp +contextual (maxDischargeDepth := 60) [hs]

theorem execComparatorTest_memOk (c : Ch) (failed : Option (Nat × Nat)) (s : State) (hs : s.memOk) (u : State) (hu : execComparatorTest c failed s = .next u) : u.memOk := by
  obtain rfl := Host.Outcome.next.inj hu
  (try dsimp only)
  repeat' split
  all_goals first | exact hs | assumption | (simp +contextual (maxDischargeDepth := 60) [hs]; done)

theorem execResetDone_memOk (c : Ch) (s : State) (hs : s.memOk) (u : State) (hu : execResetDone c s = .next u) : u.memOk := by
  obtain rfl := Host.Outcome.next.inj hu
  split
  · have h0 : ∀ f, ((s.onMem c Memory.clearBoard).onHub c f).memOk := fun f =>
      onHub_memOk _ _ _ (onMem_memOk _ _ _ hs (by simp [hs]) (by simp [hs]))
    (try dsimp only)
    refine reefDecide_memOk _ _ (markLife_memOk _ _ (log_memOk _ _ _ _ _ (foldl_memOk _ _ _ ?_ (fun t x ht => ?_))))
    · have h1 := fun f g => onCtl_memOk _ c g (setChState_memOk _ c .ready (h0 f))
      split
      · exact h1 _ _
      · exact addDown_memOk _ _ _ (h1 _ _)
    · split
      · exact sendHello_memOk _ _ _ ht
      · exact ht
  · exact hs

theorem execConverterFault_memOk (c : Ch) (rail : Fin 4) (s : State) (hs : s.memOk) (u : State) (hu : execConverterFault c rail s = .next u) : u.memOk := by
  obtain rfl := Host.Outcome.next.inj hu
  simp +contextual (maxDischargeDepth := 60) [hs]

theorem execPatrolScrub_memOk (c : Ch) (addr : Nat) (found : ScrubFinding) (s : State) (hs : s.memOk) (u : State) (hu : execPatrolScrub c addr found s = .next u) : u.memOk := by
  obtain rfl := Host.Outcome.next.inj hu
  repeat' split
  all_goals first | exact hs | assumption | (simp +contextual (maxDischargeDepth := 60) [hs]; done)

theorem execFarTrained_memOk (c : Ch) (link : Option (Nat × Nat)) (s : State) (hs : s.memOk) (u : State) (hu : execFarTrained c link s = .next u) : u.memOk := by
  obtain rfl := Host.Outcome.next.inj hu
  repeat' split
  all_goals first | exact hs | assumption | (simp +contextual (maxDischargeDepth := 60) [hs]; done)

theorem execFarTierDown_memOk (c : Ch) (s : State) (hs : s.memOk) (u : State) (hu : execFarTierDown c s = .next u) : u.memOk := by
  obtain rfl := Host.Outcome.next.inj hu
  simp +contextual (maxDischargeDepth := 60) [hs]

theorem execInputLoss_memOk (volts : W32) (s : State) (hs : s.memOk) (u : State) (hu : execInputLoss volts s = .next u) : u.memOk := by
  obtain rfl := Host.Outcome.next.inj hu
  split
  · exact hs
  · split
    · exact powerLoss_memOk _ _ _ hs
    · split
      · exact powerLoss_memOk _ _ _ hs
      · exact hs

theorem execModuleResetN_memOk (s : State) (hs : s.memOk) (u : State) (hu : execModuleResetN s = .next u) : u.memOk := by
  obtain rfl := Host.Outcome.next.inj hu
  split
  · exact hs
  · exact onM_memOk _ _ (powerLoss_memOk _ _ _ hs)

theorem execPowerUp_memOk (s : State) (hs : s.memOk) (u : State) (hu : execPowerUp s = .next u) : u.memOk := by
  obtain rfl := Host.Outcome.next.inj hu
  simp +contextual (maxDischargeDepth := 60) [hs]

theorem execStationMasterReady_memOk (s : State) (hs : s.memOk) (u : State) (hu : execStationMasterReady s = .next u) : u.memOk := by
  obtain rfl := Host.Outcome.next.inj hu
  repeat' split
  all_goals first | exact hs | assumption | (simp +contextual (maxDischargeDepth := 60) [hs]; done)

theorem execRootLock_memOk (c : Ch) (s : State) (hs : s.memOk) (u : State) (hu : execRootLock c s = .next u) : u.memOk := by
  obtain rfl := Host.Outcome.next.inj hu
  simp +contextual (maxDischargeDepth := 60) [hs]

theorem execGddr7Training_memOk (c : Ch) (device : Fin 8) (ok : Bool) (s : State) (hs : s.memOk) (u : State) (hu : execGddr7Training c device ok s = .next u) : u.memOk := by
  obtain rfl := Host.Outcome.next.inj hu
  simp +contextual (maxDischargeDepth := 60) [hs]

theorem execRegionGroup_memOk (c : Ch) (group : Fin 4) (results : List RegionBoot) (s : State) (hs : s.memOk) (u : State) (hu : execRegionGroup c group results s = .next u) : u.memOk := by
  obtain rfl := Host.Outcome.next.inj hu
  simp +contextual (maxDischargeDepth := 60) [hs]

theorem execChannelBooted_memOk (c : Ch) (failed : Option (Nat × Nat)) (s : State) (hs : s.memOk) (u : State) (hu : execChannelBooted c failed s = .next u) : u.memOk := by
  obtain rfl := Host.Outcome.next.inj hu
  (try dsimp only)
  repeat' split
  all_goals first | exact hs | assumption | (simp +contextual (maxDischargeDepth := 60) [hs]; done)

theorem execBootWait_memOk (c : Ch) (s : State) (hs : s.memOk) (u : State) (hu : execBootWait c s = .next u) : u.memOk := by
  obtain rfl := Host.Outcome.next.inj hu
  simp +contextual (maxDischargeDepth := 60) [hs]

theorem execJoulesPerToken_memOk (s : State) (hs : s.memOk) (u : State) (hu : execJoulesPerToken s = .next u) : u.memOk := by
  obtain rfl := Host.Outcome.next.inj hu
  simp +contextual (maxDischargeDepth := 60) [hs]

theorem execLifetimeService_memOk (s : State) (hs : s.memOk) (u : State) (hu : execLifetimeService s = .next u) : u.memOk := by
  obtain rfl := Host.Outcome.next.inj hu
  simp +contextual (maxDischargeDepth := 60) [hs]

theorem execAdd_memOk (w : At) (s : State) (hs : s.memOk) (u : State) (hu : execAdd w s = .next u) : u.memOk := by
  obtain rfl := Host.Outcome.next.inj hu
  simp +contextual (maxDischargeDepth := 60) [hs]

theorem execSub_memOk (w : At) (s : State) (hs : s.memOk) (u : State) (hu : execSub w s = .next u) : u.memOk := by
  obtain rfl := Host.Outcome.next.inj hu
  simp +contextual (maxDischargeDepth := 60) [hs]

theorem execMul_memOk (w : At) (s : State) (hs : s.memOk) (u : State) (hu : execMul w s = .next u) : u.memOk := by
  obtain rfl := Host.Outcome.next.inj hu
  simp +contextual (maxDischargeDepth := 60) [hs]

theorem execFma_memOk (w : At) (s : State) (hs : s.memOk) (u : State) (hu : execFma w s = .next u) : u.memOk := by
  obtain rfl := Host.Outcome.next.inj hu
  simp +contextual (maxDischargeDepth := 60) [hs]

theorem execAxpby_memOk (w : At) (s : State) (hs : s.memOk) (u : State) (hu : execAxpby w s = .next u) : u.memOk := by
  obtain rfl := Host.Outcome.next.inj hu
  simp +contextual (maxDischargeDepth := 60) [hs]

theorem execMin_memOk (w : At) (s : State) (hs : s.memOk) (u : State) (hu : execMin w s = .next u) : u.memOk := by
  obtain rfl := Host.Outcome.next.inj hu
  simp +contextual (maxDischargeDepth := 60) [hs]

theorem execMax_memOk (w : At) (s : State) (hs : s.memOk) (u : State) (hu : execMax w s = .next u) : u.memOk := by
  obtain rfl := Host.Outcome.next.inj hu
  simp +contextual (maxDischargeDepth := 60) [hs]

theorem execAbs_memOk (w : At) (s : State) (hs : s.memOk) (u : State) (hu : execAbs w s = .next u) : u.memOk := by
  obtain rfl := Host.Outcome.next.inj hu
  simp +contextual (maxDischargeDepth := 60) [hs]

theorem execNeg_memOk (w : At) (s : State) (hs : s.memOk) (u : State) (hu : execNeg w s = .next u) : u.memOk := by
  obtain rfl := Host.Outcome.next.inj hu
  simp +contextual (maxDischargeDepth := 60) [hs]

theorem execDiv_memOk (w : At) (s : State) (hs : s.memOk) (u : State) (hu : execDiv w s = .next u) : u.memOk := by
  obtain rfl := Host.Outcome.next.inj hu
  simp +contextual (maxDischargeDepth := 60) [hs]

theorem execSqrt_memOk (w : At) (s : State) (hs : s.memOk) (u : State) (hu : execSqrt w s = .next u) : u.memOk := by
  obtain rfl := Host.Outcome.next.inj hu
  simp +contextual (maxDischargeDepth := 60) [hs]

theorem execLdexp_memOk (w : At) (s : State) (hs : s.memOk) (u : State) (hu : execLdexp w s = .next u) : u.memOk := by
  obtain rfl := Host.Outcome.next.inj hu
  simp +contextual (maxDischargeDepth := 60) [hs]

theorem execClamp_memOk (w : At) (s : State) (hs : s.memOk) (u : State) (hu : execClamp w s = .next u) : u.memOk := by
  obtain rfl := Host.Outcome.next.inj hu
  simp +contextual (maxDischargeDepth := 60) [hs]

theorem execExp_memOk (w : At) (s : State) (hs : s.memOk) (u : State) (hu : execExp w s = .next u) : u.memOk := by
  obtain rfl := Host.Outcome.next.inj hu
  simp +contextual (maxDischargeDepth := 60) [hs]

theorem execLog_memOk (w : At) (s : State) (hs : s.memOk) (u : State) (hu : execLog w s = .next u) : u.memOk := by
  obtain rfl := Host.Outcome.next.inj hu
  simp +contextual (maxDischargeDepth := 60) [hs]

theorem execRsqrt_memOk (w : At) (s : State) (hs : s.memOk) (u : State) (hu : execRsqrt w s = .next u) : u.memOk := by
  obtain rfl := Host.Outcome.next.inj hu
  simp +contextual (maxDischargeDepth := 60) [hs]

theorem execTanh_memOk (w : At) (s : State) (hs : s.memOk) (u : State) (hu : execTanh w s = .next u) : u.memOk := by
  obtain rfl := Host.Outcome.next.inj hu
  simp +contextual (maxDischargeDepth := 60) [hs]

theorem execSigmoid_memOk (w : At) (s : State) (hs : s.memOk) (u : State) (hu : execSigmoid w s = .next u) : u.memOk := by
  obtain rfl := Host.Outcome.next.inj hu
  simp +contextual (maxDischargeDepth := 60) [hs]

theorem execGelu_memOk (w : At) (s : State) (hs : s.memOk) (u : State) (hu : execGelu w s = .next u) : u.memOk := by
  obtain rfl := Host.Outcome.next.inj hu
  simp +contextual (maxDischargeDepth := 60) [hs]

theorem execSin_memOk (w : At) (s : State) (hs : s.memOk) (u : State) (hu : execSin w s = .next u) : u.memOk := by
  obtain rfl := Host.Outcome.next.inj hu
  simp +contextual (maxDischargeDepth := 60) [hs]

theorem execCos_memOk (w : At) (s : State) (hs : s.memOk) (u : State) (hu : execCos w s = .next u) : u.memOk := by
  obtain rfl := Host.Outcome.next.inj hu
  simp +contextual (maxDischargeDepth := 60) [hs]

theorem execLt_memOk (w : At) (s : State) (hs : s.memOk) (u : State) (hu : execLt w s = .next u) : u.memOk := by
  obtain rfl := Host.Outcome.next.inj hu
  simp +contextual (maxDischargeDepth := 60) [hs]

theorem execLe_memOk (w : At) (s : State) (hs : s.memOk) (u : State) (hu : execLe w s = .next u) : u.memOk := by
  obtain rfl := Host.Outcome.next.inj hu
  simp +contextual (maxDischargeDepth := 60) [hs]

theorem execEq_memOk (w : At) (s : State) (hs : s.memOk) (u : State) (hu : execEq w s = .next u) : u.memOk := by
  obtain rfl := Host.Outcome.next.inj hu
  simp +contextual (maxDischargeDepth := 60) [hs]

theorem execNe_memOk (w : At) (s : State) (hs : s.memOk) (u : State) (hu : execNe w s = .next u) : u.memOk := by
  obtain rfl := Host.Outcome.next.inj hu
  simp +contextual (maxDischargeDepth := 60) [hs]

theorem execSelect_memOk (w : At) (s : State) (hs : s.memOk) (u : State) (hu : execSelect w s = .next u) : u.memOk := by
  obtain rfl := Host.Outcome.next.inj hu
  simp +contextual (maxDischargeDepth := 60) [hs]

theorem execConvert_memOk (w : At) (s : State) (hs : s.memOk) (u : State) (hu : execConvert w s = .next u) : u.memOk := by
  obtain rfl := Host.Outcome.next.inj hu
  simp +contextual (maxDischargeDepth := 60) [hs]

theorem execGather_memOk (w : At) (s : State) (hs : s.memOk) (u : State) (hu : execGather w s = .next u) : u.memOk := by
  obtain rfl := Host.Outcome.next.inj hu
  simp +contextual (maxDischargeDepth := 60) [hs]

theorem execScatterAdd_memOk (w : At) (s : State) (hs : s.memOk) (u : State) (hu : execScatterAdd w s = .next u) : u.memOk := by
  obtain rfl := Host.Outcome.next.inj hu
  refine vecCar_memOk _ _ _ _ _ _ (meet_memOk _ _ hs) (fun x car r t ht => ?_)
  dsimp only
  refine onMem_memOk' _ _ _ ?_ ?_
  · simp +contextual (maxDischargeDepth := 60) [ht]
  · refine foldl_mem_wf _ (fun m p hm => ?_) _ _ (ht _)
    split
    · exact Memory.write_wf _ _ hm
    · exact hm

theorem execScanSum_memOk (w : At) (s : State) (hs : s.memOk) (u : State) (hu : execScanSum w s = .next u) : u.memOk := by
  obtain rfl := Host.Outcome.next.inj hu
  simp +contextual (maxDischargeDepth := 60) [hs]

theorem execScanXsum_memOk (w : At) (s : State) (hs : s.memOk) (u : State) (hu : execScanXsum w s = .next u) : u.memOk := by
  obtain rfl := Host.Outcome.next.inj hu
  simp +contextual (maxDischargeDepth := 60) [hs]

theorem execScanMax_memOk (w : At) (s : State) (hs : s.memOk) (u : State) (hu : execScanMax w s = .next u) : u.memOk := by
  obtain rfl := Host.Outcome.next.inj hu
  simp +contextual (maxDischargeDepth := 60) [hs]

theorem execDiscRev_memOk (w : At) (s : State) (hs : s.memOk) (u : State) (hu : execDiscRev w s = .next u) : u.memOk := by
  obtain rfl := Host.Outcome.next.inj hu
  simp +contextual (maxDischargeDepth := 60) [hs]

theorem execSort_memOk (w : At) (s : State) (hs : s.memOk) (u : State) (hu : execSort w s = .next u) : u.memOk := by
  obtain rfl := Host.Outcome.next.inj hu
  refine issueFrom_memOk _ _ _ _ _ (meet_memOk _ _ hs) (fun e t u h ht => ?_)
  revert h
  (try dsimp only)
  repeat' split
  all_goals intro h
  all_goals first
    | (cases h; done)
    | (obtain rfl := Option.some.inj h; simp +contextual (maxDischargeDepth := 60) [ht]; done)

theorem execScalegen_memOk (w : At) (s : State) (hs : s.memOk) (u : State) (hu : execScalegen w s = .next u) : u.memOk := by
  obtain rfl := Host.Outcome.next.inj hu
  refine issueFrom_memOk _ _ _ _ _ (meet_memOk _ _ hs) (fun e t u h ht => ?_)
  revert h
  (try dsimp only)
  repeat' split
  all_goals intro h
  all_goals first
    | (cases h; done)
    | (obtain rfl := Option.some.inj h; simp +contextual (maxDischargeDepth := 60) [ht]; done)

theorem execRaw_memOk (w : At) (s : State) (hs : s.memOk) (u : State) (hu : execRaw w s = .next u) : u.memOk := by
  obtain rfl := Host.Outcome.next.inj hu
  simp +contextual (maxDischargeDepth := 60) [hs]

theorem execUniform_memOk (w : At) (s : State) (hs : s.memOk) (u : State) (hu : execUniform w s = .next u) : u.memOk := by
  obtain rfl := Host.Outcome.next.inj hu
  simp +contextual (maxDischargeDepth := 60) [hs]

theorem execNormal_memOk (w : At) (s : State) (hs : s.memOk) (u : State) (hu : execNormal w s = .next u) : u.memOk := by
  obtain rfl := Host.Outcome.next.inj hu
  simp +contextual (maxDischargeDepth := 60) [hs]

theorem execBernoulli_memOk (w : At) (s : State) (hs : s.memOk) (u : State) (hu : execBernoulli w s = .next u) : u.memOk := by
  obtain rfl := Host.Outcome.next.inj hu
  simp +contextual (maxDischargeDepth := 60) [hs]

theorem execDropout_memOk (w : At) (s : State) (hs : s.memOk) (u : State) (hu : execDropout w s = .next u) : u.memOk := by
  obtain rfl := Host.Outcome.next.inj hu
  simp +contextual (maxDischargeDepth := 60) [hs]

theorem execAdamw_memOk (w : At) (s : State) (hs : s.memOk) (u : State) (hu : execAdamw w s = .next u) : u.memOk := by
  obtain rfl := Host.Outcome.next.inj hu
  simp +contextual (maxDischargeDepth := 60) [hs]

theorem execLion_memOk (w : At) (s : State) (hs : s.memOk) (u : State) (hu : execLion w s = .next u) : u.memOk := by
  obtain rfl := Host.Outcome.next.inj hu
  simp +contextual (maxDischargeDepth := 60) [hs]

theorem execSgdm_memOk (w : At) (s : State) (hs : s.memOk) (u : State) (hu : execSgdm w s = .next u) : u.memOk := by
  obtain rfl := Host.Outcome.next.inj hu
  simp +contextual (maxDischargeDepth := 60) [hs]

theorem execRedSum_memOk (w : At) (s : State) (hs : s.memOk) (u : State) (hu : execRedSum w s = .next u) : u.memOk := by
  obtain rfl := Host.Outcome.next.inj hu
  simp +contextual (maxDischargeDepth := 60) [hs]

theorem execRedSumsq_memOk (w : At) (s : State) (hs : s.memOk) (u : State) (hu : execRedSumsq w s = .next u) : u.memOk := by
  obtain rfl := Host.Outcome.next.inj hu
  simp +contextual (maxDischargeDepth := 60) [hs]

theorem execRedMax_memOk (w : At) (s : State) (hs : s.memOk) (u : State) (hu : execRedMax w s = .next u) : u.memOk := by
  obtain rfl := Host.Outcome.next.inj hu
  simp +contextual (maxDischargeDepth := 60) [hs]

theorem execRedMin_memOk (w : At) (s : State) (hs : s.memOk) (u : State) (hu : execRedMin w s = .next u) : u.memOk := by
  obtain rfl := Host.Outcome.next.inj hu
  simp +contextual (maxDischargeDepth := 60) [hs]

theorem execRedMaxabs_memOk (w : At) (s : State) (hs : s.memOk) (u : State) (hu : execRedMaxabs w s = .next u) : u.memOk := by
  obtain rfl := Host.Outcome.next.inj hu
  simp +contextual (maxDischargeDepth := 60) [hs]

end Sys2Proof.Machine
end

