-- ==== Sys2Proof/Laws/Hash.lean ====
section
/-! SUPPORT. The lengths of digests and tags (17 R376, R388). -/

namespace Sys2Proof.Machine

theorem keccakRound_length (a : List W64) (i : Nat) : (keccakRound a i).length = 25 := by
  simp [keccakRound, tab]

theorem keccakF_length (a : List W64) : (keccakF a).length = 25 := by
  have h : ∀ (l : List Nat) (a : List W64), l ≠ [] → (l.foldl keccakRound a).length = 25 := by
    intro l; induction l with
    | nil => simp
    | cons i l ih =>
      intro a _
      by_cases hl : l = []
      · subst hl; exact keccakRound_length a i
      · exact ih _ hl
  exact h _ a (by decide)

theorem keccakBlocks_length (n : Nat) (a : List W64) (bs : List Byte) (h : a.length = 25) : (keccakBlocks n a bs).length = 25 := by
  induction n generalizing a bs with
  | zero => exact h
  | succ n ih =>
    simp only [keccakBlocks]
    split
    · exact h
    · exact ih _ _ (keccakF_length _)

theorem flatMap_bytes_length (l : List W64) : (l.flatMap (fun w => bytesOfNat 8 w.toNat)).length = 8 * l.length := by
  induction l with
  | nil => rfl
  | cons a l ih => simp [List.flatMap_cons, bytesOfNat]; omega

theorem sponge_length (dom : Byte) (msg : List Byte) (n : Nat) (h : n ≤ 200) : (sponge256 dom msg n).length = n := by
  simp only [sponge256, List.length_take, flatMap_bytes_length]
  rw [keccakBlocks_length _ _ _ (by simp)]
  omega

/-- A digest has 64 bytes. -/
@[simp] theorem shake256_length (msg : List Byte) : (shake256 msg).length = 64 := sponge_length _ _ _ (by decide)
/-- A KEY_ID has 8 bytes. -/
@[simp] theorem keyId_length (key : List Byte) : (keyId key).length = 8 := by simp [keyId]
/-- A tag has 32 bytes. -/
@[simp] theorem kmac256_length (key msg custom : List Byte) : (kmac256 key msg custom).length = 32 := sponge_length _ _ _ (by decide)

end Sys2Proof.Machine
end

