-- ==== Sys2Proof/Laws/Tab.lean ====
section
/-! SUPPORT. What a table holds after values are stored in it, and what a byte of memory reads as after a write. -/

namespace Sys2Proof.Machine

theorem Tab.get_del {α : Type} (d : α) (t : Tab α) (k j : Nat) :
    Tab.get d (Tab.del t k) j = if j = k then d else Tab.get d t j := by
  induction t with
  | nil => simp [Tab.del, Tab.get]
  | cons p t ih =>
    obtain ⟨a, v⟩ := p
    unfold Tab.del at ih ⊢
    by_cases h : a = k
    · subst h
      rw [List.filter_cons_of_neg (by simp), ih]
      by_cases hj : j = a
      · simp [hj]
      · simp [Tab.get, hj, Ne.symm hj]
    · rw [List.filter_cons_of_pos (by simpa using h)]
      unfold Tab.get
      by_cases ha : a = j
      · subst ha; simp [h]
      · simp [ha, ih]

theorem Tab.get_ins {α : Type} (d : α) (t : Tab α) (k j : Nat) (v : α) (h : Tab.get d t k = d) (hk : ∀ p ∈ t, p.1 ≠ k) :
    Tab.get d (Tab.ins k v t) j = if j = k then v else Tab.get d t j := by
  induction t with
  | nil => simp [Tab.ins, Tab.get, eq_comm]
  | cons p t ih =>
    obtain ⟨a, w⟩ := p
    have hne : a ≠ k := hk (a, w) (List.mem_cons_self ..)
    unfold Tab.ins
    split
    · simp [Tab.get, eq_comm]
    · have h' : Tab.get d t k = d := by simpa [Tab.get, hne] using h
      unfold Tab.get
      rw [ih h' (fun p hp => hk p (List.mem_cons_of_mem _ hp))]
      by_cases ha : a = j
      · subst ha; simp [hne]
      · simp [ha]

/-- A stored value is read back, and every other key keeps its value. -/
theorem Tab.get_put {α : Type} [DecidableEq α] (d : α) (t : Tab α) (k j : Nat) (v : α) :
    Tab.get d (Tab.put d t k v) j = if j = k then v else Tab.get d t j := by
  unfold Tab.put
  split
  · subst_vars; exact Tab.get_del ..
  · rw [Tab.get_ins _ _ _ _ _ (by simp [Tab.get_del]) (fun p hp => by simpa using (List.mem_filter.mp hp).2), Tab.get_del]
    split <;> rfl

@[simp] theorem Tab.get_put_same {α : Type} [DecidableEq α] (d : α) (t : Tab α) (k : Nat) (v : α) :
    Tab.get d (Tab.put d t k v) k = v := by simp [Tab.get_put]
@[simp] theorem Tab.get_put_other {α : Type} [DecidableEq α] (d : α) (t : Tab α) (k j : Nat) (v : α) (h : j ≠ k) :
    Tab.get d (Tab.put d t k v) j = Tab.get d t j := by simp [Tab.get_put, h]

/-- What a key holds after a run of values is stored from `k` on. -/
theorem Tab.get_putAll {α : Type} [DecidableEq α] (d : α) (vs : List α) (t : Tab α) (k j : Nat) :
    Tab.get d (Tab.putAll d t k vs) j = if k ≤ j ∧ j < k + vs.length then vs.getD (j - k) d else Tab.get d t j := by
  induction vs generalizing t k with
  | nil => simp [Tab.putAll]
  | cons v vs ih =>
    unfold Tab.putAll
    rw [ih, Tab.get_put]
    by_cases h : j = k
    · subst h; simp
    · by_cases h1 : k + 1 ≤ j ∧ j < k + 1 + vs.length
      · rw [if_pos h1, if_pos (by simp only [List.length_cons]; omega)]
        obtain ⟨m, rfl⟩ : ∃ m, j = k + 1 + m := ⟨j - (k + 1), by omega⟩
        rw [show k + 1 + m - (k + 1) = m by omega, show k + 1 + m - k = m + 1 by omega]
        simp
      · rw [if_neg h1, if_neg h, if_neg (by simp only [List.length_cons]; omega)]

/-- A byte after a write: the byte written at its place, and every other byte as before. -/
theorem Memory.byte_write (m : Memory) (a x : Nat) (bs : List Byte) :
    (m.write a bs).byte x = if a ≤ x ∧ x < a + bs.length then bs.getD (x - a) Memory.unwritten else m.byte x :=
  Tab.get_putAll _ _ _ _ _

theorem Memory.byte_write_other (m : Memory) (a x : Nat) (bs : List Byte) (h : x < a ∨ a + bs.length ≤ x) :
    (m.write a bs).byte x = m.byte x := by rw [Memory.byte_write, if_neg (by omega)]

/-- A masked write leaves every byte outside its extent. -/
theorem Memory.byte_writeMask_other (m : Memory) (a x : Nat) (bs : List (Option Byte)) (h : x < a ∨ a + bs.length ≤ x) :
    (m.writeMask a bs).byte x = m.byte x := by
  have key : ∀ (l : List (Option Byte × Nat)) (t : Tab Byte), (∀ e ∈ l, x ≠ a + e.2) →
      Tab.get Memory.unwritten (l.foldl (fun t e => match e.1 with | some b => Tab.put Memory.unwritten t (a + e.2) b | none => t) t) x
        = Tab.get Memory.unwritten t x := by
    intro l
    induction l with
    | nil => intro t _; rfl
    | cons e l ih =>
      intro t ht
      rw [List.foldl_cons, ih _ (fun e he => ht e (List.mem_cons_of_mem _ he))]
      have := ht e (List.mem_cons_self ..)
      cases e.1 with
      | none => rfl
      | some b => exact Tab.get_put_other _ _ _ _ _ this
  refine key _ _ (fun e he => ?_)
  have := List.snd_lt_of_mem_zipIdx he
  omega

@[simp] theorem cluster_setCluster (r : Run) (k j : Nat) (x : Cluster) :
    (r.setCluster k x).cluster j = if j = k then x else r.cluster j := Tab.get_put ..

@[simp] theorem cluster_onCluster (s : State) (c : Ch) (k j : Nat) (f : Cluster → Cluster) :
    (s.onCluster c k f).cluster c j = if j = k then f (s.cluster c k) else s.cluster c j := by
  simp [State.cluster, State.onCluster]

end Sys2Proof.Machine
end

