-- ==== Sys2Proof/WellFormed.lean ====
section
/-! DEFINITION. Which commands are well formed: every operand fits the field of the wire, the bus or the dictionary that carries it. A
command that is not well formed names nothing that can reach the M40. -/

namespace Sys2Proof

/-- A number that fits a field of `w` bits. -/
def below (w n : Nat) : Bool := decide (n < 2 ^ w)

/-- The value of a dictionary request has at most 240 bytes (12 R294). -/
def pieceWf (v : List Byte) : Bool := decide (v.length ≤ 240)

/-- A link report: lanes / 4 in [7:4] and the rate in [3:0] (08 Table 08-10, 11 Table 11-4). -/
def farLinkWf (l : Nat) : Bool := (l / 16 == 1 || l / 16 == 2 || l / 16 == 4) && (l % 16 == 1 || l % 16 == 2)

/-- An address of the 48-bit map (08 R191). -/
def MemFault.wf (f : MemFault) : Bool := below 48 f.addr

/-- The damage that a car's or a sequencer's reads meet lies in the address map. -/
def At.wf (w : At) : Bool := w.faults.all MemFault.wf

/-- A session number has 32 bits (12 R297). -/
def Via.wf : Via → Bool
  | .eth n => below 32 n
  | .i3c n => below 32 n
  | .chMbox _ => true
  | .modMbox => true

/-- The widths of a HELLO payload (09 Table 09-14). -/
def Hello.wf (h : Hello) : Bool :=
  below 16 h.rank && decide (h.port < 5) && below 2 h.align && below 6 h.hops && below 32 h.resetGen && below 64 h.identity &&
    below 32 h.echoDelta && below 32 h.echoTx && below 64 h.txCount

/-- The widths of a request head (09 Table 09-6). -/
def ReqHead.wf (h : ReqHead) : Bool :=
  below 64 h.addr && below 32 h.seq && below 32 h.length && below 16 h.rank && below 8 h.port && below 8 h.epoch

/-- The widths of an atomic head (09 Table 09-6). -/
def AtomHead.wf (h : AtomHead) : Bool :=
  below 64 h.addr && below 32 h.seq && below 16 h.rank && below 8 h.port && below 8 h.epoch && below 64 h.a && below 64 h.b &&
    below 16 h.round && below 8 h.members

/-- The widths of a response head (09 Table 09-6). -/
def RespHead.wf (h : RespHead) : Bool :=
  below 32 h.seq && below 8 h.status && below 8 h.epoch && below 16 h.rank && below 64 h.result && below 24 h.length

/-- The widths of a mail head (09 Table 09-10). -/
def MailHead.wf (h : MailHead) : Bool :=
  below 16 h.dstRank && below 16 h.srcRank && below 8 h.queue && below 8 h.hops && below 8 h.dstLeg && below 8 h.dstIter &&
    below 32 h.msg && below 32 h.length && below 32 h.fragFirst && below 32 h.tag

/-- The widths of a mail acknowledgement (09 Table 09-10). -/
def AckHead.wf (h : AckHead) : Bool :=
  below 16 h.dstRank && below 16 h.srcRank && below 8 h.status && below 8 h.queue && below 32 h.msg && below 32 h.nextFrag

/-- The widths of a CTRL wagon's fields (09 Table 09-2). -/
def Ctrl.wf (k : Ctrl) : Bool := below 10 k.ackSeq && below 12 k.reqCredit && below 12 k.respCredit && below 12 k.mailCredit

/-- The operation of a DETOUR train (09 Table 09-5): WRITE data has the length its head gives; atomic codes are 4 to 17. -/
def Inner.wf : Inner → Bool
  | .read h => h.wf
  | .write h data _ => h.wf && data.length == h.length
  | .atomic op h => below 8 op && h.wf

/-- A yard message (10 Table 10-6). -/
def YardMsg.wf (m : YardMsg) : Bool :=
  below 16 m.srcRank && below 8 m.queue && below 16 m.seg && below 11 m.owner && below 10 m.chunk && below 6 m.slot

/-- The figures of one millisecond (13 Table 13-7): one per channel. -/
def Measured.wf (p : Measured) : Bool := p.channelPower.length == 4 && p.channelMilliJ.length == 4

/-- A region has four sensors (15 R351). -/
def RegionReading.wf (r : RegionReading) : Bool := r.temps.length == 4

/-- A region has 16 cells and eight reef steps (13 R325, 18 R396). -/
def RegionBoot.wf (r : RegionBoot) : Bool := below 16 r.failedCells && r.mv.length == 8

/-- A channel has four rails (13 R310). -/
def Averages.wf (a : Averages) : Bool := a.window.length == 4 && a.sustained.length == 4

/-- A READ fits the wire, and its errors lie in the address map. -/
def ReadReq.wf (h : ReadReq) : Bool := h.toReqHead.wf && h.faults.all MemFault.wf

/-- A well-formed command. -/
def Instr.wf : Instr → Bool
  | .matmul w _ faults => w.wf && faults.all MemFault.wf
  | .sum w _ => w.wf
  | .maxabs w _ => w.wf
  | .topk w _ => w.wf
  | .refetchDone w _ => w.wf
  | .crowsnestCheck _ wrong => wrong.all (fun e => e.1 < 1024)
  | .add w => w.wf
  | .sub w => w.wf
  | .mul w => w.wf
  | .fma w => w.wf
  | .axpby w => w.wf
  | .min w => w.wf
  | .max w => w.wf
  | .abs w => w.wf
  | .neg w => w.wf
  | .div w => w.wf
  | .sqrt w => w.wf
  | .ldexp w => w.wf
  | .clamp w => w.wf
  | .exp w => w.wf
  | .log w => w.wf
  | .rsqrt w => w.wf
  | .tanh w => w.wf
  | .sigmoid w => w.wf
  | .gelu w => w.wf
  | .sin w => w.wf
  | .cos w => w.wf
  | .lt w => w.wf
  | .le w => w.wf
  | .eq w => w.wf
  | .ne w => w.wf
  | .select w => w.wf
  | .gather w => w.wf
  | .scatterAdd w => w.wf
  | .scanSum w => w.wf
  | .scanXsum w => w.wf
  | .scanMax w => w.wf
  | .discRev w => w.wf
  | .sort w => w.wf
  | .convert w => w.wf
  | .scalegen w => w.wf
  | .raw w => w.wf
  | .uniform w => w.wf
  | .normal w => w.wf
  | .bernoulli w => w.wf
  | .dropout w => w.wf
  | .adamw w => w.wf
  | .lion w => w.wf
  | .sgdm w => w.wf
  | .redSum w => w.wf
  | .redSumsq w => w.wf
  | .redMax w => w.wf
  | .redMin w => w.wf
  | .redMaxabs w => w.wf
  | .copy w ahead faults => w.wf && ahead.all (below 40) && faults.all MemFault.wf
  | .compress w ahead faults => w.wf && ahead.all (below 40) && faults.all MemFault.wf
  | .decompress w ahead faults => w.wf && ahead.all (below 40) && faults.all MemFault.wf
  | .narrowE4m3 w ahead faults => w.wf && ahead.all (below 40) && faults.all MemFault.wf
  | .widenE4m3 w ahead faults => w.wf && ahead.all (below 40) && faults.all MemFault.wf
  | .demandPoint w _ faults => w.wf && faults.all MemFault.wf
  | .worldEnd w => w.wf
  | .worldReset w => w.wf
  | .record w => w.wf
  | .advance w => w.wf
  | .send w => w.wf
  | .atomic w => w.wf
  | .fence w => w.wf
  | .signalAdd w => w.wf
  | .signalWait w => w.wf
  | .leg w => w.wf
  | .loop w => w.wf
  | .endloop w => w.wf
  | .mark w => w.wf
  | .nop w => w.wf
  | .commit w => w.wf
  | .verdict _ layer occ => below 16 layer && below 32 occ
  | .contributeStart w => w.wf
  | .contributeAdd w => w.wf
  | .contributeFinal w => w.wf
  | .contributeOnly w => w.wf
  | .deliver w => w.wf
  | .publish w => w.wf
  | .await w => w.wf
  | .post _ _ => true
  | .legBoundary _ => true
  | .signalDeadlock _ => true
  | .signalStall _ => true
  | .ttLoad via _ addr => via.wf && below 64 addr
  | .loadEnd _ => true
  | .start via _ => via.wf
  | .resume via _ => via.wf
  | .holdRequest via _ => via.wf
  | .standby via _ => via.wf
  | .wake via _ => via.wf
  | .release via _ => via.wf
  | .reset via _ => via.wf
  | .powerOff via _ => via.wf
  | .powerOn via _ => via.wf
  | .clearSafe via => via.wf
  | .begin via => via.wf
  | .txnCommit via => via.wf
  | .rollback via => via.wf
  | .commitCount => true
  | .txnTimeout via => via.wf
  | .dbStart _ => true
  | .dbResume _ => true
  | .dbHoldRequest _ => true
  | .dbTtLoad _ => true
  | .dbNop _ => true
  | .dbTail _ value => below 64 value
  | .evtConsumed _ value => below 64 value
  | .eventNotify _ => true
  | .chMboxGo _ => true
  | .modMboxGo _ => true
  | .layerState via _ offset value => via.wf && below 32 offset && pieceWf value
  | .attestNonce via _ offset value => via.wf && below 32 offset && pieceWf value
  | .fwPending via offset value => via.wf && below 32 offset && pieceWf value
  | .floorCert via offset value => via.wf && below 32 offset && pieceWf value
  | .ownerKey via offset value => via.wf && below 32 offset && pieceWf value
  | .ownerTransfer via offset value => via.wf && below 32 offset && pieceWf value
  | .tenantSlot via _ value => via.wf && pieceWf value
  | .configModule via offset value => via.wf && below 32 offset && pieceWf value
  | .configChannel via _ offset value => via.wf && below 32 offset && pieceWf value
  | .depotSize via _ value => via.wf && pieceWf value
  | .farEnable via _ value => via.wf && pieceWf value
  | .farTrained _ link => link.all (fun l => farLinkWf l.1 && below 64 l.2)
  | .farTierDown _ => true
  | .linkEnable via _ _ value => via.wf && pieceWf value
  | .linkUp _ _ h => h.wf
  | .portFailed _ _ => true
  | .powerAllowance via value => via.wf && pieceWf value
  | .entryWrite via index subIx offset value => via.wf && below 16 index && below 8 subIx && below 32 offset && pieceWf value
  | .managementDatagram _ _ => true
  | .openSession _ setup _ => below 32 setup
  | .response _ setup _ => below 32 setup
  | .setupTimeout number => below 32 number
  | .sessionClosed number => below 32 number
  | .read _ _ h => h.wf
  | .write _ _ h data _ => h.wf && (data.length == h.length)
  | .atomicAdd64 _ _ h => h.wf
  | .atomicUmin64 _ _ h => h.wf
  | .atomicUmax64 _ _ h => h.wf
  | .atomicSmin64 _ _ h => h.wf
  | .atomicSmax64 _ _ h => h.wf
  | .atomicSwap64 _ _ h => h.wf
  | .atomicCas64 _ _ h => h.wf
  | .atomicAdd32 _ _ h => h.wf
  | .atomicUmin32 _ _ h => h.wf
  | .atomicUmax32 _ _ h => h.wf
  | .atomicSmin32 _ _ h => h.wf
  | .atomicSmax32 _ _ h => h.wf
  | .atomicSwap32 _ _ h => h.wf
  | .atomicCas32 _ _ h => h.wf
  | .roundTimeout _ addr round => below 48 addr && below 16 round
  | .readData _ _ h data _ => h.wf && (data.length == h.length)
  | .writeAck _ _ h => h.wf
  | .atomicResult _ _ h => h.wf
  | .mail _ _ h _ _ => h.wf
  | .mailAck _ _ h => h.wf
  | .detour _ _ h inner => h.wf && inner.wf
  | .forward _ _ lane op h _ _ => (lane == 1 || lane == 2) && below 8 op && h.wf
  | .hello _ _ h => h.wf
  | .helloTransmit _ _ => true
  | .ctrl _ _ k => k.wf
  | .failedWagon _ _ lseq => below 10 lseq
  | .portDown _ _ _ => true
  | .creditReturn _ _ => true
  | .mailTimeout _ _ => true
  | .mailRetry _ _ => true
  | .partnerTimeout _ _ _ => true
  | .discardedFrame _ _ => true
  | .neighbourSolicitation _ target => target.length == 16
  | .leaf _ m => m.wf
  | .pair _ m => m.wf
  | .quad _ m => m.wf
  | .root _ m => m.wf
  | .yardCopy _ m => m.wf
  | .spread _ m => m.wf
  | .credit _ m => m.wf
  | .yardCredit _ => true
  | .nodeEvaluation _ seg owner chunk level pos => below 16 seg && below 11 owner && below 10 chunk && below 8 level && below 16 pos
  | .deadline _ seg owner chunk m => below 16 seg && below 11 owner && below 10 chunk && below 16 m
  | .yardTimeout _ => true
  | .hostRead _ addr len faults => below 48 addr && decide (len ≤ 4096) && faults.all MemFault.wf
  | .hostWrite _ addr data => below 48 addr && decide (data.length ≤ 4096)
  | .recall _ hostAddr => below 64 hostAddr
  | .flitReplay _ => true
  | .sliceUp _ link => farLinkWf link
  | .hostLinkDown _ => true
  | .hostTimeout _ => true
  | .shedNAssert => true
  | .shedNRelease => true
  | .inputRange _ => true
  | .inputRangeEnd _ => true
  | .inputLoss _ => true
  | .moduleResetN => true
  | .powerShare power => power.wf
  | .sustainedLimit _ easedOf16 amps => decide (easedOf16 ≤ 16) && amps.length == 4
  | .easingRise _ a => a.wf
  | .easingFall _ a => a.wf
  | .marginMonitor _ _ _ => true
  | .upshiftRamp _ => true
  | .voltageCheck _ mv => mv.length == 24
  | .frequencyChange _ => true
  | .droop _ _ mvBelow _ => below 16 mvBelow
  | .cellFailed _ _ _ cause => below 16 cause
  | .regionLost _ _ cause => decide (cause < 3)
  | .converterFault _ _ => true
  | .rampGrant _ _ => true
  | .regionOn _ _ => true
  | .rampRelease _ _ => true
  | .rampDenied _ _ _ => true
  | .rampWait _ _ => true
  | .thermalForecast _ readings => (readings.length == 24 && readings.all RegionReading.wf)
  | .sensorCleared _ _ _ => true
  | .thermalTrip _ _ _ _ => true
  | .coolantPoll first second third => [first, second, third].all (fun o => o.all (fun e => below 48 e.1 && below 24 e.2))
  | .coolantLoss => true
  | .inletHigh => true
  | .thermalPowerOff _ _ _ _ => true
  | .controlUncorrectable _ structureNo cluster => decide (structureNo < 7) && decide (cluster < 384)
  | .comparatorTrip _ comparator die => below 16 comparator && decide (die < 2)
  | .rootPllLockLoss _ => true
  | .watchdogExpiry _ => true
  | .comparatorTest _ failed => failed.all (fun f => below 16 f.1 && decide (f.2 < 2))
  | .resetDone _ => true
  | .patrolScrub _ addr _ => below 48 addr
  | .refclkLost => true
  | .refclkRestored => true
  | .alignTimeout => true
  | .powerUp => true
  | .stationMasterReady => true
  | .rootLock _ => true
  | .gddr7Training _ _ _ => true
  | .regionGroup _ _ results => (results.length == 6 && results.all RegionBoot.wf)
  | .channelBooted _ failed => failed.all (fun f => below 16 f.1 && decide (f.2 < 2))
  | .bootWait _ => true
  | .joulesPerToken => true
  | .lifetimeService => true
  | .hostCompletion _ id _ _ => below 32 id
  | .dynamicAddressAssignment addr _ => below 7 addr

end Sys2Proof
end

