-- ==== Sys2Proof/Tests/Slice0.lean ====
section
/-! SUPPORT. Tests: for every statement with hypotheses, a state and operands that meet them all; an ill-formed command for each check of
WellFormed.lean; and results worked by hand or taken from the manual's tables and worked examples. -/

namespace Sys2Proof.Tests

open Sys2Proof.Machine

-- Many small kernel evaluations follow: one after the other they need less memory than side by side.
set_option Elab.async false

/-! ### Helpers -/

/-- A powered module: the station master is ready, the module NORMAL, the count at 5,000,000,000. -/
def lit : State :=
  { State.reset with count := 5000000000, counting := true, m := { Module.reset with sm := .ready, st := .normal } }

/-- A RUNNING channel with every region on. -/
def running : Chan :=
  { Chan.reset with
    ctl := { Ctl.reset with st := .running }
    sup := { Supply.reset with regions := Supply.reset.regions.map (fun r => { r with st := .on }) } }

/-- The powered module with channel 0 as given. -/
def world (x : Chan) : State := lit.setCh 0 x

/-- Channel 0, cluster 0. -/
def w0 : At := ⟨0, 0, []⟩

/-- A word from its fields: the place of the lowest bit, and the value. -/
def fieldsOf (fs : List (Nat × Nat)) : Nat := fs.foldr (fun e a => a + e.2 * 2 ^ e.1) 0

/-- A car from its fields. -/
def carOf (fs : List (Nat × Nat)) : Car := BitVec.ofNat 128 (fieldsOf fs)

/-- A car as it waits in a queue. -/
def queued (c : Car) : QCar :=
  { car := c, pos := 0, wait := none, dst := none, iters := [], span := none, inst := 0, ordinal := 0 }

/-- The channel with cluster 0 as given. -/
def withCl (x : Chan) (cl : Cluster) : Chan := { x with run := { x.run with clusters := [(0, cl)] } }

/-- A car alone at the head of a queue of cluster 0 of a RUNNING channel. -/
def atHead (q : Nat) (c : Car) : State := world (withCl running { Cluster.fresh with queues := [(q, [queued c])] })

/-- A vector car: D, S1 and S2 at bytes 2^15, 2^16 and 2^17 of tender, one register long. -/
def vcar (opc func : Nat) : Car := carOf [(124, 2), (89, opc), (85, func), (69, 1024), (53, 2048), (37, 4096), (9, 1)]

/-! ### Witnesses: vector and tile cars -/

/-- A RUNNING channel whose tender of cluster 0 holds `v` in `n` bytes at offset `a`. -/
def poke (x : Chan) (a n v : Nat) : Chan := { x with mem := x.mem.write (tenderAt 0 a) (bytesOfNat n v) }

/-- A car at the head of a queue, with a setting record at offset 0 of tender. -/
def withRec (q : Nat) (c : Car) (rec : Nat) : State :=
  world (poke (withCl running { Cluster.fresh with queues := [(q, [queued c])] }) 0 32 rec)

/-- The vector car of an operation stands ready with a record. -/
def vecAt (opc func rec : Nat) : Prop :=
  (withRec 4 (vcar opc func) rec).vecReady w0 opc func (queued (vcar opc func)) (vecRecOf rec (vcar opc func) none)

theorem witness_elementwise_cars : ∀ row ∈ elementwiseRows, vecAt row.2.1 row.2.2.1 0 := by
  simp only [vecAt, State.vecReady, State.vecHead]
  decide +kernel

/-- Both destinations of the storing operation. -/
theorem witness_vecStore : (∃ ws : List W32, ws.length = vecN (vcar 1 0) (vecRecOf 0 (vcar 1 0) none)) ∧ Car.dr (vcar 1 0) = false ∧
    Car.dr (carOf [(124, 2), (89, 1), (69, 3), (9, 1), (8, 1)]) = true :=
  ⟨⟨List.replicate _ 0, List.length_replicate⟩, by decide +kernel, by decide +kernel⟩

theorem witness_gather_scatter : vecAt 4 0 (fieldsOf [(72, 5)]) ∧ vecAt 4 1 (fieldsOf [(72, 5)]) := by
  simp only [vecAt, State.vecReady, State.vecHead]
  decide +kernel

theorem witness_scans : ∀ f ∈ [0, 1, 2, 3], vecAt 5 f (fieldsOf [(176, 64)]) := by
  simp only [vecAt, State.vecReady, State.vecHead]
  decide +kernel

theorem witness_sort : vecAt 6 0 (fieldsOf [(57, 63)]) ∧ vecAt 6 0 (fieldsOf [(176, 8192), (71, 1), (70, 1), (69, 1), (57, 63)]) := by
  simp only [vecAt, State.vecReady, State.vecHead]
  decide +kernel

theorem witness_scalegen : vecAt 7 1 (fieldsOf [(120, 4)]) ∧ Gauge.ofCode 4 = some .q4f := by
  simp only [vecAt, State.vecReady, State.vecHead]
  decide +kernel

theorem witness_fills : (∀ row ∈ fillRows, vecAt 8 row.2.1 0) ∧ vecAt 8 0 0 := by
  simp only [vecAt, State.vecReady, State.vecHead]
  decide +kernel

theorem witness_optimisers : ∀ f ∈ [0, 1, 2], vecAt 9 f (fieldsOf [(176, 64)]) := by
  simp only [vecAt, State.vecReady, State.vecHead]
  decide +kernel

theorem witness_reductions : ∀ row ∈ reduceRows, vecAt 10 row.2.1 0 := by
  simp only [vecAt, State.vecReady, State.vecHead]
  decide +kernel

/-- A vector car with COUNT 0 beside a post still to be made. -/
def badVec : State :=
  let x := withCl running { Cluster.fresh with queues := [(4, [queued (carOf [(124, 2), (89, 1)])])] }
  world { x with run := { x.run with posts := [{ id := 0, cl := 20, sig := 1 }] } }

theorem witness_invalid_vector_car :
    let e := queued (carOf [(124, 2), (89, 1)])
    let r := vecRecOf 0 e.car none
    badVec.vecHead w0 e r ∧
    vecInvalid (badVec.seen w0).mem (badVec.seen w0).run.ticketStep e.car r e (badVec.seen w0) w0.cl.val = some 1 ∧
    ((badVec.ahead w0).carInvalid w0.ch w0.cl.val e.car e.pos 1 |>.ch w0.ch).quiet = false := by
  simp only [State.vecHead]
  decide +kernel

/-- A tile car of one 32 × 32 block: A, B and C at bytes 2^15, 2^16 and 2^17 of tender. -/
def tcar (op chain zs : Nat) : Car :=
  carOf [(124, 1), (90, op), (88, chain), (72, 1024), (56, if op = 0 then 2048 else 0), (40, 4096), (28, 1), (7, 31), (2, 31), (1, zs)]

/-- The tile car stands ready in a state with its record and its included blocks. -/
def tileAt (s : State) (op : Nat) (c : Car) (rec : Nat) (blocks : List Nat) : Prop :=
  s.tileReady w0 0 op [] (queued c) (tileRecOf rec (Car.op c) none) blocks

theorem witness_matmul : tileAt (withRec 0 (tcar 0 0 0) 0) 0 (tcar 0 0 0) 0 [0] ∧ tileAt (withRec 0 (tcar 0 1 0) 0) 0 (tcar 0 1 0) 0 [0] ∧
    speculates running (tcar 0 0 0) (tileRecOf 0 0 none) = false ∧ Car.ends (tcar 0 0 0) = true ∧ Car.ends (tcar 0 1 0) = false := by
  simp only [tileAt, State.tileReady]
  decide +kernel

theorem witness_reduce : ∀ op ∈ [1, 2, 3], tileAt (withRec 0 (tcar op 0 0) 0) op (tcar op 0 0) 0 [0] := by
  simp only [tileAt, State.tileReady]
  decide +kernel

/-! ### Witnesses: speculation, the read point and the watch -/

/-- An image whose only consist is cluster 0's, of `n` cars at 0x1000 of region 0, with two legs and three iterations. -/
def imageOf (n : Nat) : Image :=
  { (default : Image) with consists := [(0, (0x1000, n))], legCount := 2, iterations := 3, regionMask := 1, rankCount := 1 }

/-- A RUNNING channel with a consist of these cars. -/
def onTrack (cs : List Car) : Chan :=
  { running with
    run := { running.run with image := some (imageOf cs.length), loadResult := 0, activeAt := 4000000000, progressAt := 1000000000 }
    mem := running.mem.write 0x1000 (cs.flatMap (fun c => bytesOfNat 16 c.toNat)) }

/-- The speculating MATMUL: ZS and a map at byte 2^13 of tender, block 0 true and predicted zero, or predicted non-zero. -/
def specAt (predicted : Nat) : State :=
  let x := poke (poke (poke (withCl running { Cluster.fresh with queues := [(0, [queued (tcar 0 0 1)])] }) 0 32
    (fieldsOf [(28, 1), (80, 256)])) 8704 1 1) 8192 1 predicted
  world { x with watch := { x.watch with zeroSkipNow := true } }

theorem witness_misprediction : ∀ p ∈ [0, 1],
    (tileAt (specAt p) 0 (tcar 0 0 1) (fieldsOf [(28, 1), (80, 256)]) [0] ∧
      speculates ((specAt p).seen w0) (tcar 0 0 1) (tileRecOf (fieldsOf [(28, 1), (80, 256)]) 0 none) = true ∧
      missedBlocks ((specAt p).seen w0).mem 0 (tileRecOf (fieldsOf [(28, 1), (80, 256)]) 0 none) 1 = if p = 0 then [0] else []) := by
  simp only [tileAt, State.tileReady]
  decide +kernel

/-- A descriptor that copies 64 bytes from 0x4000 to 0x8000 of region 0. -/
def copyDesc : Nat := fieldsOf [(464, 0x4000), (416, 0x8000), (384, 63)]

/-- With and without an occurrence, in mismatch or not. -/
theorem witness_crows_nest : ∀ occ ∈ [none, some 0], ∀ bad ∈ [false, true],
    let q : Check := { ids := [], layer := 0, occ := occ, pass := 0, sampled := 0, checker := 4, acc := []
                       ref := if bad then [(0, one32)] else [], limit := [], cells := [0, 1], free := [1] }
    let s := world { running with watch := { running.watch with checks := [q] } }
    (s.ch 0).watch.checks = q :: [] ∧ (s.ch 0).run.stops = [] ∧
    crowMismatch (Tab.get 0 q.acc 0) (Tab.get 0 q.ref 0) (Tab.get 0 q.limit 0) = bad := by decide +kernel

/-- A signal car: FUNC, its signal and its amount. -/
def sigCar (func sig amount : Nat) : Car := carOf [(124, 4), (91, func), (79, sig), (67, amount)]

theorem witness_signal_cars : ∀ p ∈ [(0, 7, 1), (0, 300, 4095), (1, 7, 1)],
    let c := sigCar p.1 p.2.1 p.2.2
    (world (onTrack [c])).carReady w0 c ∧ Car.cls c = 4 ∧
    signalInvalid (((world (onTrack [c])).ahead w0).cluster 0 0) c = none ∧ (p.1 = 1 →
      ((world (onTrack [c])).seen w0).waitMet 0 (((world (onTrack [c])).waits w0 c).1.raise 7 1).2 = false) := by
  simp only [State.carReady, State.pointAt]
  decide +kernel

/-- A WAIT whose signal already counts 1. -/
theorem witness_wait_met :
    let x := onTrack [sigCar 1 300 1]
    let s := world { x with run := { x.run with sigs := [(300, 1)] } }
    s.carReady w0 (sigCar 1 300 1) ∧ (s.seen w0).waitMet 0 ((s.waits w0 (sigCar 1 300 1)).1.raise 300 1).2 = true := by
  simp only [State.carReady, State.pointAt]
  decide +kernel

/-- A control car: FUNC and bits 90 to 67. -/
def ctlCar (func v : Nat) : Car := carOf [(124, 6), (91, func), (67, v)]

theorem witness_control_cars : ∀ p ∈ [(0, 0), (0, 2 ^ 18), (1, 5), (4, 0)],
    (world (onTrack [ctlCar p.1 p.2])).pointAt w0 (ctlCar p.1 p.2) ∧ Car.cls (ctlCar p.1 p.2) = 6 := by
  simp only [State.pointAt]
  decide +kernel

/-- ENDLOOP with its loop to be read again, and for the last time. -/
theorem witness_endloop : ∀ n ∈ [0, 2],
    let f : LoopFrame := { body := 0, last := 2, iter := n }
    let s := world (withCl (onTrack [ctlCar 2 0]) { Cluster.fresh with loops := [f] })
    s.pointAt w0 (ctlCar 2 0) ∧ ((s.ahead w0).cluster 0 0).loops = [f] ∧ (f.iter < f.last ↔ n = 0) := by
  simp only [State.pointAt]
  decide +kernel

/-- A MARK of layer 1 with the shared signals 256 to 300, then a COMMIT of occurrence 5. -/
def markCars : List Car := [carOf [(124, 6), (91, 3), (79, 1), (67, 256), (55, 300)], carOf [(124, 7), (63, 5)]]

theorem witness_mark :
    let s := world (onTrack markCars)
    let c := markCars.getD 0 0
    s.pointAt w0 c ∧ Car.cls c = 6 ∧ Car.func c = 3 ∧
    commitAhead (s.seen w0) 0 (((s.seen w0).consist 0).2 - 0) 1 = some 1 ∧ (s.seen w0).watch.occ? 1 5 = none ∧
    (s.seen w0).watch.occs.length < 64 := by
  simp only [State.pointAt]
  decide +kernel

/-- The span of layer 1, occurrence 5, in its first pass. -/
def span5 : OpenSpan :=
  { ref := { layer := 1, occ := 5, pass := 0, rung := 0, moved := [] }, markPos := 0, sigLo := 256, sigHi := 300, ordinal := 0, loops := []
    targets := [] }

/-- Its occurrence, with these reports. -/
def occ5 (parts : Option Nat) (reports : List Report) : Occ :=
  { layer := 1, occ := 5, pass := 0, rung := 0, startRung := 0, parts := parts, reports := reports, counts := {}, contribs := []
    maxExp := none, causeC := false, suspect := false, mismatched := [], toldT := false, moved := [], sigLo := 256
    sigHi := 300, saved := [], savedLocal := [] }

/-- The machine at the COMMIT, with or without a car of the span still to complete. -/
def atCommit (busy : Bool) : State :=
  let x := withCl (onTrack markCars) { Cluster.fresh with pos := 1, span := some span5 }
  world { x with
    watch := { x.watch with occs := [occ5 none []] }
    run := { x.run with posts := if busy then [{ id := 0, cl := 0, sig := 256 }] else [] } }

theorem witness_commit : ∀ busy ∈ [false, true],
    let s := atCommit busy
    let c := markCars.getD 1 0
    let cl := (s.ahead w0).cluster 0 0
    s.carReady w0 c ∧ Car.cls c = 7 ∧ cl.span = some span5 ∧ (s.seen w0).watch.occ? 1 5 = some (occ5 none []) ∧
    watchInvalid cl c (some (occ5 none [])) ((s.seen w0).reportsDue span5) = none ∧ cl.replays = [] ∧ cl.commits = [] ∧
    (s.waits w0 c).1.spanDone 0 (s.ch 0).run.posts span5 = !busy := by
  simp only [State.carReady, State.pointAt]
  decide +kernel

/-- An occurrence with its one report in, changed by `f`, on a RUNNING channel whose layer 1 has the ceiling 4 and telltales
(05 Table 05-2). -/
def decided5 (f : Occ → Occ) : State :=
  let x := onTrack markCars
  world { x with
    run := { x.run with image := some { imageOf 2 with layers := [(1, fieldsOf [(10, 4), (7, 1)])] } }
    watch := { x.watch with occs := [f (occ5 (some 0) [{ cl := 0, car := markCars.getD 1 0, span := span5 }])] } }

/-- A contribution with one code more than the layer's limit of none (05 Table 05-4). -/
def telling : Contrib := { cl := 0, inst := 0, grad := false, sum := 0, codes := 1, gauge := 5, rawGauge := 5 }

/-- Each row of Table 05-5: what the pass has found, and whether it has cause T. -/
theorem witness_verdict : ∀ p ∈ [((fun (o : Occ) => o), false), ((fun o => { o with suspect := true }), false),
      ((fun o => { o with counts := { sat := 1 } }), false), ((fun o => { o with counts := { sat := 1 }, rung := 4 }), false),
      ((fun o => { o with causeC := true }), false), ((fun o => { o with causeC := true, rung := 4 }), false),
      ((fun o => { o with contribs := [telling] }), true), ((fun o => { o with contribs := [telling], rung := 4 }), true),
      ((fun o => { o with contribs := [telling], toldT := true }), true)],
    let x := (decided5 p.1).ch 0
    let o := p.1 (occ5 (some 0) [{ cl := 0, car := markCars.getD 1 0, span := span5 }])
    x.watch.occ? 1 5 = some o ∧ o.ready x.watch = true ∧ x.ctl.st = .running ∧ x.run.stops = [] ∧ recCeil (x.layerRec 1) = 4 ∧
    decide ((telltales x o).1 ≠ 0) = p.2 ∧ x.ctl.logNext < 2 ^ 32 := by decide +kernel

theorem witness_post : ∀ sig ∈ [0, 255, 256],
    let p : PendPost := { id := 3, cl := 0, sig := sig }
    let x := { running with run := { running.run with posts := [p] } }
    x.ctl.st = .running ∧ x.run.stops = [] ∧ x.run.posts[0]? = some p ∧ x.postReady p.id = true := by decide +kernel

/-- The channel at the boundary after leg `leg` of iteration `iter`, asked to hold or not. -/
def atBoundary (leg iter : Nat) (asked : Bool) : Chan :=
  let x := withCl (onTrack [ctlCar 0 0]) { Cluster.fresh with pos := 1, inst := 1 }
  { x with run := { x.run with leg := leg, iteration := iter, holdRequested := asked } }

theorem witness_leg_boundary : ∀ p ∈ [(0, 0, false), (0, 0, true), (1, 0, false), (1, 2, false)],
    let x := atBoundary p.1 p.2.1 p.2.2
    x.run.image = some (imageOf 1) ∧ x.legDone = true ∧ x.yard.divergenceHold = false ∧ x.yard.diverged = [] := by decide +kernel

/-- The same with DIVERGENCE_HOLD set and a divergence of a delivered segment. -/
theorem witness_divergence :
    let x := { atBoundary 0 0 false with yard := { running.yard with divergenceHold := true, diverged := [(0, [])], delivered := [0] } }
    x.run.image = some (imageOf 1) ∧ x.legDone = true ∧ x.yard.divergenceHold = true ∧
    x.yard.diverged.any (fun e => x.yard.delivered.contains e.1) = true := by decide +kernel

theorem witness_run_end :
    let x := atBoundary 1 2 false
    x.legDone = true ∧ x.run.leg + 1 = (imageOf 1).legCount ∧ (imageOf 1).iterations ≠ 0 ∧ (imageOf 1).iterations < 2 ^ 32 ∧
    x.run.iteration + 1 = (imageOf 1).iterations ∧ x.yard.diverged = [] := by decide +kernel

/-- A channel whose only consist waits for a signal that nothing gives. -/
def still : Chan := onTrack [sigCar 1 7 1]

theorem witness_standing_still :
    still.ctl.st = .running ∧ still.run.stops = [] ∧ still.quiet = true ∧ still.yardIdle = true ∧ still.legDone = false ∧
    still.run.activeAt + 1024 ≤ lit.count ∧ still.run.stallLimit ≠ 0 ∧ still.run.progressAt + still.run.stallLimit ≤ lit.count ∧
    lit.counting = true ∧ ¬ lit.count < still.run.activeAt + 1024 ∧ lit.count < lit.count + 1024 := by decide +kernel

/-! ### Witnesses: the shunters -/

/-- A descriptor in MODE `mode` of 64 bytes from byte 2^15 to byte 2^16 of the tender of cluster 0. -/
def descOf (mode : Nat) : Nat :=
  fieldsOf [(464, tenderAt 0 32768), (416, tenderAt 0 65536), (384, 63), (354, mode)]

/-- A MOVE car of descriptor 0. -/
def mcar : Car := carOf [(124, 3)]

/-- The MOVE as it waits, without or with a destination wait. -/
def mq (dst : Option (Nat × W16)) : QCar := { queued mcar with dst := dst }

/-- A MOVE at the head of the shunter's queue of cluster 0; one 32-byte chunk stands at its source. -/
def moveAt (mode : Nat) (dst : Option (Nat × W16)) : State :=
  let x := withCl running { Cluster.fresh with queues := [(5, [mq dst])] }
  let x := { x with run := { x.run with image := some { imageOf 0 with tableAddr := 0x2000, descCount := 1 } } }
  world { x with mem := (x.mem.write 0x2000 (bytesOfNat 64 (descOf mode))).write (tenderAt 0 32768) (bytesOfNat 4 0x01020304) }

theorem witness_move_ready : ∀ mode ∈ [0, 1, 2, 3, 4],
    (moveAt mode none).moveReady w0 (mq none) (descOf mode) ∧ dMode (descOf mode) = mode ∧ doorbellOf (dDst (descOf mode)) = none ∧
    dKib (descOf mode) = 0 ∧
    (((moveAt mode none).ahead w0).cluster 0 0).moves = [] := by
  simp only [State.moveReady]
  decide +kernel

theorem witness_move_at_hand : ∀ mode ∈ [0, 1, 2, 3, 4],
    ((moveAt mode none).ahead w0).moveAtHand w0 ((moveAt mode none).newMove w0 (mq none) (descOf mode)) := by
  simp only [State.moveAtHand]
  decide +kernel

theorem witness_waiting_move : ∀ mode ∈ [0, 1, 2, 3, 4], (moveAt mode (some (300, 1))).moveReady w0 (mq (some (300, 1))) (descOf mode) := by
  simp only [State.moveReady]
  decide +kernel

/-- The copy as an active move, its destination wait satisfied. -/
def activeCopy : Move := { q := mq (some (300, 0)), id := 4, desc := descOf 0, blocks := [], staged := [], started := false, demandAt := 0 }

/-- The machine with an active move. -/
def withMove (m : Move) : State :=
  let x := withCl running { Cluster.fresh with moves := [m] }
  world { x with run := { x.run with image := some { imageOf 0 with pages := [fieldsOf [(16, 0xf0000000000), (3, 1)],
    fieldsOf [(16, 0x48000000000), (3, 1), (2, 1)]] } } }

theorem witness_demand_point :
    let s := withMove activeCopy
    let x := s.ch 0
    x.ctl.st = .running ∧ (x.sup.region 0).st = .on ∧ x.run.stops = [] ∧ (x.run.cluster 0).moves[0]? = some activeCopy ∧
    activeCopy.started = false ∧ activeCopy.staged = [] ∧ x.waitMet 0 activeCopy.q.dst = true ∧
    doorbellOf (dDst activeCopy.desc) = none ∧ s.moveAtHand w0 activeCopy ∧ ((x.run.cluster 0).moves.map (·.id)).Nodup := by
  simp only [State.moveAtHand]
  decide +kernel

theorem witness_copy : dMode (descOf 0) = 0 ∧ dRow (descOf 0) = 0 ∧ dNzEn (descOf 0) = false ∧ ownMemory (dSrc (descOf 0)) = true ∧
    ownMemory (dSrc (descOf 0) + dLen (descOf 0) - 1) = true ∧ dLen (descOf 0) = 64 := by decide +kernel

/-- A refetch of the speculating MATMUL whose MOVE had the copy's descriptor with NZ_EN. -/
theorem witness_refetch :
    let d := descOf 0
    let f : Refetch := { q := queued (tcar 0 0 1), blocks := [0], id := 7, staged := [] }
    let x := poke (poke (withCl running { Cluster.fresh with refetch := [(0, some f)], lastNz := [(8192, some (d, 0))] }) 0 32
      (fieldsOf [(28, 1), (80, 256)])) 8704 1 1
    let s := world x
    let r := tileRecOf (x.mem.nat (tenderAt 0 (Car.setAddr f.q.car)) 32) (Car.op f.q.car) (x.substOf f.q)
    let m := f.move (d, 0)
    x.ctl.st = .running ∧ (x.sup.region 0).st = .on ∧ x.run.stops = [] ∧ dMode d = 0 ∧ Tab.get none (x.run.cluster 0).refetch 0 = some f ∧
    Tab.get none (x.run.cluster 0).lastNz r.nzAddr = some (d, 0) ∧ s.moveAtHand w0 m ∧
    (s.moved w0 m).poisonAmong (tileReads 0 f.q.car r (includedBlocks (s.moved w0 m) 0 r 0 (Car.kBlocks f.q.car))) = none := by
  simp only [State.moveAtHand]
  decide +kernel

/-- The same with no MOVE to repeat. -/
theorem witness_refetch_alone :
    let f : Refetch := { q := queued (tcar 0 0 1), blocks := [0], id := 7, staged := [] }
    let x := poke (poke (withCl running { Cluster.fresh with refetch := [(0, some f)] }) 0 32 (fieldsOf [(28, 1), (80, 256)])) 8704 1 1
    let r := tileRecOf (x.mem.nat (tenderAt 0 (Car.setAddr f.q.car)) 32) (Car.op f.q.car) (x.substOf f.q)
    x.ctl.st = .running ∧ (x.sup.region 0).st = .on ∧ x.run.stops = [] ∧ Tab.get none (x.run.cluster 0).refetch 0 = some f ∧
    Tab.get none (x.run.cluster 0).lastNz r.nzAddr = none ∧
    x.mem.poisonAmong (tileReads 0 f.q.car r (includedBlocks x.mem 0 r 0 (Car.kBlocks f.q.car))) = none := by
  decide +kernel

/-- A MOVE of the 32 bytes at byte 2^15 of tender to a doorbell. -/
def ringMove (kind : Nat) : Move :=
  { q := mq none, id := 4, desc := fieldsOf [(464, tenderAt 0 32768), (416, 0xf0000000000 + 32 * kind), (384, 31)], blocks := []
    staged := [], started := false, demandAt := 0 }

/-- A machine whose tender holds the doorbell record `v` and whose active move writes it. -/
def ringing (kind v : Nat) : State :=
  let s := withMove (ringMove kind)
  s.onMem 0 (fun m => m.write (tenderAt 0 32768) (bytesOfNat 32 v))

/-- A message of 32 bytes from the tender to rank 1; an ADD64 on J2's window with its result to board memory; a FENCE. -/
def ringRecs : List (Nat × Nat) :=
  [(0, fieldsOf [(208, tenderAt 0 131072), (176, 32), (96, 1)]),
   (1, fieldsOf [(208, 0x48000000000), (160, tenderAt 0 131072), (96, 5), (24, 0x10)]), (2, 1)]

theorem witness_doorbells : ∀ q ∈ ringRecs,
    (ringing q.1 q.2).ringReady w0 q.1 (ringMove q.1) (ringing q.1 q.2) (bytesOfNat 32 q.2) := by
  simp only [State.ringReady]
  intro q hq
  refine ⟨?_, ?_, ?_, Or.inl ?_, ?_⟩ <;> revert q <;> decide +kernel

theorem witness_send :
    let d := (ringRecs.getD 0 (0, 0)).2
    let a := ringing 0 d
    bits d 75 0 = 0 ∧ bits d 255 208 % 32 = 0 ∧ bits d 207 176 = 32 ∧ ownMemory (bits d 255 208) = true ∧
    ownMemory (bits d 255 208 + 31) = true ∧ a.firstBad 0 (bits d 255 208) 32 false = none ∧
    (a.ch 0).mem.poisonIn (bits d 255 208) 32 = none ∧ (a.ch 0).hub.msgsOut = [] := by
  decide +kernel

theorem witness_atomic :
    let d := (ringRecs.getD 1 (0, 0)).2
    let a := ringing 1 d
    atomicDescOk d = true ∧ a.carMay 0 (bits d 255 208) false = true ∧ a.carMay 0 (bits d 255 208) true = true ∧
    a.carMay 0 (bits d 207 160) true = true ∧ zoneOf (bits d 255 208) = .partner 2 ∧ (a.ch 0).hub.ops = [] ∧
    (a.ch 0).hub.fenceWaits = false := by decide +kernel

/-- A world operation car whose record stands at byte 2^15 of tender. -/
def wcar : Car := carOf [(124, 3), (91, 1), (55, 1024)]

/-- The image with one ring of two steps at 0x40000, its record at 0x3000, and 64 slots at 0x5000. -/
def worldImage : Image :=
  { imageOf 0 with hasWorld := true, slots := 64, rdescs := 1, rings := 1, slotBase := 0x5000, rdescBase := 0x4000, regionMask := 1 }

/-- The ring record: DEPTH 2, WORDS 3, one group, HEAD 1. -/
def ring0 : Nat := fieldsOf [(208, 0x40000), (160, 2), (144, 3), (128, 1), (64, 1), (32, 1)]

/-- The record of a world operation on the first group, and one word from word 2. -/
def wrec (op : Nat) : Nat := fieldsOf [(112, 8192), (96, 1), (80, 2), (64, 1), (0, op)]

/-- The operation at the head of the shunter's queue. -/
def worldAt (op : Nat) : State :=
  let x := withCl running { Cluster.fresh with queues := [(5, [queued wcar])] }
  world { x with
    run := { x.run with image := some worldImage }
    mem := (x.mem.write (tenderAt 0 32768) (bytesOfNat 32 (wrec op))).write (worldImage.ringAt 0) (bytesOfNat 32 ring0) }

theorem witness_world : ∀ op ∈ [1, 3, 4], (worldAt op).worldReady w0 op (queued wcar) worldImage (wrec op) ring0 := by
  simp only [State.worldReady]
  decide +kernel

theorem witness_world_end :
    let m := ((worldAt 1).ch 0).mem
    m.poisonAmong [(tenderAt 0 (woTaddr (wrec 1)), woGroups (wrec 1) * 256)] = none ∧
    ∀ n ∈ woSlots (wrec 1), m.poisonAmong [(worldImage.slotAt n, 32)] = none ∧ worldImage.slotAt n + 32 ≤ rgBase ring0 ∧
      worldImage.slotAt n + 32 ≤ tenderAt 0 (woTaddr (wrec 1)) := by decide +kernel

theorem witness_world_reset : (worldAt 2).worldReady w0 2 (queued wcar) worldImage (wrec 2) 0 ∧
    (((worldAt 2).ahead w0).resetSlots 0 worldImage (wrec 2) (woSlots (wrec 2))).2 = none := by
  simp only [State.worldReady]
  decide +kernel

/-- A slot of 64 state bytes at 0x8000 of region 0 with these flags, and the reset descriptor it names: a template at 0x6000 with one
parameter, an INT of 0 to 9 at offset 8. -/
def slotted (flags : Nat) : State :=
  let slot := bytesOfNat 32 (fieldsOf [(101, flags), (48, 0x8000), (16, 64)])
  let desc := bytesOfNat 32 (fieldsOf [(208, 0x6000), (176, 64), (168, 1), (112, 0x7000)])
  let param := bytesOfNat 16 (fieldsOf [(96, 9), (32, 8), (24, 3)])
  world { running with run := { running.run with image := some worldImage }
                       mem := ((running.mem.write 0x5000 slot).write 0x4000 desc).write 0x7000 param }

/-- A slot that is ACTIVE with RESET set is selected and passes its checks; an inactive one, and one without RESET, are not selected. -/
theorem witness_reset_slot : ∀ p ∈ [(6, true), (7, true), (4, false), (2, false)],
    let s := slotted p.1
    let v := (s.ch 0).mem.nat (worldImage.slotAt 0) 32
    (s.ch 0).mem.poisonAmong [(worldImage.slotAt 0, 32)] = none ∧ (slActive v && (slReset v || woForce 0)) = p.2 ∧
    s.resetCheck 0 worldImage 0 = none ∧ worldImage.slotAt 0 + 32 ≤ slAddr v := by decide +kernel

theorem witness_record : ((worldAt 3).ch 0).mem.poisonAmong [(tenderAt 0 (woTaddr (wrec 3)), 256)] = none ∧
    woGroups (wrec 3) * woCount (wrec 3) = 1 ∧ ((worldAt 3).ch 0).mem.marks = [] := by decide +kernel

/-- A slot of each kind that END meets. -/
theorem witness_end_slot : ∀ v ∈ [0, 2 ^ 103, 2 ^ 103 + 2 ^ 102, 2 ^ 103 + 2 ^ 128, 2 ^ 103 + 2 ^ 128 * 2], v < 2 ^ 256 := by
  decide +kernel

/-! ### Witnesses: the yard -/

/-- An image of a run of 8 ranks with one segment of 16 FP32 elements. -/
def yardImage : Image :=
  { imageOf 1 with
    rankCount := 8, hasYard := true, chunkKib := 1, statsSeg := 0xffffffff, backupMap := [0xffff, 0xffff]
    segs := [fieldsOf [(464, 0x10000), (416, 0x20000), (368, 0x30000), (320, 0x40000), (272, 0x50000), (200, 16)]] }

/-- A yard car of FUNC and AMODE on segment 0. -/
def ycar (func amode : Nat) : Car := carOf [(124, 5), (91, func), (89, amode)]

/-- A RUNNING channel of the run with these cars and this yard. -/
def yardAt (cs : List Car) (f : Yard → Yard) : State :=
  let x := onTrack cs
  world { x with run := { x.run with image := some { yardImage with consists := [(0, (0x1000, cs.length))] } }
                 yard := f { x.yard with rankCount := 8 } }

/-- The image of such a channel. -/
def yimg : Image := { yardImage with consists := [(0, (0x1000, 1))] }

theorem witness_contribute : ∀ a ∈ [0, 1, 2, 3],
    (yardAt [ycar 0 a] id).yardReady w0 0 a (ycar 0 a) yimg ∧ yimg.height = 3 ∧
    contributePoison ((yardAt [ycar 0 a] id).ch 0).mem (yimg.seg 0) true = none ∧
    contributePoison ((yardAt [ycar 0 a] id).ch 0).mem (yimg.seg 0) false = none := by
  simp only [State.yardReady, State.carReady, State.pointAt]
  decide +kernel

theorem witness_leaves : (0 : Nat) ∈ yimg.owners ∧ 0 ∈ yimg.chunks 0 ∧ chanOf 0 = leafCh (chanOf 0) (chanOf 0) ∧ yimg.chunkElems 0 0 = 2 := by
  decide +kernel

/-- The root sum of the one chunk of rank 0's slice. -/
def root0 : NodeVal := { seg := 0, owner := 0, chunk := 0, level := 3, pos := 0, vals := [one32, one32], slot := none }

theorem witness_deliver : ∀ whole ∈ [false, true],
    let s := yardAt [ycar 1 0] (fun y => { y with roots := if whole then [root0] else [] })
    s.yardReady w0 1 0 (ycar 1 0) yimg ∧ (s.ch 0).yard.cars = [] ∧
    (yimg.chunks 0).all (fun ch => ((s.ch 0).yard.roots.filter (fun u => u.seg == 0 && u.owner == 0)).any (fun u => u.chunk == ch)) = whole := by
  simp only [State.yardReady, State.carReady, State.pointAt]
  decide +kernel

theorem witness_publish :
    let s := yardAt [ycar 2 0] id
    s.yardReady w0 2 0 (ycar 2 0) yimg ∧ (s.ch 0).yard.cars = [] ∧ ownPoison (s.ch 0).mem yimg 0 = none ∧ yimg.leafRank 0 = 0 ∧
    yimg.modules = 2 ∧ ∀ ch ∈ yimg.chunks 0, ch ≠ statsChunk := by
  simp only [State.yardReady, State.carReady, State.pointAt]
  decide +kernel

/-- A backup rank publishes nothing. -/
theorem witness_publish_backup : ({ yimg with backupMap := [1, 0xffff] } : Image).leafRank 0 ≠ 0 := by decide +kernel

theorem witness_await : ∀ whole ∈ [false, true],
    let s := yardAt [ycar 3 0] (fun y => { y with slices := if whole then (List.range 8).map (fun o => (0, (o, 0))) else [] })
    s.yardReady w0 3 0 (ycar 3 0) yimg ∧ (s.ch 0).yard.cars = [] ∧ yimg.statsSeg ≠ 0 ∧
    yimg.owners.all (fun o => (yimg.chunks 0).all (fun ch => (s.ch 0).yard.written 0 o ch)) = whole := by
  simp only [State.yardReady, State.carReady, State.pointAt]
  decide +kernel

/-- A whole data message for rank 0's slice, and the credit it answers. -/
def ymsg (src owner : Nat) (n : Nat) : YardMsg :=
  { srcRank := src, queue := 0, seg := 0, owner := owner, chunk := 0, slot := 1, data := zeros n, poisoned := false }

/-- A yard that has issued the credit for a message of a kind. -/
def awaits (kind : Nat) (m : YardMsg) : State :=
  yardAt [ycar 3 0] (fun y => { y with
    issued := [{ peer := m.srcRank, kind := kind, seg := m.seg, owner := m.owner, chunk := m.chunk, slot := m.slot }], slots := [1] })

theorem witness_yard_messages : ∀ p ∈ [(1, 3, 0, 4), (2, 3, 0, 8), (3, 4, 0, 8), (4, 4, 0, 8), (5, 4, 4, 8), (6, 1, 1, 8)],
    let m := ymsg p.2.1 p.2.2.1 p.2.2.2
    (awaits p.1 m).yardComes 0 p.1 m yimg
      { peer := m.srcRank, kind := p.1, seg := 0, owner := m.owner, chunk := 0, slot := 1 } ∧
    ((awaits p.1 m).ch 0).yard.cars = [] ∧ ((awaits p.1 m).ch 0).watch.detMode = 0 ∧ m.chunk ≠ statsChunk ∧
    yimg.backupOf (yimg.leafMod (m.srcRank / 4)) = none ∧ (p.1 = 3 → m.owner = ((awaits p.1 m).ch 0).rank) := by
  simp only [State.yardComes]
  decide +kernel

theorem witness_copy_gauge : sgGC (yimg.seg 0) = .fp32 ∧ (ymsg 4 4 8).data.length = 4 * yimg.chunkElems 0 0 := by decide +kernel

theorem witness_credit : yimg.kindTo 0 4 4 = some 3 ∧ ((yardAt [ycar 3 0] id).ch 0).yard.outbox = [] ∧
    ((yardAt [ycar 3 0] id).ch 0).serves = true := by decide +kernel

/-- The level-1 node (1, 0) of rank 0's slice with both its inputs; and a level-3 node whose right child no primary rank stands below. -/
theorem witness_node :
    let v := fun (level pos : Nat) => ({ seg := 0, owner := 0, chunk := 0, level := level, pos := pos, vals := [one32, one32]
                                         slot := none } : NodeVal)
    let s := yardAt [ycar 3 0] (fun y => { y with vals := [v 0 0, v 0 1] })
    (s.ch 0).evaluates yimg 0 1 0 = true ∧ 1 < yimg.height ∧ chanOf (s.ch 0).rank = chanOf 0 ∧
    (s.ch 0).yard.val? 0 0 0 0 0 = some (v 0 0) ∧ (s.ch 0).yard.val? 0 0 0 0 1 = some (v 0 1) := by decide +kernel

/-- The same of a level-3 node in a run of four modules of which the last backs the first. -/
theorem witness_absent_child :
    let i : Image := { yimg with rankCount := 20, backupMap := [0xffff, 0xffff, 0xffff, 0, 1] }
    ((yardAt [ycar 3 0] id).ch 0).evaluates i 0 3 1 = true ∧ 3 < i.height ∧ i.present 2 2 = true ∧ i.present 2 3 = false := by
  decide +kernel

/-- A deadline at a count that has passed, with the backup's copy complete, or at the present count. -/
theorem witness_deadline : ∀ d ∈ [10, 5000000000],
    let q : QuadCopy :=
      { seg := 0, owner := 0, chunk := 0, leafMod := 1, fromMod := 2, data := zeros 8, used := false, doneAt := 0, slot := some 1 }
    let k : ChunkState := { (default : ChunkState) with seg := 0, owner := 0, chunk := 0, due := some d }
    let s := yardAt [ycar 3 0] (fun y => { y with quads := [q], chunks := [k] })
    let y := (s.ch 0).yard
    (s.ch 0).serves = true ∧ (y.chunk? 0 (s.ch 0).rank 0).bind (·.due) = some d ∧
    (∀ u ∈ y.quads, u.isOf 0 (s.ch 0).rank 0 1 = true → u.used = false) ∧ (s.ch 0).watch.detMode = 0 ∧ (s.count ≤ d ↔ d ≠ 10) ∧
    (d = 10 → (y.quads.filter (fun u => u.isOf 0 (s.ch 0).rank 0 1)).find? (fun u =>
      u.fromMod != 1 && decide (d < s.count ∧ u.doneAt < s.count)) = some q) := by decide +kernel

/-- A credit waits with 13 slots free, or with 12. -/
theorem witness_yard_credit : ∀ n ∈ [51, 52],
    let q : YardCredit := { peer := 1, kind := 1, seg := 0, owner := 1, chunk := 0, slot := 0 }
    let s := yardAt [ycar 3 0] (fun y => { y with toCredit := [q], slots := List.range n })
    let y := (s.ch 0).yard
    (s.ch 0).serves = true ∧ y.toCredit = [q] ∧ y.freeSlot = some n ∧ (12 < 64 - y.slots.length ↔ n = 51) ∧
    y.mayCredit (s.ch 0).rank q = true ∧ (s.ch 0).hub.yardRoom = true ∧ (s.ch 0).hub.msgsOut = [] := by decide +kernel

theorem witness_yard_timeout :
    let s := yardAt [ycar 3 0] (fun y => { y with timeout := 1000, progressAt := 4999999000, issued :=
      [{ peer := 1, kind := 1, seg := 0, owner := 1, chunk := 0, slot := 0 }] })
    let y := (s.ch 0).yard
    (s.ch 0).ctl.st = .running ∧ y.timeout ≠ 0 ∧ y.progressAt + y.timeout ≤ s.count ∧ y.awaited yimg ≠ [] := by decide +kernel

/-! ### Witnesses: the junction and the host -/

/-- A RUNNING channel with port J2 up, its port and its hub changed. -/
def linked (g : Port → Port) (f : Hub → Hub) : State :=
  (world { running with hub := f running.hub }).onPort 0 2 (fun q => g { q with linkState := 2, linkEnable := true })

/-- The head of a partner's operation on board memory, the first of its pair. -/
def reqAt (addr : Nat) : ReqHead := { addr := addr, seq := 0, length := 32, rank := 4, port := 1, epoch := 0 }

/-- An atomic on a word of board memory. -/
def ahead0 : AtomHead :=
  { addr := 0x1000000000, seq := 0, rank := 4, port := 1, epoch := 0, a := 5, b := 7, round := 0, members := 0 }

/-- The hub with a pair that expects `next` and has these operations waiting, and a round that holds its atomic. -/
def paired (next : Nat) (behind : List Behind) (held : List Held) (h : Hub) : Hub :=
  { h with peers := [{ rank := 4, port := 1, next := next, table := [], behind := behind }]
           rounds := if held = [] then [] else [{ addr := ahead0.addr, round := 3, members := 3, openedAt := 0, held := held }] }

/-- A member of round 3. -/
def member0 (op : Nat) : Held := { op := op, head := { ahead0 with round := 3, members := 3 }, arrival := 2 }

/-- A target that may be reached, and a doorbell, which may not. -/
theorem witness_partner_operations : ∀ p ∈ [(0x1000000000, true), (0xf0000000000, false)],
    let s := linked id id
    let h := reqAt p.1
    s.portOpen 0 2 ∧ seqCase ((s.ch 0).hub.peer h.rank h.port).next h.seq = 0 ∧ (s.ch 0).hub.flowing h.rank h.port ∧
    (s.partnerStatus 0 2 h.addr 32 true = 0 ↔ p.2 = true) ∧ (s.partnerStatus 0 2 h.addr 32 false = 0 ↔ p.2 = true) ∧
    ((s.ch 0).hub.arrivalPort h.rank h.port 2) = 2 ∧ (s.ch 0).mem.poisonList h.addr h.length = [] ∧
    s.detourOpen 0 2 { (default : MailHead) with dstRank := 0 } := by
  simp only [State.portOpen, State.detourOpen, Hub.flowing]
  decide +kernel

/-- An operation seen before, and one that comes too early. -/
theorem witness_partner_sequence : ∀ p ∈ [(1, 1), (0xffffffff, 2)],
    seqCase (((linked id (paired p.1 [] [])).ch 0).hub.peer 4 1).next 0 = p.2 := by decide +kernel

/-- Operations wait behind a held round, or one of the pair waits already. -/
theorem witness_partner_waits :
    (((linked id (paired 0 [] [member0 0x10])).ch 0).hub.behindRound (.read (reqAt 0x1000000000)) = true) ∧
    (((linked id (paired 0 [] [member0 0x10])).ch 0).hub.behindRound (.write (reqAt 0x1000000000) (zeros 32) []) = true) ∧
    (((linked id (paired 0 [{ inner := .read (reqAt 0), arrival := 2 }] [])).ch 0).hub.peer 4 1).behind ≠ [] := by decide +kernel

theorem witness_atomics : ∀ row ∈ atomicRows,
    let s := linked id id
    s.portOpen 0 2 ∧ seqCase ((s.ch 0).hub.peer 4 1).next 0 = 0 ∧ (s.ch 0).hub.flowing 4 1 ∧ (s.ch 0).watch.detMode = 0 ∧
    s.partnerStatus 0 2 ahead0.addr row.2.2.1 true = 0 ∧ (s.ch 0).hub.rounds = [] := by
  simp only [State.portOpen, Hub.flowing]
  decide +kernel

/-- A round of three that holds an atomic of another pair: the next of this pair is held, or is the last. -/
theorem witness_round : ∀ row ∈ atomicRows, ∀ n ∈ [1, 2],
    let y := { member0 row.2.1 with head := { (member0 row.2.1).head with rank := 5 } }
    let s := linked id (fun h => { paired 0 [] (List.replicate n y) h with peers := [] })
    (s.ch 0).watch.detMode = 0 ∧ (s.ch 0).hub.flowing 4 1 ∧
    (s.ch 0).hub.rounds.find? (fun r => r.addr == ahead0.addr && r.round == 3) =
      some { addr := ahead0.addr, round := 3, members := 3, openedAt := 0, held := List.replicate n y } ∧
    s.partnerStatus 0 (ptOf 2) ahead0.addr row.2.2.1 true = 0 := by
  simp only [Hub.flowing]
  decide +kernel

/-- A round that has been open for its timeout. -/
theorem witness_round_timeout : ∀ row ∈ atomicRows,
    let s := linked id (paired 0 [] [member0 row.2.1])
    let r : Round := { addr := ahead0.addr, round := 3, members := 3, openedAt := 0, held := [member0 row.2.1] }
    (s.ch 0).serves = true ∧ (s.ch 0).hub.rounds.find? (fun q => q.addr == r.addr && q.round == r.round) = some r ∧
    s.after r.openedAt (s.ch 0).hub.roundTimeout = true ∧ s.after s.count (s.ch 0).hub.roundTimeout = false ∧
    s.partnerStatus 0 (ptOf 2) ahead0.addr row.2.2.1 true = 0 ∧ (∀ e ∈ (s.ch 0).hub.peers, e.behind = []) := by
  decide +kernel

/-- One outstanding operation of port J2, and the response to it. -/
def outstanding (op : Nat) : PartnerOp :=
  { id := 9, port := 2, seq := 3, epoch := 1, op := op, addr := 0x48000000000, length := 32, data := [], poisoned := [], a := 0, b := 0
    round := 0, members := 0, dst := 0x1000000000, via := none, noPathAt := none }

/-- The response to it, with a status. -/
def response0 (status : Nat) : RespHead := { seq := 3, status := status, epoch := 1, rank := 4, result := 0, length := 32 }

/-- Responses that take, refuse, or cannot be replayed; with no car that asked, and for a READ with a move that did. -/
theorem witness_responses : ∀ op ∈ [1, 2, 0x10], ∀ n ∈ [0, 1, 4],
    let s := linked id (fun h => { h with ops := [outstanding op] })
    (s.ch 0).serves = true ∧ (s.ch 0).hub.ports[(2 : Pt)].linkState = 2 ∧ (s.ch 0).run.stops = [] ∧
    (s.ch 0).hub.overtook (outstanding op) = [] ∧ (s.ch 0).hub.answered 2 (response0 n) (· == op) = some (outstanding op) ∧
    (s.ch 0).run.ownerOf 9 = none ∧ refusing n = decide (n = 1) ∧ isAtomic op = decide (op = 0x10) ∧ (s.ch 0).ctl.st = .running := by
  decide +kernel

theorem witness_read_for_a_move :
    let m := { activeCopy with id := 9 }
    let x := withCl running { Cluster.fresh with moves := [m] }
    x.run.clusters = [(0, { Cluster.fresh with moves := [m] })] ∧ m.id = (outstanding 1).id ∧ m.started = false ∧
    x.run.ownerOf 9 = some 0 := by decide +kernel

/-- A queue at 0x1000000000 with four slots of 256 bytes, its completions at 0x1000001000, open to every rank, with signal 5. -/
def mailQueue : Nat := fieldsOf [(208, 0x1000000000), (176, 256), (160, 4), (112, 0x1000001000), (100, 5), (64, 2047), (63, 1)]

/-- A message of 32 bytes for it, due in leg 0 of iteration 0. -/
def mail0 : MailHead :=
  { dstRank := 0, srcRank := 4, queue := 1, hops := 8, dstLeg := 0, dstIter := 0, msg := 2, length := 32, fragFirst := 0, tag := 7 }

/-- A channel with that queue and these messages being received. -/
def mailed (known : List MsgIn) : State :=
  (world (onTrack [carOf [(124, 1)]])).onPort 0 2 (fun q => { q with linkState := 2 }) |>.onHub 0
    (fun h => { h with recvQueues := Tab.putAll 0 h.recvQueues 32 (bytesOfNat 32 mailQueue), msgsIn := known })

/-- A message that the queue accepts, one for a queue that is closed, and one in progress that has two of its three fragments. -/
theorem witness_mail :
    let known : MsgIn := { srcRank := 4, queue := 1, msg := 2, length := 768, tag := 7, nextFrag := 2 }
    let s := mailed []
    (s.ch 0).serves = true ∧ (s.ch 0).hub.ports[(2 : Pt)].linkState = 2 ∧ (s.ch 0).run.stops = [] ∧ mail0.dstRank = (s.ch 0).rank ∧
    (s.ch 0).yardQueue 1 = false ∧ (s.ch 0).mailStatus mail0 false = 0 ∧ (s.ch 0).hub.queueRec 1 = mailQueue ∧
    (s.ch 0).mailStatus { mail0 with queue := 2 } false = 8 ∧
    ((mailed [known]).ch 0).hub.msgsIn.find? (·.isOf { mail0 with length := 768 }) = some known ∧
    rqBase mailQueue + rqSlot mailQueue 2 * rqBytes mailQueue + 256 ≤ rqCpl mailQueue + 32 * rqSlot mailQueue 2 := by
  decide +kernel

/-- A message of 8 fragments sent by the machine. -/
def msg0 (status : Nat) : MsgOut :=
  { id := 4, src := 0x1000000000, head := { mail0 with dstRank := 4, srcRank := 0, length := 2048 }, epoch := 0, acked := 0, sent := 8
    progressAt := 0, status := status, statusAt := 0, triedAt := 0, ways := [], yard := none }

/-- An acknowledgement of a message of a car, or of the yard, and one of no message. -/
theorem witness_mail_ack : ∀ y ∈ [none, some (zeros 2048)], ∀ st ∈ [0, 6, 7, 8, 9, 1],
    let g := { msg0 0 with yard := y }
    let s := linked id (fun h => { h with msgsOut := [g] })
    let h : AckHead := { dstRank := 0, srcRank := 4, status := st, queue := 1, msg := 2, nextFrag := 8 }
    h.dstRank = (s.ch 0).rank ∧
    (s.ch 0).hub.msgsOut.find? (fun m => m.head.dstRank == h.srcRank && m.head.queue == h.queue && m.head.msg == h.msg) = some g ∧
    (s.ch 0).hub.msgsOut.find? (fun m => m.head.dstRank == h.srcRank && m.head.queue == h.queue && m.head.msg == 3) = none ∧
    (s.ch 0).hub.msgsOut.filter (fun n => n.id == g.id) = [g] ∧ g.frags = 8 ∧ (s.ch 0).yard.outbox = [] ∧
    (s.ch 0).mem.poisonIn g.src g.head.length = none ∧ (s.ch 0).ctl.st = .running := by
  decide +kernel

/-- A message that waits, of a car or of the yard, with no route to its rank; due, and not due. -/
theorem witness_mail_retries : ∀ y ∈ [none, some (zeros 2048)], ∀ st ∈ [0, 6, 9], ∀ n ∈ [0, 4999999999],
    let g := { msg0 st with yard := y, progressAt := n, statusAt := n }
    let s := linked id (fun h => { h with msgsOut := [g] })
    (s.ch 0).serves = true ∧ (s.ch 0).hub.msgsOut[0]? = some g ∧ ((s.ch 0).hub.msgsOut.map (·.id)).Nodup ∧
    (s.ch 0).hub.routePort 4 = none ∧ (s.ch 0).run.stops = [] ∧ (s.ch 0).ctl.st = .running ∧
    s.after (max g.progressAt g.triedAt) (s.ch 0).hub.mailTimeout = decide (n = 0) ∧
    s.after g.statusAt (s.ch 0).hub.mailRetry = decide (n = 0) ∧ s.after g.progressAt (s.ch 0).hub.partnerTimeout = decide (n = 0) ∧
    (s.ch 0).mem.poisonIn g.src g.head.length = none := by
  decide +kernel

/-- An operation without a path, since long ago or since just now. -/
theorem witness_operation_timeout : ∀ n ∈ [0, 4999999999],
    let o := { outstanding 2 with noPathAt := some n }
    let s := linked id (fun h => { h with ops := [o] })
    (s.ch 0).serves = true ∧ (s.ch 0).run.stops = [] ∧ (s.ch 0).hub.ops[0]? = some o ∧
    s.after n (s.ch 0).hub.partnerTimeout = decide (n = 0) := by decide +kernel

/-- A port in training or up, with no HELLO yet and with one; a wagon fails for the first time, or again; credits freed and none. -/
theorem witness_links : ∀ n ∈ [1, 2], ∀ g ∈ [none, some (default : Hello)], ∀ b ∈ [false, true],
    let s := linked (fun q => { q with linkState := n, hello := g, nakSent := b, failLseq := 7, failRun := if b then 8 else 0
                                       freed := [if b then 4 else 0, 0, 0], helloSent := if b then 0 else 4999999999 }) id
    let q := (s.ch 0).hub.ports[(2 : Pt)]
    (s.ch 0).serves = true ∧ q.linkState = n ∧ q.mode = 0 ∧ q.hello = g ∧ q.nakSent = b ∧ 8 % 1024 ≠ q.failLseq ∧ 7 % 1024 = q.failLseq ∧
    q.freed.any (· != 0) = b ∧ s.after q.helloSent (2 ^ 16) = b ∧ (8 ≤ q.failRun ↔ b = true) ∧ (s.ch 0).hub.ops = [] ∧
    (s.ch 0).hub.msgsOut = [] ∧ (s.ch 0).run.stops = [] ∧ (s.ch 0).mem.marks = [] ∧
    ({ (default : Hello) with resetGen := 1 } : Hello).resetGen ≠ (default : Hello).resetGen := by
  decide +kernel

/-- A train for another rank: with no route, with one over a junction port, and over an Ethernet port with a poisoned granule. -/
theorem witness_forward : ∀ p ∈ [(0, 0), (0xa, 0), (0xa, 1)],
    let s := linked (fun q => { q with mode := p.2 }) (fun h => { h with routeTable := Tab.putAll 0 h.routeTable 16 [BitVec.ofNat 8 p.1] })
    (s.ch 0).serves = true ∧ (s.ch 0).hub.ports[(2 : Pt)].linkState = 2 ∧ (4 : Nat) ≠ (s.ch 0).rank ∧
    (s.ch 0).hub.routePort 4 = (if p.1 = 0 then none else some 2) ∧ (s.ch 0).hub.ports[(2 : Pt)].mode = p.2 ∧ mail0.hops ≠ 0 := by
  decide +kernel

theorem witness_ethernet_and_far :
    (let s := linked (fun q => { q with mode := 1 }) id
     (s.ch 0).serves = true ∧ (s.ch 0).hub.ports[(2 : Pt)].mode ≠ 0 ∧ (s.ch 0).hub.ports[(2 : Pt)].linkState = 2 ∧ s.m.sm = .ready) ∧
    ∀ n ∈ [0, 1, 2], let s := world { running with mem := { running.mem with farStatus := n } }
      (s.ch 0).serves = true ∧ (s.ch 0).mem.farStatus = n ∧ (s.ch 0).ctl.st = .running ∧ (s.ch 0).mem.farOps = [] := by
  decide +kernel

/-- A channel whose slice is up, with the command `cmd` at DB_HEAD. -/
def belled (st : ChState) (cmd : Nat) : State :=
  let x := onTrack [carOf [(124, 1)]]
  world { x with ctl := { x.ctl with st := st }
                 run := { x.run with holdStatus := 0x101, resumable := true }
                 host := { x.host with link := 0x11, dbTail := 1, dbRing := Tab.putAll 0 x.host.dbRing 0 [BitVec.ofNat 8 cmd] } }

theorem witness_doorbell_entries :
    ∀ q ∈ [(ChState.ready, 1), (.hold, 1), (.hold, 2), (.ready, 2), (.running, 3), (.ready, 3), (.ready, 4), (.hold, 4), (.running, 5),
      (.running, 0), (.running, 6)],
    let s := belled q.1 q.2
    let h := (s.ch 0).host
    h.link ≠ 0 ∧ (s.ch 0).ctl.st ≠ .off ∧ h.dbHead ≠ h.dbTail ∧ h.startWait = none ∧ h.goTail = none ∧ s.m.secState ≠ 1 ∧
    h.evt.msiAddr = 0 ∧ entryClean h.entry = true ∧ field h.entry 0 1 = q.2 ∧ (s.ch 0).ctl.st = q.1 ∧ (s.ch 0).startBeyond = false ∧
    (q.2 = 1 → s.mayStart 0 = decide (q.1 = .ready)) ∧ (q.2 = 2 → s.mayResume 0 = decide (q.1 = .hold)) ∧
    (q.2 = 4 → h.loadWait = none) ∧ (s.ch 0).mem.lines = [] := by
  decide +kernel

/-- An empty ring, and an entry with a reserved field that is not zero. -/
theorem witness_doorbell_others :
    (let s := (belled .ready 5).onHost 0 (fun h => { h with dbTail := 0 }); (s.ch 0).host.dbHead = (s.ch 0).host.dbTail) ∧
    (let s := (belled .ready 5).onHost 0 (fun h => { h with dbRing := Tab.putAll 0 h.dbRing 1 [1] })
     field (s.ch 0).host.entry 0 1 = 5 ∧ entryClean (s.ch 0).host.entry = false) := by
  decide +kernel

theorem witness_host_page : ∀ lost ∈ [0, 1], ∀ busy ∈ [0, 1],
    let s := (belled .ready 5).onHost 0 (fun h =>
      { h with evt := { h.evt with ring := zeros 16 ++ [4, 0], lost := lost, pend := [default] }, mbox := { h.mbox with state := busy } })
    let s := s.onM (fun m => { m with evt := { m.evt with ring := zeros 16 ++ [4, 0], pend := [default] }, mbox := { m.mbox with state := busy } })
    s.carries 0 = true ∧ s.serviceOnly = false ∧ (s.ch 0).host.evt.lost = lost ∧ (s.ch 0).host.mbox.state = busy ∧
    (s.ch 0).ctl.st ≠ .off ∧ (s.ch 0).host.startWait = none ∧ (s.ch 0).host.dbHead ≠ (s.ch 0).host.dbTail ∧
    ((s.ch 0).host.evt.prod + 2 ^ 32 - 0 % 2 ^ 32) % 2 ^ 32 < field (s.ch 0).host.evt.ring 16 2 ∧ s.m.mbox.state = busy ∧
    s.hears .modMbox = true ∧ (s.ch 0).host.evt.pend ≠ [] ∧ (s.ch 0).host.evt.msiAddr = 0 ∧ s.lowSlice = some 0 ∧ s.m.evt.pend ≠ [] ∧
    s.m.secState = 0 ∧ (world running).carries 0 = false := by
  decide +kernel

/-- A read of entry 0 in a mailbox, with the doorbell ring read up; and a WAKE that waits. -/
theorem witness_mailboxes :
    let s := (belled .ready 5).onHost 0 (fun h => { h with dbTail := 0, mbox := { h.mbox with req := zeros 256 } })
    let u := s.onHost 0 (fun h => { h with mbox := { h.mbox with rsp := [], state := 1 }, goTail := none })
    let v := s.onM (fun m => { m with mbox := { m.mbox with rsp := [], state := 1 } })
    let q := requestOf (fitBytes 256 (s.ch 0).host.mbox.req)
    let r := u.request (.chMbox 0) q
    let z := v.request .modMbox (requestOf (fitBytes 256 s.m.mbox.req))
    s.carries 0 = true ∧ (s.ch 0).host.dbHead = (s.ch 0).host.dbTail ∧ (r.2.2.ch 0).host.mbox.state = 1 ∧
    r.2.2.wakeWaits q r.1 = none ∧ z.2.2.m.mbox.state = 1 ∧
    z.2.2.wakeWaits (requestOf (fitBytes 256 s.m.mbox.req)) z.1 = none ∧
    (belled .standby 5).wakeWaits (writeReq (baseP 0) 0xf 0 [2]) 0 = some 0 := by
  decide +kernel

/-- One outstanding access to host memory, of the car or access `id`. -/
def hostOp (read : Bool) (kind id : Nat) : HostOp :=
  { tag := 3, id := id, read := read, kind := kind, addr := 0x100000000000, length := 64, data := [], poisoned := false
    dst := 0x100000000000, sent := true, sentAt := 0 }

theorem witness_host_memory :
    let s := belled .running 5
    s.carries 0 = true ∧ s.serviceOnly = false ∧ s.pageOk 0x1000000000 64 = false ∧ (s.ch 0).inboundAll 0x1000000000 64 false = true ∧
    (s.ch 0).inboundAll 0x1000000000 64 true = true ∧ (s.ch 0).inboundAll 0xf0000000000 64 true = false ∧
    (s.ch 0).inboundAll 0xf0000000000 64 false = false ∧ s.pageOk 0xf0000000000 64 = false ∧ (world running).carries 0 = false := by
  decide +kernel

/-- A write, an uncached, a shared and an owning read outstanding; a dirty line of host memory. -/
theorem witness_host_operations : ∀ p ∈ [(false, 0), (true, 0), (true, 1), (true, 2)], ∀ i ∈ [0, 9],
    let line : DepotLine :=
      { host := true, addr := 0x100000001000, sectors := [{ no := 0, dirty := true, bytes := zeros 256, poisoned := false }] }
    let o := hostOp p.1 p.2 i
    let s := ((belled .running 5).onHost 0 (fun h => { h with ops := [o] })).onMem 0 (fun m => { m with lines := [line] })
    (s.ch 0).host.link ≠ 0 ∧ (s.ch 0).run.stops = [] ∧ (s.ch 0).host.ops.all (fun q => q.sent) = true ∧
    (s.ch 0).host.ops.find? (fun q => q.tag == o.tag) = some o ∧ (s.ch 0).run.ownerOf i = none ∧
    (s.ch 0).mem.sector? true o.addr = none ∧ (s.ch 0).mem.sector? true o.dst = none ∧
    o.sentAt + (s.ch 0).host.timeout ≤ s.count ∧ (s.ch 0).ctl.st = .running := by
  decide +kernel

/-- A channel whose slice may come up, and one that is OFF. -/
theorem witness_slice : running.host.link = 0 ∧ running.sliceMay = true ∧ (State.reset.ch 0).sliceMay = false := by decide +kernel

/-! ### Witnesses: a load -/

/-- The bytes of an image of one leg for region 0 and one rank that are not 0, but for its digest, at the bottom of board memory: the
header, the section table (consists at 256, page map at 6656, 6,912 bytes), the directory entry and the LEG car of cluster 0, and one
readable page that is not written (06 Table 06-1, 06-2, R143; 08 R202). -/
def imageBytes : Tab Byte :=
  [(0x1000000000, 0x31), (0x1000000001, 0x54), (0x1000000002, 0x54), (0x1000000003, 0x56), (0x1000000005, 0x1), (0x1000000008,
   0x1), (0x100000000c, 0x46), (0x100000000d, 0x12), (0x1000000010, 0x1), (0x1000000014, 0x1), (0x1000000018, 0x1),
   (0x1000000029, 0x1b), (0x1000000030, 0x3), (0x1000000041, 0x1), (0x1000000048, 0x10), (0x1000000049, 0x18), (0x100000004e,
   0x1), (0x1000000051, 0x1a), (0x1000000058, 0x20), (0x100000005e, 0x6), (0x1000000101, 0x18), (0x1000000108, 0x1),
   (0x100000190f, 0x60), (0x1000001a00, 0x1), (0x1000001a10, 0x4), (0x1000001a16, 0x10), (0x1000001a1c, 0x10)]

/-- The image without its digest. -/
def plain : Staging := { mem := { Memory.reset with bytes := imageBytes }, base := boardBase }

/-- The digest of the image with its digest field taken as zero. -/
def imageDigest : List Byte := shake256 (plain.bytes 0 192 ++ zeros 64 ++ plain.bytes 256 (6912 - 256))

/-- Memory with the image, its digest put in place, and a DEPOT_SIZE. -/
def imageMem (d : Nat) : Memory :=
  { Memory.reset with depotSize := d, bytes := imageBytes ++ (List.range 64).map (fun i => (boardBase + 192 + i, imageDigest.getD i 0)) }

/-- A channel in READY or HOLD that loads it. -/
def loads (d : Nat) (st : ChState) : Chan :=
  { running with ctl := { running.ctl with st := st }, mem := imageMem d, run := { running.run with loading := some boardBase } }

/-- The sizes of the depot. -/
def depots : List Nat := [0, 2]

/-- The image as staged. -/
def staged (d : Nat) : Staging := { mem := imageMem d, base := boardBase }

theorem staged_format : ∀ d ∈ depots, (staged d).formatOk = true := by decide +kernel

theorem staged_length : ∀ d ∈ depots, (staged d).length = 6912 ∧ (staged d).signed = false := by decide +kernel

theorem staged_sections : ∀ d ∈ depots, (staged d).sectionsOk = true := by decide +kernel

theorem staged_map : ∀ d ∈ depots, (staged d).mapOk 0 = true ∧ (staged d).stagedOk = true ∧ (staged d).watchOk = true ∧ (staged d).extentOk = true ∧
    (staged d).yardOk (staged d).image = true ∧ (staged d).consts = some [] ∧ (staged d).worldRecords = some [] ∧ (staged d).sec? 5 = none := by decide +kernel

theorem unlisted (t : Tab Byte) (k : Nat) (h : ∀ p ∈ t, p.1 ≠ k) : Tab.get Memory.unwritten t k = 0 := by
  induction t with
  | nil => rfl
  | cons p t ih =>
    simp only [Tab.get, h p (by simp), if_false]
    exact ih (fun q hq => h q (by simp [hq]))

theorem image_gap (d : Nat) : ∀ p ∈ (imageMem d).bytes, p.1 < boardBase + 272 ∨ boardBase + 6400 ≤ p.1 := by
  intro p hp
  simp only [imageMem, List.mem_append, List.mem_map, List.mem_range] at hp
  obtain h | ⟨i, hi, rfl⟩ := hp
  · revert p
    decide +kernel
  · left
    simp only
    omega

theorem staged_gap (d o n : Nat) (h : 272 ≤ o) (hn : o + n ≤ 6400) : (staged d).nat o n = 0 := by
  have h0 : ∀ k, (staged d).mem.read ((staged d).base + o) k = zeros k ∨ n < k := by
    intro k
    by_cases hk : k ≤ n
    · left
      simp only [Memory.read, Tab.getAll, zeros]
      refine List.ext_getElem (by simp) (fun i h1 h2 => ?_)
      simp only [List.getElem_map, List.getElem_range, List.getElem_replicate]
      refine unlisted _ _ (fun p hp => ?_)
      have := image_gap d p hp
      simp only [staged, List.length_map, List.length_range] at *
      omega
    · right
      omega
  have hz : ∀ n, natOfBytes (zeros n) = 0 := by
    intro n
    induction n with
    | zero => rfl
    | succ n ih => simpa [zeros, List.replicate_succ, natOfBytes] using ih
  rcases h0 n with h1 | h1
  · simp only [Staging.nat, Memory.nat, h1, hz]
  · omega

theorem staged_first : ∀ d ∈ depots,
    (staged d).consistOk ⟨256, 6160, 1⟩ (fun l => l != 0 && ((staged d).layers.map recLayer).contains l) 0 = true ∧
    (staged d).sec? 1 = some ⟨256, 6160, 1⟩ := by decide +kernel

theorem staged_consists (d : Nat) (hd : d ∈ depots) : (staged d).consistsOk = true := by
  simp only [Staging.consistsOk, (staged_first d hd).2, Bool.and_eq_true, List.all_eq_true, List.mem_range]
  refine ⟨by decide, fun k hk => ?_⟩
  by_cases h0 : k = 0
  · subst h0
    exact (staged_first d hd).1
  · simp only [Staging.consistOk]
    rw [staged_gap d _ 8 (by omega) (by omega), staged_gap d _ 4 (by omega) (by omega), staged_gap d _ 4 (by omega) (by omega)]
    rfl

theorem listed (t : Tab Byte) (k : Nat) (v : Byte) (h : ∃ p ∈ t, p.1 = k) (hv : ∀ p ∈ t, p.1 = k → p.2 = v) :
    Tab.get Memory.unwritten t k = v := by
  induction t with
  | nil => simp at h
  | cons p t ih =>
    by_cases hp : p.1 = k
    · simp only [Tab.get, hp, if_true]
      exact hv p (by simp) hp
    · simp only [Tab.get, hp, if_false]
      obtain ⟨q, hq, hk⟩ := h
      refine ih ⟨q, ?_, hk⟩ (fun q hq => hv q (by simp [hq]))
      rcases List.mem_cons.1 hq with rfl | hq
      · exact absurd hk hp
      · exact hq

theorem staged_outside (d o n : Nat) (h : o + n ≤ 192 ∨ 256 ≤ o) :
    (staged d).bytes o n = plain.bytes o n := by
  have hap : ∀ (t u : Tab Byte) (k : Nat), (∀ p ∈ u, p.1 ≠ k) → Tab.get Memory.unwritten (t ++ u) k = Tab.get Memory.unwritten t k := by
    intro t u k hu
    induction t with
    | nil => exact unlisted u k hu
    | cons p t ih => simp only [List.cons_append, Tab.get, ih]
  simp only [Staging.bytes, Memory.read, Tab.getAll, staged, plain, imageMem]
  refine List.map_congr_left (fun i hi => hap _ _ _ (fun p hp => ?_))
  have := List.mem_range.1 hi
  obtain ⟨j, hj, rfl⟩ := List.mem_map.1 hp
  have := List.mem_range.1 hj
  simp only
  omega

theorem staged_digest (d : Nat) (hd : d ∈ depots) : (staged d).digest = (staged d).bytes 192 64 := by
  have h1 : (staged d).digest = imageDigest := by
    rw [Staging.digest, (staged_length d hd).1, staged_outside d 0 192 (by omega), staged_outside d 256 (6912 - 256) (by omega), imageDigest]
  have hlen : imageDigest.length = 64 := shake256_length _
  rw [h1]
  refine List.ext_getElem (by simp [Staging.bytes, Memory.read, Tab.getAll, hlen]) (fun i hi hj => ?_)
  simp only [Staging.bytes, Memory.read, Tab.getAll, List.getElem_map, List.getElem_range]
  refine (listed _ _ _ ⟨(boardBase + 192 + i, imageDigest.getD i 0), ?_, by simp [staged]⟩ (fun p hp hk => ?_)).symm
  · simp only [staged, imageMem, List.mem_append, List.mem_map, List.mem_range]
    exact Or.inr ⟨i, by omega, rfl⟩
  · simp only [staged, imageMem, List.mem_append, List.mem_map, List.mem_range] at hp hk
    rcases hp with hp | ⟨j, hj, rfl⟩
    · have : ∀ p ∈ imageBytes, p.1 < boardBase + 192 ∨ boardBase + 256 ≤ p.1 := by decide +kernel
      have := this p hp
      omega
    · obtain rfl : j = i := by simpa using hk
      simp only [List.getD_eq_getElem?_getD, List.getElem?_eq_getElem hi, Option.getD_some]

theorem staged_depot : ∀ d ∈ depots,
    (staged d).depotOk (staged d).image ((staged d).writes (staged d).image (imageMem d)) = decide (d = 0) ∧
    (staged d).image.hasWorld = false := by
  decide +kernel

theorem staged_checks (d : Nat) (hd : d ∈ depots) (st : ChState) : (world (loads d st)).loadCheck 0 (staged d) = 0 := by
  have hch : (world (loads d st)).ch 0 = loads d st := rfl
  have hr : ∀ d ∈ depots, allRegions.any (fun r => (staged d).mask.testBit r && (running.sup.region r).st == .lost) = false ∧
      (staged d).mask ≠ 0 ∧ (staged d).ranks = 1 := by decide +kernel
  have hs : (loads d st).sup = running.sup := rfl
  have hf : (if (loads d st).mem.farStatus = 2 then (loads d st).mem.farCapacity else 0) = 0 := rfl
  simp only [State.loadCheck, hch, staged_format d hd, staged_digest d hd, staged_sections d hd, staged_consists d hd,
    staged_map d hd, staged_length d hd, hs, hr d hd, hf]
  simp [loads, running, Chan.reset, Ctl.reset, Yard.reset, Chan.rank]

/-- An image that passes every check of a load, on a channel in READY or HOLD: without a depot; and with a DEPOT_SIZE of 512 MiB, which
is more than the image's one region. -/
theorem witness_load : ∀ st ∈ [ChState.ready, .hold], ∀ d ∈ depots,
    let s := world (loads d st)
    let g := staged d
    (s.ch 0).run.loading = some boardBase ∧ ((s.ch 0).ctl.st = .ready ∨ (s.ch 0).ctl.st = .hold) ∧ boardBase % 4096 = 0 ∧
    inBoard boardBase 256 = true ∧ (s.ch 0).mem = g.mem ∧ (s.ch 0).mem.marks = [] ∧ s.loadCheck 0 g = 0 ∧
    g.depotOk g.image (g.writes g.image g.mem) = decide (d = 0) ∧ (g.writes g.image g.mem).worldPoison g.image = none ∧
    (((s.placed 0 g g.image).onRun 0 (fun r => { r with image := some g.image })).worldOk 0 g.image) = true := by
  intro st hst d hd
  refine ⟨rfl, ?_, by decide, by decide, rfl, rfl, staged_checks d hd st, (staged_depot d hd).1, ?_, ?_⟩
  · rcases (by simpa using hst : st = .ready ∨ st = .hold) with rfl | rfl
    · exact Or.inl rfl
    · exact Or.inr rfl
  · simp [Memory.worldPoison, staged_depot d hd]
  · simp [State.worldOk, staged_depot d hd]

/-- An unaligned address, one outside board memory, and no image at an aligned one. -/
theorem witness_load_refused :
    (boardBase + 32) % 4096 ≠ 0 ∧ inBoard 0 256 = false ∧
    (world { loads 0 .ready with mem := Memory.reset }).loadCheck 0 { mem := Memory.reset, base := boardBase } ≠ 0 := by
  decide +kernel

/-! ### Witnesses: the run's commands, the dictionary and sessions -/

/-- A write of an entry is granted when it is heard, passes its checks, and the requester has no transaction. -/
theorem granted_of {s : State} {via : Via} {i sub o : Nat} {v : List Byte}
    (h : s.hears via = true ∧ (s.check via (writeReq i sub o v)).1 = 0 ∧ s.m.txn? via = none) : s.granted via i sub o v :=
  ⟨h.1, h.2.1, fun t ht => by rw [h.2.2] at ht; cases ht⟩

/-- Channel 0 in a state, with an image loaded, holding for HOLD_REQUEST. -/
def inState (st : ChState) : State :=
  let x := onTrack [carOf [(124, 1)]]
  world { x with ctl := { x.ctl with st := st }, run := { x.run with holdStatus := 0x101, resumable := true } }

theorem witness_launch : ∀ q ∈ [(ChState.ready, baseP 0, 3, [1]), (.hold, baseP 0, 3, [2]), (.running, baseP 0, 8, [1]),
      (.ready, baseP 0, 2, bytesOfNat 8 boardBase)],
    (inState q.1).granted (.chMbox 0) q.2.1 q.2.2.1 0 q.2.2.2 := by
  intro q hq
  refine granted_of ?_
  revert q
  decide +kernel

/-- A command is admitted when it is heard, its entry is a command that its sender may write, and its form is right. -/
theorem admitted_of {s : State} {via : Via} {i sub : Nat} {v : List Byte}
    (h : (s.hears via = true ∧ s.keeperBusy via i = false ∧ s.roleOf via ≠ 0 ∧ s.m.txn? via = none) ∧
      (match entry? i sub with
       | some e => s.mayWrite via i e && e.acc == .wo && e.cmd && e.formStatus s 0 v == 0
       | none => false) = true) : s.admitted via i sub v := by
  refine ⟨h.1.1, h.1.2.1, h.1.2.2.1, fun t ht => (by rw [h.1.2.2.2] at ht; cases ht), ?_⟩
  have h2 := h.2
  split at h2
  · rename_i e he
    simp only [Bool.and_eq_true, beq_iff_eq] at h2
    exact ⟨e, he, h2.1.1.1, h2.1.1.2, h2.1.2, h2.2⟩
  · cases h2

/-- START beyond the image's legs; START, RESUME and HOLD_REQUEST in another state. -/
theorem witness_launch_refused :
    (let s := (inState .ready).onRun 0 (fun r => { r with startLeg := 9 })
     s.admitted (.chMbox 0) (baseP 0) 3 [1] ∧ (s.ch 0).startBeyond = true ∧ s.m.secState ≠ 1) ∧
    ((inState .hold).admitted (.chMbox 0) (baseP 0) 3 [1] ∧ ((inState .hold).ch 0).startBeyond = false ∧
      ((inState .hold).ch 0).ctl.st ≠ .ready) ∧
    ((inState .ready).admitted (.chMbox 0) (baseP 0) 3 [2] ∧ ((inState .ready).ch 0).ctl.st ≠ .hold) ∧
    ((inState .ready).admitted (.chMbox 0) (baseP 0) 8 [1] ∧ ((inState .ready).ch 0).ctl.st ≠ .running) := by
  refine ⟨⟨admitted_of ?_, ?_⟩, ⟨admitted_of ?_, ?_⟩, ⟨admitted_of ?_, ?_⟩, ⟨admitted_of ?_, ?_⟩⟩ <;> decide +kernel

theorem witness_channel_commands : ∀ q ∈ [(ChState.ready, 1), (.standby, 2), (.hold, 3), (.running, 4), (.fault, 4), (.standby, 5),
      (.hold, 5), (.fault, 5), (.off, 6)],
    (inState q.1).granted .modMbox (baseP 0) 0xf 0 [q.2] := by
  intro q hq
  refine granted_of ?_
  revert q
  decide +kernel

/-- A module in SAFE whose sensors have read good for long. -/
def safe0 : State := { inState .hold with m := { (inState .hold).m with st := .safe, safeCause := 1, goodSince := some 5 } }

theorem witness_clear_safe : safe0.granted .modMbox 0x1002 0 0 [1] := by
  refine granted_of ?_
  decide +kernel

/-- The channel commands in another state, and CLEAR_SAFE out of SAFE. -/
theorem witness_commands_refused : (∀ q ∈ [(ChState.hold, 1), (.ready, 2), (.ready, 3), (.boot, 4), (.running, 5), (.ready, 6)],
      (inState q.1).admitted .modMbox (baseP 0) 0xf [BitVec.ofNat 8 q.2]) ∧
    (lit.admitted .modMbox 0x1002 0 [1] ∧ lit.mayClearSafe = false) := by
  refine ⟨fun q hq => admitted_of ?_, admitted_of ?_, ?_⟩ <;> (try revert q) <;> decide +kernel

/-- WAKE with every required region on, and with one that is off. -/
theorem witness_wake : ∀ st ∈ [RegionSt.on, .off],
    let s := (inState .standby).onRegion 0 0 (fun r => { r with st := st })
    s.granted .modMbox (baseP 0) 0xf 0 [2] ∧ ((s.ch 0).run.image.any (fun i => i.regionMask == 1)) = true ∧
    (((s.ch 0).sup.regions[(0 : Rg)]).st = .on ↔ st = .on) ∧ (s.ch 0).ctl.waking = [] ∧ s.m.pins.tripN = true := by
  intro st hst
  refine ⟨granted_of ?_, ?_⟩ <;> revert st <;> decide +kernel

/-- A transaction of the module mailbox, open since count 0, with one write that passes its checks. -/
def txn0 : Txn :=
  { via := .modMbox, tstate := 1, code := 0, entry := 0, index := 0, sub := 0
    staged := [{ index := baseB 0 + 0x10, sub := 0, offset := 0, value := [1] }], stagedNo := 1, count := 0, openedAt := 0 }

theorem witness_begin : lit.hears .modMbox = true ∧ (lit.check .modMbox (writeReq 0xf000 1 0 [1])).1 = 0 := by decide +kernel

theorem witness_transaction :
    let s := { inState .ready with m := { (inState .ready).m with txns := [txn0] } }
    s.m.txn? .modMbox = some txn0 ∧ txn0.tstate = 1 ∧ s.hears .modMbox = true ∧ (s.check .modMbox (writeReq 0xf000 3 0 [1])).1 = 0 ∧
    (s.check .modMbox (writeReq 0xf000 2 0 [1])).1 = 0 ∧ s.offending .modMbox txn0.staged = none ∧
    txn0.openedAt + 1187500000 ≤ s.count := by decide +kernel

/-- A due commit of one write, which still passes, or no longer does. -/
theorem witness_commit_count : ∀ q ∈ [(ChState.ready, true), (.off, false)],
    let p : PendCommit := { via := .modMbox, count := 65536, acceptedAt := 0, writes := txn0.staged }
    let s := { inState q.1 with m := { (inState q.1).m with commits := [p] } }
    s.m.commits = [p] ∧ p.count ≤ s.count ∧
    ((s.onM (fun m => { m with commits := [] })).offending p.via p.writes).isNone = q.2 := by decide +kernel

/-- A signed block of a type with a body of 16 zeros and one trailer of one byte: 97 bytes (17 Table 17-2). -/
def block (typ : Nat) : List Byte :=
  bytesOfNat 4 0x56545342 ++ bytesOfNat 4 (typ + 256) ++ bytesOfNat 8 5 ++ bytesOfNat 8 16 ++ zeros 56 ++ bytesOfNat 4 0x10001 ++ zeros 13

/-- The module with an owner key and a security state. -/
def owned (sec : Nat) : State := { inState .ready with m := { (inState .ready).m with ownerKey := [1], secState := sec } }

/-- A whole block is granted and taken as whole; whether its trailer verifies is a free value (log entry 23), and the statement says what
follows either way. -/
theorem witness_signed_blocks : ∀ q ∈ [(3, 0x8011, 0, 0), (1, 0x8013, 0, 0), (1, 0x8013, 0, 2), (1, 0x8013, 0, 1), (4, 0x8010, 0, 0), (2, 0x8015, 0, 0),
      (2, 0x8400, 7, 0)],
    (owned q.2.2.2).granted .modMbox q.2.1 q.2.2.1 0 (block q.1) ∧ blockPart q.1 [] 0 (block q.1) = .whole (block q.1) := by
  intro q hq
  refine ⟨granted_of ?_, ?_⟩ <;> revert q <;> decide +kernel

/-- A piece that leaves more to come, and one that begins no block. -/
theorem witness_block_pieces : ∀ q ∈ [(3, 0x8011, 0), (1, 0x8013, 0), (4, 0x8010, 0), (2, 0x8015, 0), (2, 0x8400, 7)],
    ((owned 0).granted .modMbox q.2.1 q.2.2 0 (block q.1 |>.take 90) ∧ blockPart q.1 [] 0 (block q.1 |>.take 90) = .more (block q.1 |>.take 90)) ∧
    ((owned 0).granted .modMbox q.2.1 q.2.2 0 (zeros 64) ∧ blockPart q.1 [] 0 (zeros 64) = .bad) := by
  intro q hq
  refine ⟨⟨granted_of ?_, ?_⟩, ⟨granted_of ?_, ?_⟩⟩ <;> revert q <;> decide +kernel

/-- A raw owner key: its last piece, an earlier one, one beyond its end and one that does not join. -/
theorem witness_owner_key :
    let s := { owned 2 with m := { (owned 2).m with partKey := zeros 1600 } }
    (s.granted .modMbox 0x8010 0 1600 (zeros 193) ∧ joinPiece s.m.partKey 1600 (zeros 193) = some (zeros 1793)) ∧
    (s.granted .modMbox 0x8010 0 0 (zeros 193) ∧ joinPiece s.m.partKey 0 (zeros 193) = some (zeros 193)) ∧
    s.granted .modMbox 0x8010 0 1601 (zeros 193) ∧
    (s.granted .modMbox 0x8010 0 1700 (zeros 93) ∧ joinPiece s.m.partKey 1700 (zeros 93) = none) := by
  refine ⟨⟨granted_of ?_, ?_⟩, ⟨granted_of ?_, ?_⟩, granted_of ?_, ⟨granted_of ?_, ?_⟩⟩ <;> decide +kernel

/-- What is no owner transfer: bytes that start no such block, and a block with one byte too many. -/
theorem witness_owner_refused : (owned 0).granted .modMbox 0x8010 0 0 (zeros 64) ∧ blockPart 4 [] 0 (zeros 64) = .bad ∧
    (owned 0).granted .modMbox 0x8010 0 0 (block 4 ++ [0]) ∧ blockPart 4 [] 0 (block 4 ++ [0]) = .bad ∧
    joinPiece [] 0 (block 4 ++ [0]) = some (block 4 ++ [0]) ∧ 64 ≤ (block 4 ++ [0]).length ∧
    field (block 4 ++ [0]) 0 4 = 0x56545342 ∧ sbType (block 4 ++ [0]) = 4 := by
  refine ⟨granted_of ?_, ?_, granted_of ?_, ?_⟩ <;> decide +kernel

theorem witness_settings : ∀ q ∈ [(baseB 0 + 0x30, 0, 16, zeros 32), (baseM 0 + 0x20, 1, 0, [1]),
      (baseM 0 + 0x20, 1, 0, [0]), (0x5020, 3, 0, [1]), (0x5020, 3, 0, [0]), (0x2001, 0, 0, bytesOfNat 4 4000), (baseK 0, 1, 0, [3]), (baseK 0, 1, 0, [255]),
      (0x8030, 0, 0, zeros 32), (baseK 0, 5, 0, zeros 32)],
    (inState .ready).granted .modMbox q.1 q.2.1 q.2.2.1 q.2.2.2 := by
  intro q hq
  refine granted_of ?_
  revert q
  decide +kernel

theorem witness_depot_size :
    let s := { inState .ready with chs := (inState .ready).chs.map (fun (x : Chan) => { x with run := { x.run with image := none } }) }
    s.granted .modMbox (baseM 0) 0 0 [2] := by
  refine granted_of ?_
  decide +kernel

/-- TENANT_SLOT of a channel that is OFF. -/
theorem witness_tenant_off : (inState .off).granted .modMbox (baseK 0) 1 0 [3] := by
  refine granted_of ?_
  decide +kernel

/-- An entry written at once, one that its row turns away, one staged, a WAKE that waits, one of no entry, and one that is not heard. -/
theorem witness_entry_write :
    (let s := inState .ready
     s.granted .modMbox 0x2001 0 0 (bytesOfNat 4 4000) ∧
      (entry? 0x2001 0).any (fun e => (e.set s .modMbox 0 (bytesOfNat 4 4000)).1 == 0) = true ∧
      s.granted .modMbox 0x8011 0 0 (zeros 64) ∧ (entry? 0x8011 0).any (fun e => (e.set s .modMbox 0 (zeros 64)).1 != 0) = true ∧
      (s.check .modMbox (writeReq 0x9999 0 0 [1])).1 ≠ 0 ∧ s.hears .modMbox = true) ∧
    (let s := { inState .ready with m := { (inState .ready).m with txns := [txn0] } }
     s.hears .modMbox = true ∧ (s.check .modMbox (writeReq (baseB 0 + 0x10) 0 0 [1])).1 = 0 ∧
      (entry? (baseB 0 + 0x10) 0).any (fun e => !e.cmd) = true ∧ s.m.txn? .modMbox = some txn0) ∧
    (let s := (inState .standby).onRegion 0 0 (fun r => { r with st := .off })
     s.granted .modMbox (baseP 0) 0xf 0 [2] ∧ (entry? (baseP 0) 0xf).any (fun e =>
       (e.set s .modMbox 0 [2]).2.wakeWaits (writeReq (baseP 0) 0xf 0 [2]) 0 == some 0) = true) ∧
    State.reset.hears .modMbox = false := by
  refine ⟨⟨granted_of ?_, ?_, granted_of ?_, ?_⟩, ?_, ⟨granted_of ?_, ?_⟩, ?_⟩ <;> decide +kernel

/-- The module with the keys of a table. -/
def keyed (t : Tab Byte) : State := { lit with m := { lit.m with keyTable := t } }

/-- OPEN names slot 0, which holds a key with a role. -/
theorem witness_open :
    let s := keyed [(1793, 1)]
    let pay := keyId (keyOf s.m.keyTable 0) ++ zeros 1600
    s.m.sm = .ready ∧ s.m.secState = 0 ∧ s.m.sessions.length < 8 ∧ s.m.setups = [] ∧ pay.length = 1608 ∧
    slotNamed s.m.keyTable (pay.take 8) = some 0 := by
  refine ⟨rfl, rfl, by decide, rfl, ?_, ?_⟩
  · rw [List.length_append, keyId_length, zeros, List.length_replicate]
  have h : (keyId (keyOf (keyed [(1793, 1)]).m.keyTable 0) ++ zeros 1600).take 8 = keyId (keyOf (keyed [(1793, 1)]).m.keyTable 0) :=
    List.take_left' (keyId_length _)
  simp only [h, slotNamed]
  rw [show List.range 16 = 0 :: (List.range 15).map (· + 1) from by decide, List.find?_cons_of_pos]
  have : keyRole (keyed [(1793, 1)]).m.keyTable 0 = 1 := by decide +kernel
  simp only [this, beq_self_eq_true, Bool.and_true]
  decide

/-- A set-up, and a session opened by it, both long past. -/
def setup0 : Setup :=
  { number := 2, i3c := false, session := 1, slot := 0, openPay := zeros 1608, challenge := [], secret := [], since := 0 }

/-- A session of the management Ethernet. -/
def session0 : Session :=
  { number := 6, i3c := false, slot := 0, role := 1, kreq := [], krsp := [], seq := 0, lastRsp := [], lastAt := 0 }

/-- The module with these set-ups and sessions. -/
def managed (l : List Setup) (k : List Session) : State := { lit with m := { lit.m with setups := l, sessions := k } }

/-- A set-up and a session found by their numbers; a session that is a minute old, and one that is not. -/
theorem witness_sessions :
    let s := managed [setup0] [session0]
    s.m.setups.find? (fun y => y.number == 2 && y.i3c == false) = some setup0 ∧ s.m.setups.find? (fun y => y.number == 3 && y.i3c == false) = none ∧
    s.m.sessions.length < 8 ∧ s.m.sessions.find? (fun y => y.number == 6) = some session0 ∧
    s.m.sessions.find? (fun y => y.number == 7) = none ∧ s.after session0.lastAt 7125000000 = false ∧
    ({ s with count := 8000000000 } : State).after session0.lastAt 7125000000 = true ∧ s.after setup0.since 237500000 = true ∧ s.live = true := by
  decide +kernel

/-- No room for a session, or for a set-up, and an OPEN of a wrong length. -/
theorem witness_setup_refused :
    8 ≤ (managed [] (List.replicate 8 session0)).m.sessions.length ∧
    4 ≤ ((managed (List.replicate 4 setup0) []).m.setups.filter (fun y => !(y.number == 9 && y.i3c == false))).length ∧
    ((zeros 3).length = 1608 → slotNamed [] ((zeros 3).take 8) = none) := by
  decide +kernel

/-- A datagram with a right tag: its number is new, repeats the last, or is older; and one of no session. -/
theorem witness_datagram : ∀ q ∈ [(0, []), (1, [0]), (2, [0])],
    let x := { session0 with seq := q.1, lastRsp := q.2 }
    let s := managed [] [x]
    let b : List Byte := bytesOfNat 4 6 ++ bytesOfNat 8 1 ++ zeros 12
    let d := b ++ kmac256 x.kreq b customTag
    s.m.sm = .ready ∧ field d 0 4 ≠ 0 ∧ s.m.sessions.find? (fun y => y.number == field d 0 4 && y.i3c == false) = some x ∧ 48 ≤ d.length ∧
    kmac256 x.kreq (d.take (d.length - 32)) customTag = d.drop (d.length - 32) ∧ field d 4 8 = 1 ∧
    s.answerDue x.number (field d 4 8) = false ∧
    s.m.sessions.find? (fun y => y.number == field (bytesOfNat 4 5) 0 4 && y.i3c == false) = none := by
  have h : ∀ b k : List Byte, k.length = 32 → (b ++ k).take ((b ++ k).length - 32) = b ∧ (b ++ k).drop ((b ++ k).length - 32) = k := by
    intro b k hk
    have : (b ++ k).length - 32 = b.length := by simp [hk]
    exact ⟨by rw [this]; exact List.take_left, by rw [this]; exact List.drop_left⟩
  intro q _ x s b d
  have hd : 48 ≤ d.length := by simp [d, b, bytesOfNat, zeros]
  have hf : field d 0 4 = 6 ∧ field d 4 8 = 1 := by
    simp only [d]
    generalize kmac256 x.kreq b customTag = k
    exact ⟨rfl, rfl⟩
  refine ⟨rfl, by rw [hf.1]; decide, by rw [hf.1]; rfl, hd, ?_, hf.2, rfl, rfl⟩
  rw [(h b _ (kmac256_length _ _ _)).1, (h b _ (kmac256_length _ _ _)).2]

/-- A datagram of session 0: over the management Ethernet it is nothing, on I3C it is heard. -/
theorem witness_bare_datagram : field (zeros 32) 0 4 = 0 ∧ lit.hears (.i3c 0) = true := by decide +kernel

/-! ### Witnesses: power, faults and start-up -/

/-- A machine whose channel 0 has these supplies. -/
def fed (f : Supply → Supply) : State := world { running with sup := f { running.sup with locked := true } }

/-- As `fed`, with region 0 changed. -/
def fed0 (f : Region → Region) : State := fed (fun u => { u with regions := u.regions.set 0 (f u.regions[(0 : Rg)]) })

theorem witness_power :
    lit.m.sm = .ready ∧ (fed id).reefs 0 = true ∧ State.reset.reefs 0 = false ∧ (fed id).m.lifetime.length = 4 ∧
    lit.m.tokens = 0 ∧ (let m := { lit.m with tokens := 5 }; 0 < m.tokens ∧ m.tokenAt + 118750000 ≤ lit.count) := by decide +kernel

/-- Rails below 80 % and one at it, with a grant's 60 A beside 516 A of VCORE_IN; and long and just now quiet. -/
theorem witness_sustained : ∀ a ∈ [515999, 516000], ∀ n ∈ [0, 4999999999],
    let s := fed (fun u => { u with quietSince := n, regions := u.regions.set 0 { u.regions[(0 : Rg)] with reserved := true } })
    let u := (s.ch 0).sup
    60000 * (allRegions.filter (fun r => (u.region r).reserved)).length = 60000 ∧ (80 * 720000 ≤ 100 * (a + 60000) ↔ a = 516000) ∧
    u.easing = 0 ∧ (u.quietSince + 1187500 ≤ s.count ↔ n = 0) := by decide +kernel

/-- A module at 97 % of its limit, below 90 % of it, and between; one that is shedding until its channel's step has changed. -/
theorem witness_easing :
    (97 * (1000 * 5600) ≤ 100 * 5432000 ∧ 100 * 5039999 < 90 * (1000 * 5600) ∧ ¬ 97 * (1000 * 5600) ≤ 100 * 5431999) ∧
    lit.m.sm ≠ .off ∧ ((fed id).ch 0).sup.regions[(0 : Rg)].healthy = 16 ∧
    (let s := { fed id with m := { lit.m with shedPin := true } }
     s.m.shedding = true ∧ s.reefs 0 = true ∧ (s.ch 0).sup.step < min 7 s.m.shedStep) := by decide +kernel

/-- Voltages and notes of MARGIN_MONITOR on each side of their bounds: 795 and 800 mV; low since long ago, since just now, and not. -/
theorem witness_margin : ∀ v ∈ [795, 800], ∀ l ∈ [none, some 0, some 4999999999],
    let u := ((fed0 (fun y => { y with stepMv := List.replicate 8 v, lowSince := l })).ch 0).sup
    let x := u.regions[(0 : Rg)]
    x.st = .on ∧ u.level x < 8 ∧ (u.holdMv 0 (u.level x) + 5 ≤ 800 ↔ v = 795) ∧ x.lowSince = l ∧
    ∀ n ∈ l.toList, (n + 11875000 ≤ lit.count ↔ n = 0) := by decide +kernel

/-- A change to another step, due at a count. -/
def change0 (due target : Nat) (up : Bool) : Change := { due := due, target := target, up := up, raised := false, after := none }

theorem witness_changes : ∀ due ∈ [5000000000, 5000000064],
    let s := fed (fun u => { u with step := 3, change := some (change0 due 2 true), reports := [(4999999900, 0)] })
    let u := (s.ch 0).sup
    u.change = some (change0 due 2 true) ∧ due ≤ s.count + 1024 ∧ due ≤ s.count + 64 ∧ (s.count < due ↔ due = 5000000064) ∧
    decide ((u.region 0).st = .on) = true ∧ s.reefs 0 = true ∧
    u.reports.any (fun e => decide (due ≤ e.1 + 256 ∧ e.1 < due)) = true := by decide +kernel

/-- A voltage that is short of the target step's, and changes that nothing cancels, with and without one to follow. -/
theorem witness_change_done :
    (let u := ((fed0 (fun y => { y with stepMv := List.replicate 8 600 })).ch 0).sup
     ([] : List Nat).getD 0 0 < u.holdMv 0 2) ∧
    ((fed (fun u => { u with change := some (change0 0 2 false) })).ch 0).sup.reports = [] ∧
    (let s := fed (fun u => { u with change := some { change0 0 2 true with after := some (8192, 5) } })
     s.required 0 ≤ 5) := by decide +kernel

/-- Lags that keep every neighbour within 6 cycles, at the sag of region 0 by 6 cycles; and a region that is off. -/
theorem witness_droop :
    (let u := ((fed id).ch 0).sup
     let lag := fun (a : Nat) => (u.region a).lag - ((5000000000 - (u.region a).lagAt) * reefN u.step + (u.region a).lagRem) / 80 +
       if a = 0 then 6 else 0
     ∀ a < 24, ∀ b < 24, edgeNeighbours a b = true → lag a ≤ lag b + 6) ∧ (fed id).count = 5000000000 ∧
    decide (((fed0 (fun y => { y with st := .off })).ch 0).sup.regions[(0 : Rg)].st = .on) = false := by decide +kernel

theorem witness_region_states : ∀ st ∈ [RegionSt.off, .waiting, .ramping, .on], ∀ since ∈ [0, 4999999999],
    let s := fed0 (fun y => { y with st := st, since := since, reserved := true })
    let y := (s.ch 0).sup.regions[(0 : Rg)]
    y.st = st ∧ y.reserved = true ∧ s.m.st ≠ .safe ∧ (s.ch 0).ctl.st = .running ∧ (y.since + 1188 ≤ s.count ↔ since = 0) ∧
    (y.since + (237500 + y.waitLogs * 11875000) ≤ s.count ↔ since = 0) ∧ s.counting = true ∧ y.st ≠ .lost ∧
    y.cells.testBit 15 = true ∧ y.failed < 3 ∧ (s.ch 0).run.stops = [] := by decide +kernel

theorem witness_region_lost : ∀ st ∈ [ChState.standby, .ready, .running, .hold],
    let x := ({ fed0 (fun y => { y with cells := 0x1fff }) with
      chs := (fed0 (fun y => { y with cells := 0x1fff })).chs.map (fun (x : Chan) => { x with ctl := { x.ctl with st := st } }) } : State).ch 0
    x.ctl.st = st ∧ 3 ≤ (x.sup.regions[(0 : Rg)]).failed ∧ (x.sup.regions[(0 : Rg)]).cells.testBit 0 = true ∧
    (x.sup.regions[(0 : Rg)]).st ≠ .lost := by decide +kernel

/-- SHED_N high and low; 33 V, 35 V, 36.5 V, 50.5 V, 52 V, 20 V and 60 V. -/
theorem witness_input :
    lit.m.sm ≠ .off ∧ lit.m.pins.shedN = true ∧ ({ lit.m.pins with shedN := false } : Pins).shedN = false ∧ lit.m.shedLow = false ∧
    lit.m.overLogged = false ∧ (le32 0x42040000 0x42040000 = true ∧ lt32 0x42040000 0x42100000 = true) ∧
    (le32 0x42040000 0x420c0000 = true ∧ lt32 0x420c0000 0x42100000 = true) ∧ le32 0x42120000 0x42120000 = true ∧
    (lt32 0x42480000 0x424a0000 = true ∧ le32 0x424a0000 0x42500000 = true ∧ lt32 0x424a0000 0x42100000 = false) ∧
    (lt32 0x42500000 0x42040000 = false ∧ lt32 0x42500000 0x42500000 = false) ∧ lt32 0x41a00000 0x42040000 = true ∧
    (lt32 0x42700000 0x42040000 = false ∧ lt32 0x42500000 0x42700000 = true) := by decide +kernel

theorem witness_temperatures :
    lit.m.sm = .ready ∧ running.ctl.st ≠ .off ∧ lit.m.st ≠ .safe ∧ lit.m.secState = 0 ∧
    (let x := ((fed0 (fun y => { y with pairSt := [2, 0], pairSince := [1, 0] })).ch 0).sup.regions[(0 : Rg)]
     x.pairSt.getD 0 0 = 2 ∧ x.pairSince.getD 0 0 = 0 + 1 ∧ ({ lit with count := 7125000000 } : State).count = 0 + 7125000000 ∧
     lit.count < 0 + 7125000000 ∧ lit.counting = true) ∧
    (safe0.m.st = .safe ∧ (safe0.ch 0).ctl.st ≠ .off ∧ safe0.m.safeAt + 118750000 ≤ safe0.count) ∧
    (let m := { lit.m with flowLowSince := some 0, inletHighSince := some 4999999999 }
     m.flowLowSince = some 0 ∧ 0 + 59375000 ≤ lit.count ∧ m.inletHighSince = some 4999999999 ∧ lit.count < 4999999999 + 59375000) := by
  decide +kernel

/-- A forecast above 95, one of 92 and one between; readings of all 24 regions; a module in BOOT that is polled. -/
theorem witness_forecasts :
    lt32 0x42be0000 0x42c00000 = true ∧ le32 0x42b80000 0x42b80000 = true ∧ lt32 0x42be0000 0x42b80000 = false ∧
    (List.replicate 24 ({ temps := [0, 0, 0, 0], power := 0 } : RegionReading)).length = 24 ∧
    (let s := { lit with m := { lit.m with st := .boot } }; s.m.st = .boot ∧ s.m.sm = .ready) := by decide +kernel

/-- The channel in a containment reset, its GDDR7 trained or not. -/
def resetting (trained : Nat) : State :=
  world { running with ctl := { running.ctl with st := .boot, boot := { Boot.idle with phase := .reset, trained := trained } } }

theorem witness_containment :
    (∀ t ∈ [0, 0xff], ((resetting t).ch 0).ctl.st = .boot ∧ ((resetting t).ch 0).ctl.boot.phase = .reset ∧
      ((resetting t).ch 0).ctl.boot.trained = t ∧ ((resetting t).ch 0).mem.wf) ∧
    scrubbed 0 = true ∧ scrubbed boardBase = true ∧ running.mem.poisoned? 0 = false ∧
    ({ running.mem with marks := [(0, 1)] } : Memory).poisoned? 0 = true ∧ (State.reset.ch 0).ctl.st = .off := by
  simp only [Memory.wf]
  decide +kernel

/-- A channel in BOOT in a phase. -/
def booting (b : Boot) : State := world { running with ctl := { running.ctl with st := .boot, boot := b } }

theorem witness_boot :
    (State.reset.m.sm = .off ∧ State.reset.m.fwState ≠ 1) ∧ ({ lit.m with sm := .rom } : Module).sm = .rom ∧
    (let s := { lit with m := { lit.m with sm := .restarting } }
     s.m.sm = .restarting ∧ s.m.secState = 0 ∧ s.counting = true ∧ s.m.pins.tripN = true) ∧ lit.m.refclk = 0 ∧
    (let b := { Boot.idle with phase := .rails }; ((booting b).ch 0).ctl.boot.phase = .rails ∧ b.since + 118750000 ≤ lit.count ∧
      0 ∉ b.waitLogged) ∧
    (let b := { Boot.idle with phase := .training, attempts := [0, 2] }
     ((booting b).ch 0).ctl.boot.phase = .training ∧ b.trained.testBit 0 = false ∧ b.attempts.getD 0 0 < 2 ∧ 2 ≤ b.attempts.getD 1 0 ∧
     b.groups = (0 : Fin 4).val ∧ lit.m.st = .normal ∧
     (List.replicate 6 ({ failedCells := 0, mv := List.replicate 8 500 } : RegionBoot)).length = 6) ∧
    (let b := { Boot.idle with phase := .training, trained := 0xff, groups := 4 }
     ((booting b).ch 0).ctl.boot.phase = .training ∧ ((booting b).ch 0).ctl.config = [] ∧ ((booting b).ch 0).mem.wf) := by
  simp only [Memory.wf]
  decide +kernel

theorem witness_alignment : ∀ n ∈ [0, 4999999999],
    let s := { world { running with yard := { running.yard with rank := 4 } } with m := { lit.m with alignState := 1, alignHeard := n } }
    (s.ch 0).yard.rank ≠ 0 ∧ s.m.alignState ≠ 0 ∧ s.alignBest = none ∧ (s.m.alignHeard + 2 ^ 20 ≤ s.count ↔ n = 0) := by decide +kernel

/-! ### Witnesses: the machine -/

theorem reset_memOk : State.reset.memOk := by
  intro c
  fin_cases c <;> decide +kernel

theorem reset_countOk : State.reset.countOk := fun _ => rfl

theorem witness_safe : State.reset.safe := ⟨reset_memOk, reset_countOk⟩

theorem witness_one_channel : channelOf (.add w0) = some 0 ∧ ∃ t, exec (.add w0) State.reset = .next t := ⟨rfl, _, rfl⟩

theorem witness_count_step : ∃ t, step State.reset = .next t ∧ State.reset.pending = [] := ⟨_, rfl, rfl⟩

/-! ### Ill-formed commands -/

/-- A request head, an atomic head, a response head, a mail head, an acknowledgement, a HELLO, a CTRL wagon and a yard message that fit. -/
def rq : ReqHead := { addr := 0, seq := 0, length := 32, rank := 0, port := 0, epoch := 0 }
/-- An atomic head. -/
def ah : AtomHead := { addr := 0, seq := 0, rank := 0, port := 0, epoch := 0, a := 0, b := 0, round := 0, members := 0 }
/-- A response head. -/
def rh : RespHead := { seq := 0, status := 0, epoch := 0, rank := 0, result := 0, length := 32 }
/-- An acknowledgement. -/
def kh : AckHead := { dstRank := 0, srcRank := 0, status := 0, queue := 0, msg := 0, nextFrag := 0 }
/-- A HELLO. -/
def hh : Hello :=
  { rank := 0, port := 0, windowOpen := true, align := 0, hops := 0, resetGen := 0, identity := 0, echoDelta := 0, echoTx := 0, txCount := 0 }
/-- A CTRL wagon. -/
def ck : Ctrl := { ackSeq := 0, nak := false, reqCredit := 0, respCredit := 0, mailCredit := 0 }
/-- A yard message. -/
def ym : YardMsg := { srcRank := 0, queue := 0, seg := 0, owner := 0, chunk := 0, slot := 0, data := [], poisoned := false }

/-- A damaged granule outside the 48-bit map. -/
def noFault : MemFault := { addr := 2 ^ 48, kind := .ecc }

/-- A car whose reads meet damage outside the map. -/
def wBad : At := ⟨0, 0, [noFault]⟩

/-- Averages of four rails. -/
def av : Averages := { own := 0, stay := 0, window := [0, 0, 0, 0], sustained := [0, 0, 0, 0], power := 0 }

theorem illformed_heads :
    ∀ i ∈ [Instr.read 0 0 ⟨{ rq with addr := 2 ^ 64 }, []⟩, .read 0 0 ⟨{ rq with seq := 2 ^ 32 }, []⟩, .read 0 0 ⟨{ rq with length := 2 ^ 32 }, []⟩,
      .read 0 0 ⟨{ rq with rank := 2 ^ 16 }, []⟩, .read 0 0 ⟨{ rq with port := 256 }, []⟩, .read 0 0 ⟨{ rq with epoch := 256 }, []⟩, .read 0 0 ⟨rq, [noFault]⟩, .write 0 0 rq [0] [],
      .atomicAdd64 0 0 { ah with addr := 2 ^ 64 }, .atomicUmin64 0 0 { ah with seq := 2 ^ 32 }, .atomicUmax64 0 0 { ah with rank := 2 ^ 16 },
      .atomicSmin64 0 0 { ah with port := 256 }, .atomicSmax64 0 0 { ah with epoch := 256 }, .atomicSwap64 0 0 { ah with a := 2 ^ 64 },
      .atomicCas64 0 0 { ah with b := 2 ^ 64 }, .atomicAdd32 0 0 { ah with round := 2 ^ 16 }, .atomicUmin32 0 0 { ah with members := 256 },
      .atomicUmax32 0 0 { ah with addr := 2 ^ 64 }, .atomicSmin32 0 0 { ah with addr := 2 ^ 64 }, .atomicSmax32 0 0 { ah with addr := 2 ^ 64 },
      .atomicSwap32 0 0 { ah with addr := 2 ^ 64 }, .atomicCas32 0 0 { ah with addr := 2 ^ 64 }, .roundTimeout 0 (2 ^ 48) 0,
      .roundTimeout 0 0 (2 ^ 16), .readData 0 0 { rh with seq := 2 ^ 32 } (zeros 32) [], .readData 0 0 rh [] [],
      .writeAck 0 0 { rh with status := 256 }, .writeAck 0 0 { rh with epoch := 256 }, .atomicResult 0 0 { rh with rank := 2 ^ 16 },
      .atomicResult 0 0 { rh with result := 2 ^ 64 }, .writeAck 0 0 { rh with length := 2 ^ 24 }, .detour 0 0 mail0 (.read { rq with port := 256 }),
      .detour 0 0 mail0 (.write rq [0] []), .detour 0 0 mail0 (.atomic 256 ah), .forward 0 0 0 0 mail0 [] [], .forward 0 0 1 256 mail0 [] []],
      i.wf = false := by decide +kernel

/-- Reads that meet damage outside the map. -/
theorem illformed_cars :
    ∀ i ∈ [Instr.matmul wBad 0 [], .sum wBad 0, .maxabs wBad 0, .topk wBad 0, .refetchDone wBad 0, .add wBad, .sub wBad, .mul wBad,
      .fma wBad, .axpby wBad, .min wBad, .max wBad, .abs wBad, .neg wBad, .div wBad, .sqrt wBad, .ldexp wBad, .clamp wBad, .exp wBad,
      .log wBad, .rsqrt wBad, .tanh wBad, .sigmoid wBad, .gelu wBad, .sin wBad, .cos wBad, .lt wBad, .le wBad, .eq wBad, .ne wBad,
      .select wBad, .gather wBad, .scatterAdd wBad, .scanSum wBad, .scanXsum wBad, .scanMax wBad, .discRev wBad, .sort wBad,
      .convert wBad, .scalegen wBad, .raw wBad, .uniform wBad, .normal wBad, .bernoulli wBad, .dropout wBad, .adamw wBad, .lion wBad,
      .sgdm wBad, .redSum wBad, .redSumsq wBad, .redMax wBad, .redMin wBad, .redMaxabs wBad, .worldEnd wBad, .worldReset wBad,
      .record wBad, .advance wBad, .send wBad, .atomic wBad, .fence wBad, .signalAdd wBad, .signalWait wBad, .leg wBad, .loop wBad,
      .endloop wBad, .mark wBad, .nop wBad, .commit wBad, .contributeStart wBad, .contributeAdd wBad, .contributeFinal wBad,
      .contributeOnly wBad, .deliver wBad, .publish wBad, .await wBad, .demandPoint wBad 0 [], .copy wBad [] [],
      .compress wBad [0] [], .decompress wBad [0] [], .narrowE4m3 wBad [0] [],
      .widenE4m3 wBad [0] []], i.wf = false := by decide +kernel

theorem illformed_mail :
    ∀ i ∈ [Instr.mail 0 0 { mail0 with dstRank := 2 ^ 16 } [] [], .mail 0 0 { mail0 with srcRank := 2 ^ 16 } [] [],
      .mail 0 0 { mail0 with queue := 256 } [] [], .mail 0 0 { mail0 with hops := 256 } [] [], .mail 0 0 { mail0 with dstLeg := 256 } [] [],
      .mail 0 0 { mail0 with dstIter := 256 } [] [], .mail 0 0 { mail0 with msg := 2 ^ 32 } [] [], .mail 0 0 { mail0 with length := 2 ^ 32 } [] [],
      .mail 0 0 { mail0 with fragFirst := 2 ^ 32 } [] [], .mail 0 0 { mail0 with tag := 2 ^ 32 } [] [],
      .mailAck 0 0 { kh with dstRank := 2 ^ 16 }, .mailAck 0 0 { kh with srcRank := 2 ^ 16 }, .mailAck 0 0 { kh with status := 256 },
      .mailAck 0 0 { kh with queue := 256 }, .mailAck 0 0 { kh with msg := 2 ^ 32 }, .mailAck 0 0 { kh with nextFrag := 2 ^ 32 },
      .hello 0 0 { hh with rank := 2 ^ 16 }, .hello 0 0 { hh with port := 5 }, .hello 0 0 { hh with align := 4 }, .hello 0 0 { hh with hops := 64 },
      .hello 0 0 { hh with resetGen := 2 ^ 32 }, .linkUp 0 0 { hh with identity := 2 ^ 64 }, .hello 0 0 { hh with echoDelta := 2 ^ 32 },
      .hello 0 0 { hh with echoTx := 2 ^ 32 }, .hello 0 0 { hh with txCount := 2 ^ 64 }, .ctrl 0 0 { ck with ackSeq := 1024 },
      .ctrl 0 0 { ck with reqCredit := 4096 }, .ctrl 0 0 { ck with respCredit := 4096 }, .ctrl 0 0 { ck with mailCredit := 4096 },
      .failedWagon 0 0 1024, .neighbourSolicitation none [], .leaf 0 { ym with srcRank := 2 ^ 16 }, .leaf 0 { ym with queue := 256 }, .pair 0 { ym with seg := 2 ^ 16 },
      .quad 0 { ym with owner := 2048 }, .root 0 { ym with chunk := 1024 }, .yardCopy 0 { ym with slot := 64 }, .spread 0 { ym with slot := 64 },
      .credit 0 { ym with slot := 64 }, .nodeEvaluation 0 (2 ^ 16) 0 0 0 0, .nodeEvaluation 0 0 2048 0 0 0, .nodeEvaluation 0 0 0 1024 0 0,
      .nodeEvaluation 0 0 0 0 256 0, .nodeEvaluation 0 0 0 0 0 (2 ^ 16), .deadline 0 (2 ^ 16) 0 0 0, .deadline 0 0 2048 0 0,
      .deadline 0 0 0 1024 0, .deadline 0 0 0 0 (2 ^ 16)], i.wf = false := by decide +kernel

/-- A session number beyond 32 bits. -/
def noVia : Via := .eth (2 ^ 32)

theorem illformed_requests :
    ∀ i ∈ [Instr.ttLoad noVia 0 0, .ttLoad (.i3c (2 ^ 32)) 0 0, .ttLoad .modMbox 0 (2 ^ 64), .start noVia 0, .resume noVia 0, .holdRequest noVia 0,
      .standby noVia 0, .wake noVia 0, .release noVia 0, .reset noVia 0, .powerOff noVia 0, .powerOn noVia 0, .clearSafe noVia, .begin noVia,
      .txnCommit noVia, .rollback noVia, .txnTimeout noVia, .dbTail 0 (2 ^ 64), .evtConsumed 0 (2 ^ 64), .layerState noVia 0 0 [],
      .layerState .modMbox 0 (2 ^ 32) [], .layerState .modMbox 0 0 (zeros 241), .attestNonce noVia none 0 [], .attestNonce .modMbox none (2 ^ 32) [],
      .attestNonce .modMbox none 0 (zeros 241), .fwPending noVia 0 [], .fwPending .modMbox (2 ^ 32) [], .fwPending .modMbox 0 (zeros 241),
      .floorCert noVia 0 [], .floorCert .modMbox (2 ^ 32) [], .floorCert .modMbox 0 (zeros 241), .ownerKey noVia 0 [], .ownerKey .modMbox (2 ^ 32) [],
      .ownerKey .modMbox 0 (zeros 241), .ownerTransfer noVia 0 [], .ownerTransfer .modMbox (2 ^ 32) [], .ownerTransfer .modMbox 0 (zeros 241),
      .tenantSlot noVia 0 [], .tenantSlot .modMbox 0 (zeros 241), .configModule noVia 0 [], .configModule .modMbox (2 ^ 32) [],
      .configModule .modMbox 0 (zeros 241), .configChannel noVia 0 0 [], .configChannel .modMbox 0 (2 ^ 32) [],
      .configChannel .modMbox 0 0 (zeros 241), .depotSize noVia 0 [], .depotSize .modMbox 0 (zeros 241), .farEnable noVia 0 [],
      .farEnable .modMbox 0 (zeros 241), .linkEnable noVia 0 0 [], .linkEnable .modMbox 0 0 (zeros 241), .powerAllowance noVia [],
      .powerAllowance .modMbox (zeros 241), .entryWrite noVia 0 0 0 [], .entryWrite .modMbox (2 ^ 16) 0 0 [], .entryWrite .modMbox 0 256 0 [],
      .entryWrite .modMbox 0 0 (2 ^ 32) [], .entryWrite .modMbox 0 0 0 (zeros 241), .openSession false (2 ^ 32) [], .response false (2 ^ 32) [],
      .setupTimeout (2 ^ 32), .sessionClosed (2 ^ 32)], i.wf = false := by decide +kernel

theorem illformed_others :
    ∀ i ∈ [Instr.matmul w0 0 [noFault], .crowsnestCheck 0 [(1024, 0)], .copy w0 [2 ^ 40] [], .copy w0 [] [noFault], .compress w0 [2 ^ 40] [],
      .compress w0 [] [noFault], .decompress w0 [2 ^ 40] [], .decompress w0 [] [noFault], .narrowE4m3 w0 [2 ^ 40] [], .narrowE4m3 w0 [] [noFault],
      .widenE4m3 w0 [2 ^ 40] [], .widenE4m3 w0 [] [noFault], .demandPoint w0 0 [noFault], .verdict 0 (2 ^ 16) 0, .verdict 0 0 (2 ^ 32),
      .farTrained 0 (some (0x31, 0)), .farTrained 0 (some (0x13, 0)), .farTrained 0 (some (0x11, 2 ^ 64)), .hostRead 0 (2 ^ 48) 1 [],
      .hostRead 0 0 4097 [], .hostRead 0 0 1 [noFault], .hostWrite 0 (2 ^ 48) [], .hostWrite 0 0 (zeros 4097), .recall 0 (2 ^ 64), .sliceUp 0 0,
      .powerShare { (default : Measured) with channelPower := [] }, .powerShare { (default : Measured) with channelPower := [0, 0, 0, 0] },
      .sustainedLimit 0 17 [0, 0, 0, 0], .sustainedLimit 0 0 [0], .easingRise .module { av with window := [] },
      .easingRise .module { av with sustained := [] }, .easingFall (.channel 0) { av with window := [] }, .easingFall (.region 0 0) { av with sustained := [] },
      .voltageCheck 0 [], .droop 0 0 (2 ^ 16) ⟨0, 0⟩, .cellFailed 0 0 0 (2 ^ 16), .regionLost 0 0 3,
      .thermalForecast 0 [], .thermalForecast 0 (List.replicate 24 { temps := [], power := 0 }), .coolantPoll (some (2 ^ 48, 0)) none none,
      .coolantPoll none (some (0, 0)) (some (0, 2 ^ 24)), .controlUncorrectable 0 7 0, .controlUncorrectable 0 0 384,
      .comparatorTrip 0 (2 ^ 16) 0, .comparatorTrip 0 0 2, .comparatorTest 0 (some (2 ^ 16, 0)), .comparatorTest 0 (some (0, 2)),
      .patrolScrub 0 (2 ^ 48) .clean, .regionGroup 0 0 [], .regionGroup 0 0 (List.replicate 6 { failedCells := 2 ^ 16, mv := List.replicate 8 0 }),
      .regionGroup 0 0 (List.replicate 6 { failedCells := 0, mv := [] }), .channelBooted 0 (some (2 ^ 16, 0)), .channelBooted 0 (some (0, 2)),
      .hostCompletion 0 (2 ^ 32) [] false, .dynamicAddressAssignment 128 false], i.wf = false := by decide +kernel

/-- The same heads and operands, in range, are well formed. -/
theorem wellformed_commands :
    ∀ i ∈ [Instr.read 0 0 ⟨rq, []⟩, .write 0 0 rq (zeros 32) [], .atomicCas32 0 0 ah, .readData 0 0 rh (zeros 32) [], .mail 0 0 mail0 (zeros 32) [],
      .mailAck 0 0 kh, .hello 0 4 { hh with port := 4 }, .ctrl 0 0 ck, .leaf 0 ym, .detour 0 0 mail0 (.atomic 17 ah), .matmul w0 3 [],
      .farTrained 3 (some (0x42, 0)), .sliceUp 0 0x11, .ttLoad .modMbox 0 boardBase, .hostRead 0 hostPage 8 [], .add w0,
      .add ⟨0, 0, [{ noFault with addr := 0 }]⟩, .sustainedLimit 0 16 [0, 0, 0, 0], .easingRise (.channel 0) av,
      .easingFall (.region 0 0) av, .easingRise .module av, .regionLost 0 0 2, .coolantPoll (some (0, 0)) none none, .rampDenied 0 0 0],
      i.wf = true := by decide +kernel

/-- The table gives no row bits. -/
theorem test_no_row_has_bits : decodeTableWord 16 0 = none ∧ (State.reset.withFetchWord 16 0) = State.reset := ⟨rfl, rfl⟩

/-! ### Results taken from the manual -/

/-- 02 Table 02-8, row by row. -/
theorem test_narrowing_table :
    narrowOne .e4m3 .rne (decode32 0x3a83126f) = (0x01, {}) ∧ narrowOne .e4m3 .rne (decode32 0xba03126f) = (0x80, {}) ∧
    narrowOne .e4m3 .rne (decode32 0x43fa0000) = (0x7e, { sat := 1 }) ∧ narrowOne .e4m3 .rne (decode32 0x7f800000) = (0x7f, { nan := 1 }) ∧
    narrowOne .e5m2 .rne (decode32 0x4788b800) = (0x7b, { sat := 1 }) ∧ narrowOne .e5m2 .rne (decode32 0x7f800000) = (0x7c, { inf := 1 }) ∧
    narrowOne .bf16 .rne (decode32 0x7f7fffff) = (0x7f80, { inf := 1 }) ∧ narrowOne .bf16 .rne (decode32 0x3f808000) = (0x3f80, {}) ∧
    narrowOne .bf16 (.sr 0x8000) (decode32 0x3f808000) = (0x3f81, {}) := by decide +kernel

/-- 02, the worked example of a Q4f block: 2.75, −0.8, 0.3, 1.25 and −0.125 under scale byte 0x7E, and 1.25 under SR. -/
theorem test_q4f_block :
    blockScale .q4f ([0x40300000, 0xbf4ccccd, 0x3e99999a, 0x3fa00000, 0xbe000000].map decode32) = 0x7e ∧
    [0x40300000, 0xbf4ccccd, 0x3e99999a, 0x3fa00000, 0xbe000000].map (fun w => (narrowCode .q4f (-1) .rne (decode32 w)).1) = [7, 0xb, 1, 4, 0] ∧
    (narrowCode .q4f (-1) (.sr 0x9a3c) (decode32 0x3fa00000)).1 = 5 ∧ (narrowCode .q4f (-1) (.sr 0x1f00) (decode32 0x3fa00000)).1 = 4 := by
  decide +kernel

/-- 04, the worked example of drop-out: the key of leg 1 under run seed 0x3A5C_0001. -/
theorem test_ticket_key : ticketKey 0x3a5c0001 1 = 0x9e3779b945167c14 := by decide +kernel

/-- 01: region 5 has the edge neighbours 2, 4, 9 and 14; region 0 has 1 and 3. -/
theorem test_neighbours : neighboursOf 5 = [2, 4, 9, 14] ∧ neighboursOf 0 = [1, 3] := by decide +kernel

/-- 10, the worked example of 4 modules: 12 owners, four levels, q3 absent, and module 2 backed by module 3. -/
theorem test_yard_tree :
    let i := { yardImage with rankCount := 16, backupMap := [0xffff, 0xffff, 0xffff, 2] }
    i.owners = List.range 12 ∧ i.height = 4 ∧ i.present 2 2 = true ∧ i.present 2 3 = false ∧ i.backupOf 2 = some 3 ∧ i.leafRank 14 = 10 := by
  decide +kernel

/-- 13, the worked example: (3,600 − 40) / 4 is 890 W. -/
theorem test_equal_share : div32 (natTo32 (3600 - 40)) (natTo32 4) = 0x445e8000 := by decide +kernel

/-- Known answers of CRC-32C over "123456789" and of SHAKE256 over nothing. -/
theorem test_hashes : crc32c [0x31, 0x32, 0x33, 0x34, 0x35, 0x36, 0x37, 0x38, 0x39] = 0xe3069283 ∧
    (shake256 []).take 8 = [0x46, 0xb9, 0xdd, 0x2b, 0x0b, 0xa8, 0x8d, 0x13] := by decide +kernel

/-! ### Single steps -/

/-- What a step of a vector car with one register of FP32 elements stores in the first element of D: S1 holds `a`, S2 holds `b`. -/
def firstOf (i : Instr) (opc func : Nat) (a b : Nat) : Nat :=
  let s := atHead 4 (vcar opc func)
  let s := s.onMem 0 (fun m => (m.write (tenderAt 0 65536) (bytesOfNat 4 a)).write (tenderAt 0 131072) (bytesOfNat 4 b))
  match exec i s with
  | .next t => (t.ch 0).mem.nat (tenderAt 0 32768) 4
  | _ => 0

/-- 1.5 + 2.25 = 3.75; 1.5 × 2.25 = 3.375; 1 / 3 to nearest; the larger of 1.5 and 2.25. -/
theorem test_vector_add : firstOf (.add w0) 1 0 0x3fc00000 0x40100000 = 0x40700000 := by decide +kernel
theorem test_vector_mul : firstOf (.mul w0) 1 2 0x3fc00000 0x40100000 = 0x40580000 := by decide +kernel
theorem test_vector_div : firstOf (.div w0) 1 9 0x3f800000 0x40400000 = 0x3eaaaaab := by decide +kernel
theorem test_vector_max : firstOf (.max w0) 1 6 0x3fc00000 0x40100000 = 0x40100000 := by decide +kernel

/-- 09, the worked example: ADD64 with A = 1 on a word that holds 1,000. -/
theorem test_atomic_add :
    (match exec (.atomicAdd64 0 2 { ahead0 with a := 1 }) ((linked id id).onMem 0 (fun m => m.write 0x1000000000 (bytesOfNat 8 1000))) with
     | .next t => (t.ch 0).mem.nat 0x1000000000 8
     | _ => 0) = 1001 := by decide +kernel

/-- 11 R274: a host write of four bytes to board memory, read back at the second. -/
theorem test_host_write :
    (match exec (.hostWrite 0 0x1000000010 [1, 2, 3, 4]) (belled .running 5) with
     | .next t => (t.ch 0).mem.read 0x1000000011 4
     | _ => []) = [2, 3, 4, 0] := by decide +kernel

/-- 18: power-up from reset puts the station master in its mask ROM and the count at 0. -/
theorem test_power_up :
    (match exec .powerUp State.reset with | .next t => (t.m.sm == .rom) && t.count == 0 && !t.counting | _ => false) = true := by
  decide +kernel

/-- 13 R321: SHED_N asserted sets the shed source; released, it clears it. -/
theorem test_shed :
    (match exec .shedNAssert lit with | .next t => t.m.shedPin && !t.m.pins.shedN | _ => false) = true ∧
    (match exec .shedNRelease { lit with m := { lit.m with shedPin := true, pins := { lit.m.pins with shedN := false } } } with
     | .next t => !t.m.shedPin && t.m.pins.shedN | _ => false) = true := by decide +kernel

/-- 05 R139, 12 R291: TT_LOAD from the channel's mailbox starts the load of its address. -/
theorem test_tt_load :
    (match exec (.ttLoad (.chMbox 0) 0 0x1000001000) (inState .ready) with
     | .next t => (t.ch 0).run.loading == some 0x1000001000 && (t.ch 0).run.loadResult == 0xffff && (t.ch 0).run.image.isNone
     | _ => false) = true := by decide +kernel

/-- 03: one active row and column, A(0,0) = 2 and B(0,0) = 3 in FP32, give C(0,0) = 6 at the end of the chain. -/
theorem test_matmul :
    let car := carOf [(124, 1), (72, 1024), (56, 2048), (40, 4096), (28, 1)]
    let s := (withRec 0 car 0).onMem 0 (fun m =>
      (m.write (tenderAt 0 32768) (bytesOfNat 4 0x40000000)).write (tenderAt 0 65536) (bytesOfNat 4 0x40400000))
    (match exec (.matmul w0 0 []) s with | .next t => (t.ch 0).mem.nat (tenderAt 0 131072) 4 | _ => 0) = 0x40c00000 := by decide +kernel

/-- 08 R210: a COPY of the chunk that holds 0x01020304. -/
theorem test_copy :
    (match exec (.copy w0 [] []) (moveAt 0 none) with | .next t => (t.ch 0).mem.nat (tenderAt 0 65536) 4 | _ => 0) = 0x01020304 := by
  decide +kernel

/-- 06 R157: ADD of 1 to signal 7 of the cluster. -/
theorem test_signal_add :
    (match exec (.signalAdd w0) (world (onTrack [sigCar 0 7 1])) with | .next t => (t.ch 0).sigCount 0 7 | _ => 0) = 1 := by decide +kernel

/-- 06 R151: after the last leg of the last iteration the channel is READY; 06 R150: else the next leg begins. -/
theorem test_run_end :
    (match exec (.legBoundary 0) (world (atBoundary 1 2 false)) with | .next t => (t.ch 0).ctl.st == .ready | _ => false) = true ∧
    (match exec (.legBoundary 0) (world (atBoundary 0 0 false)) with | .next t => (t.ch 0).run.leg == 1 | _ => false) = true := by
  decide +kernel

/-- 10 R252: CONTRIBUTE of AMODE START puts the gradient 1.0 into the accumulator. -/
theorem test_contribute :
    (match exec (.contributeStart w0) ((yardAt [ycar 0 1] id).onMem 0 (fun m => m.write 0x10000 (bytesOfNat 4 0x3f800000))) with
     | .next t => (t.ch 0).mem.nat 0x20000 4 | _ => 0) = 0x3f800000 := by decide +kernel

/-- 12 R298: BEGIN opens the module mailbox's transaction and answers ST_OK; a second one is refused with 0x000D. -/
theorem test_begin :
    (match exec (.begin .modMbox) lit with
     | .next t => decide (t.out = [.answer .modMbox 0 []]) && (t.m.txn? .modMbox).any (fun x => x.tstate == 1) | _ => false) = true ∧
    (match exec (.begin .modMbox) { lit with m := { lit.m with txns := [txn0] } } with
     | .next t => decide (t.out = [.answer .modMbox 0xd []]) | _ => false) = true := by decide +kernel

end Sys2Proof.Tests
end

/-! The Q4i codes (02 R38, R50): two's complement readings of a code, and the value of a code lies on its own grid, where every rounding
is the identity. -/

namespace Sys2Proof.Machine

/-! ### Two's complement readings -/

theorem signedOf_of_sign_clear {w v : Nat} (hv : v < 2 ^ (w - 1)) : signedOf w v = v := by
  have hmod : v % 2 ^ w = v :=
    Nat.mod_eq_of_lt (hv.trans_le (Nat.pow_le_pow_right two_pos (Nat.sub_le w 1)))
  simp [signedOf, hmod, hv]

theorem signedOf_of_sign_set {w v : Nat} (hlo : 2 ^ (w - 1) ≤ v) (hhi : v < 2 ^ w) : signedOf w v = v - 2 ^ w := by
  simp [signedOf, Nat.mod_eq_of_lt hhi, hlo.not_gt]

theorem decodeCode_q4i_nonneg {n : Nat} (hn : n < 8) : decodeCode .q4i n = .fin false n 0 := by
  have hv : signedOf 4 n = n := signedOf_of_sign_clear hn
  simp [decodeCode, hv]

theorem decodeCode_q4i_neg {n : Nat} (hlo : 8 ≤ n) (hhi : n < 16) : decodeCode .q4i n = .fin true (16 - n) 0 := by
  have hv : signedOf 4 n = n - 16 := signedOf_of_sign_set hlo hhi
  have hneg : (n : Int) - 16 < 0 := by omega
  have habs : ((n : Int) - 16).natAbs = 16 - n := by omega
  simp [decodeCode, hv, hneg, habs]

/-! ### Rounding a value that lies on the grid -/

/-- A cut with nothing left over rounds to its count; the ticket value of a stochastic rounding has 16 bits (02 R50), so it carries nothing. -/
theorem Cut.round_of_exact {k : Cut} {r : Rounding} (habove : k.above = false) (hhalf : k.half = false) (hexact : k.exact = true)
    (hbits : k.f16 = 0) (hr : ∀ u, r = .sr u → u < 2 ^ 16) : k.round r = k.lo := by
  cases r with
  | rne => simp [Cut.round, habove, hhalf]
  | sr u =>
    have hu : u < 65536 := hr u rfl
    simp [Cut.round, hbits, hu]
  | up => simp [Cut.round, hexact]

/-- A magnitude whose exponent is at least the unit's is a whole number of units, and no rounding moves it. -/
theorem round_cutAt_of_le {man : Nat} {exp u : Int} {r : Rounding} (hu : u ≤ exp) (hr : ∀ u, r = .sr u → u < 2 ^ 16) :
    (cutAt man exp u false).round r = man * 2 ^ (exp - u).toNat := by
  rw [Cut.round_of_exact (hr := hr)] <;> simp [cutAt, hu]

/-! ### Narrowing whole numbers to Q4i -/

theorem narrowCode_q4i_nonneg {m : Nat} {r : Rounding} (hm : m ≤ 7) (hr : ∀ u, r = .sr u → u < 2 ^ 16) :
    narrowCode .q4i 0 r (.fin false m 0) = (m, false) := by
  simp [narrowCode, round_cutAt_of_le le_rfl hr, hm]

theorem narrowCode_q4i_neg {m : Nat} {r : Rounding} (hpos : m ≠ 0) (hm : m ≤ 8) (hr : ∀ u, r = .sr u → u < 2 ^ 16) :
    narrowCode .q4i 0 r (.fin true m 0) = (16 - m, false) := by
  simp [narrowCode, round_cutAt_of_le le_rfl hr, hpos, hm]

/-- Settles O6: a code's value is its two's complement reading, a whole number in the range of Q4i, so narrowing keeps it. -/
theorem q4iCodesAreTwoSComplement : Obligations.q4i_codes_are_two_s_complement := by
  refine ⟨fun n => decodeCode_q4i_nonneg, fun n => decodeCode_q4i_neg, fun n r hn hr => ?_⟩
  rcases Nat.lt_or_ge n 8 with hlo | hhi
  · rw [decodeCode_q4i_nonneg hlo, narrowCode_q4i_nonneg (by omega) hr]
  · rw [decodeCode_q4i_neg hhi hn, narrowCode_q4i_neg (by omega) (by omega) hr, Nat.sub_sub_self hn.le]

end Sys2Proof.Machine

/-! VERDICT (05 R124, Table 05-5): what the operations of a verdict do to the channel they act on, then each kind of verdict, then
the table. -/

namespace Sys2Proof.Machine

/-! ### What the operations of a verdict change -/

/-- What every step of a fold keeps, the fold keeps. -/
theorem foldl_keeps {α β γ : Type} (g : β → γ) {f : β → α → β} (h : ∀ b a, g (f b a) = g b) (l : List α) (b : β) :
    g (l.foldl f b) = g b := by
  induction l generalizing b with
  | nil => rfl
  | cons a l ih => rw [List.foldl_cons, ih, h]

theorem count_eq_of_clock {s t : State} (h : t.clock = s.clock) : t.count = s.count := congrArg (fun k => k.2.1) h

/-- An entry appended to a channel's log (16 R371, R372). -/
def Ctl.withEntry (k : Ctl) (e : LogEntry) : Ctl :=
  { k with log := lastN 4096 (logPlace e k.log), logNext := (k.logNext + 1) % 2 ^ 32 }

@[simp] theorem st_withEntry (k : Ctl) (e : LogEntry) : (k.withEntry e).st = k.st := by
  cases k; simp [Ctl.withEntry]
@[simp] theorem log_withEntry (k : Ctl) (e : LogEntry) : (k.withEntry e).log = lastN 4096 (logPlace e k.log) := by
  simp [Ctl.withEntry]
@[simp] theorem logNext_withEntry (k : Ctl) (e : LogEntry) : (k.withEntry e).logNext = (k.logNext + 1) % 2 ^ 32 := by
  simp [Ctl.withEntry]

section Operations
variable (s : State) (c : Ch)

@[simp] theorem ch_toFlash (e : LogEntry) : (s.toFlash e).ch c = s.ch c := by
  unfold State.toFlash; split <;> simp

@[simp] theorem freeNo_toFlash (e : LogEntry) : (s.toFlash e).freeNo = s.freeNo := by
  unfold State.toFlash; split <;> simp

@[simp] theorem ch_logAs (order source code : Nat) (param : List Byte) :
    let e : LogEntry := { count := s.count, source := source, code := code, param := param, order := order }
    (s.logAs c order source code param).ch c =
      { s.ch c with ctl := (s.ch c).ctl.withEntry e, host := { (s.ch c).host with evt := (s.ch c).host.evt.note e } } := by
  simp [State.logAs, Ctl.withEntry]

@[simp] theorem freeNo_logAs (order source code : Nat) (param : List Byte) :
    (s.logAs c order source code param).freeNo = s.freeNo := by simp [State.logAs]

@[simp] theorem ch_logNum (source code layer occ gauges pass causes engine param : Nat) :
    let x := s.ch c
    let e : LogEntry :=
      { count := s.count, source := source, code := code, order := source
        param := numericsBytes layer occ x.run.ticketStep x.rank gauges pass causes engine param }
    (s.logNum c source code layer occ gauges pass causes engine param).ch c =
      { x with ctl := x.ctl.withEntry e, host := { x.host with evt := x.host.evt.note e } } := ch_logAs ..

@[simp] theorem freeNo_logNum (source code layer occ gauges pass causes engine param : Nat) :
    (s.logNum c source code layer occ gauges pass causes engine param).freeNo = s.freeNo := freeNo_logAs ..

/-- CAUSES stands at byte 12 of a numerics entry's parameters (05 Table 05-7). -/
theorem getD_numericsBytes_causes (layer occ : Nat) (tstep : W32) (rank gauges pass causes engine param : Nat) :
    (numericsBytes layer occ tstep rank gauges pass causes engine param).getD 12 0 = BitVec.ofNat 8 causes := rfl

@[simp] theorem ch_touch : (s.touch c).ch c = { s.ch c with run := { (s.ch c).run with activeAt := s.count } } :=
  ch_onRun_same ..

@[simp] theorem m_touch : (s.touch c).m = s.m := id rfl
@[simp] theorem freeNo_touch : (s.touch c).freeNo = s.freeNo := id rfl

@[simp] theorem ch_addDown (since : Nat) :
    (s.addDown c since).ch c =
      { s.ch c with ctl := { (s.ch c).ctl with downtime := (s.ch c).ctl.downtime + (s.count - since) } } := ch_onCtl_same ..

end Operations

/-! ### The mismatches of a pass (05 R140) -/

section Mismatches
variable (s : State) (c : Ch) (o : Occ) (g : Nat)

@[simp] theorem run_logMismatches : ((s.logMismatches c o g).ch c).run = (s.ch c).run :=
  foldl_keeps (fun t : State => (t.ch c).run) (by simp) _ _

@[simp] theorem watch_logMismatches : ((s.logMismatches c o g).ch c).watch = (s.ch c).watch :=
  foldl_keeps (fun t : State => (t.ch c).watch) (by simp) _ _

@[simp] theorem mem_logMismatches : ((s.logMismatches c o g).ch c).mem = (s.ch c).mem :=
  foldl_keeps (fun t : State => (t.ch c).mem) (by simp) _ _

@[simp] theorem st_logMismatches : ((s.logMismatches c o g).ch c).ctl.st = (s.ch c).ctl.st :=
  foldl_keeps (fun t : State => (t.ch c).ctl.st) (by simp) _ _

@[simp] theorem freeNo_logMismatches : (s.logMismatches c o g).freeNo = s.freeNo :=
  foldl_keeps (fun t : State => t.freeNo) (by simp) _ _

@[simp] theorem count_logMismatches : (s.logMismatches c o g).count = s.count :=
  count_eq_of_clock (logMismatches_clock ..)

variable {o} in
theorem logMismatches_of_none (h : o.mismatched = []) : s.logMismatches c o g = s := by
  simp [State.logMismatches, h]

/-- A fold of steps that each log one entry advances LOG_NEXT by the number of its steps. -/
theorem logNext_foldl {α : Type} {f : State → α → State}
    (hf : ∀ t a, ((f t a).ch c).ctl.logNext = ((t.ch c).ctl.logNext + 1) % 2 ^ 32)
    (l : List α) (hs : (s.ch c).ctl.logNext < 2 ^ 32) :
    ((l.foldl f s).ch c).ctl.logNext = ((s.ch c).ctl.logNext + l.length) % 2 ^ 32 := by
  induction l generalizing s with
  | nil => exact (Nat.mod_eq_of_lt hs).symm
  | cons a l ih =>
    rw [List.foldl_cons, ih _ (by rw [hf]; omega), hf, List.length_cons]
    omega

theorem logNext_logMismatches (hs : (s.ch c).ctl.logNext < 2 ^ 32) :
    ((s.logMismatches c o g).ch c).ctl.logNext = ((s.ch c).ctl.logNext + o.mismatched.length) % 2 ^ 32 :=
  logNext_foldl s c (by simp) _ hs

theorem mem_logPlace {e y : LogEntry} {l : List LogEntry} (h : y ∈ logPlace e l) : y = e ∨ y ∈ l := by
  rcases List.mem_append.mp h with hb | ha
  · exact .inr ((List.takeWhile_sublist _).mem hb)
  · exact (List.mem_cons.mp ha).imp_right (List.dropWhile_sublist _).mem

theorem mem_log_withEntry {k : Ctl} {e y : LogEntry} (h : y ∈ (k.withEntry e).log) : y = e ∨ y ∈ k.log := by
  rw [log_withEntry] at h
  exact mem_logPlace (List.mem_of_mem_drop h)

/-- Whatever the log holds after the mismatches is a CROWSNEST_MISMATCH entry of the moment or was there before. -/
theorem mem_log_logMismatches {y : LogEntry} (h : y ∈ ((s.logMismatches c o g).ch c).ctl.log) :
    y ∈ (s.ch c).ctl.log ∨ (y.code = 0x0503 ∧ y.count = s.count) := by
  unfold State.logMismatches at h
  generalize o.mismatched = ms at h
  induction ms generalizing s with
  | nil => exact .inl h
  | cons m l ih =>
    rw [List.foldl_cons] at h
    rcases ih _ h with hold | ⟨hcode, hcount⟩
    · rw [ch_logNum] at hold
      rcases mem_log_withEntry hold with rfl | hold
      · exact .inr ⟨rfl, rfl⟩
      · exact .inl hold
    · exact .inr ⟨hcode, hcount.trans (count_eq_of_clock (logNum_clock ..))⟩

end Mismatches

/-! ### The way to HOLD (03 R89, 12 R308) -/

/-- A channel with its host slice set aside. -/
def Chan.besidesHost (x : Chan) : Chan := { x with host := HostLink.reset }

section Hold
variable (s : State) (c : Ch)

theorem sendHostOp_besidesHost (o : HostOp) : ((s.sendHostOp c o).ch c).besidesHost = (s.ch c).besidesHost := by
  unfold State.sendHostOp
  split <;> simp [Chan.besidesHost]

theorem hostOp_besidesHost (o : HostOp) : ((s.hostOp c o).ch c).besidesHost = (s.ch c).besidesHost :=
  (sendHostOp_besidesHost ..).trans (by simp [Chan.besidesHost])

theorem writeBack_besidesHost (ls : List DepotLine) : ((s.writeBack c ls).ch c).besidesHost = (s.ch c).besidesHost := by
  refine foldl_keeps (fun t : State => (t.ch c).besidesHost) (fun t l => ?_) _ _
  split
  · exact foldl_keeps (fun t : State => (t.ch c).besidesHost) (fun t y => hostOp_besidesHost ..) _ _
  · rfl

@[simp] theorem ctl_depotWriteBack : ((s.depotWriteBack c).ch c).ctl = (s.ch c).ctl := by
  have h := congrArg Chan.ctl (writeBack_besidesHost s c (s.ch c).mem.lines)
  simpa [State.depotWriteBack, Chan.besidesHost] using h

@[simp] theorem run_depotWriteBack : ((s.depotWriteBack c).ch c).run = (s.ch c).run := by
  have h := congrArg Chan.run (writeBack_besidesHost s c (s.ch c).mem.lines)
  simpa [State.depotWriteBack, Chan.besidesHost] using h

@[simp] theorem watch_depotWriteBack : ((s.depotWriteBack c).ch c).watch = (s.ch c).watch := by
  have h := congrArg Chan.watch (writeBack_besidesHost s c (s.ch c).mem.lines)
  simpa [State.depotWriteBack, Chan.besidesHost] using h

@[simp] theorem store_depotWriteBack : ((s.depotWriteBack c).ch c).mem.store = (s.ch c).mem.store := by
  have h := congrArg (fun x => x.mem.store) (writeBack_besidesHost s c (s.ch c).mem.lines)
  simpa [State.depotWriteBack, Chan.besidesHost, Memory.store] using h

variable (code order : Nat) (param : List Byte)

@[simp] theorem st_enterHold : ((s.enterHold c code order param).ch c).ctl.st = .hold := by
  simp [State.enterHold, State.setChState]

@[simp] theorem holdStatus_enterHold : ((s.enterHold c code order param).ch c).run.holdStatus = code := by
  simp [State.enterHold]

@[simp] theorem watch_enterHold : ((s.enterHold c code order param).ch c).watch = (s.ch c).watch := by
  simp [State.enterHold, State.setChState]

@[simp] theorem store_enterHold : ((s.enterHold c code order param).ch c).mem.store = (s.ch c).mem.store := by
  simp [State.enterHold, State.setChState]

theorem log_enterHold :
    ∃ f, ((s.enterHold c code order param).ch c).ctl.log = lastN 4096 (logPlace f (s.ch c).ctl.log) ∧ f.code = code := by
  simp only [State.enterHold, ch_logAs, log_withEntry]
  exact ⟨_, by simp [State.setChState]; rfl, rfl⟩

end Hold

/-! ### A cause that stops the channel -/

section Stops
variable {s : State} {c : Ch}

theorem settle_of_no_stop (h : (s.ch c).run.stops = []) : s.settle c = s := by simp [State.settle, h]

/-- Where one cause has stopped the channel, it stands until the channel is quiet and then holds it (03 R89, 16 R374). -/
theorem settle_of_one_stop {p : Stop} (h : (s.ch c).run.stops = [p]) :
    s.settle c = s ∨ s.settle c = s.enterHold c p.cause p.order p.param ∨
      s.settle c = (s.enterHold c p.cause p.order p.param).addDown c p.since := by
  unfold State.settle
  refine (ite_eq_or_eq _ _ _).imp_right (fun hheld => ?_)
  rw [hheld, h]
  cases hd : downCause p.cause with
  | true => exact .inr (by simp [hd])
  | false => exact .inl (by simp [hd])

/-- A running channel stopped for a cause stands stopped or holds for it; the hold adds its own entry to the log. -/
theorem stopFor_then_settle (hst : (s.ch c).ctl.st = .running) (hstops : (s.ch c).run.stops = [])
    (code order : Nat) (param : List Byte) :
    let y := (((s.stopFor c code order param).touch c).settle c).ch c
    y.watch = (s.ch c).watch ∧ y.mem.store = (s.ch c).mem.store ∧ y.stoppedFor code ∧
      (y.ctl.log = (s.ch c).ctl.log ∨ ∃ f, y.ctl.log = lastN 4096 (logPlace f (s.ch c).ctl.log) ∧ f.code = code) := by
  let p : Stop := { cause := code, order := order, param := param, since := s.count }
  have hu : ((s.stopFor c code order param).touch c).ch c =
      { s.ch c with run := { (s.ch c).run with stops := [p], activeAt := s.count } } := by
    simp [State.stopFor, hst, hstops, p]
  generalize (s.stopFor c code order param).touch c = u at hu ⊢
  have hlog := log_enterHold u c code order param
  rw [hu] at hlog
  rcases settle_of_one_stop (s := u) (c := c) (p := p) (by rw [hu]) with hsame | hheld | hheld
  · simp [hsame, hu, Chan.stoppedFor, hst, p]
  · simpa [hheld, hu, Chan.stoppedFor, p] using .inr hlog
  · simpa [hheld, hu, Chan.stoppedFor, p] using .inr hlog

end Stops

/-! ### The occurrences of a watch -/

section Occurrences
variable {w : Watch} {layer occ : Nat} {o : Occ}

theorem key_of_occ? (h : w.occ? layer occ = some o) : o.layer = layer ∧ o.occ = occ := by
  simpa using List.find?_some h

/-- An occurrence that has been removed is no longer found. -/
theorem occ?_of_removed {v : Watch} (h : v.occs = w.occs.filter (fun p => !(p.layer == layer && p.occ == occ))) :
    v.occ? layer occ = none := by
  rw [Watch.occ?, List.find?_eq_none, h]
  intro p hp
  simpa only [Bool.not_eq_true', Bool.not_eq_true] using (List.mem_filter.mp hp).2

/-- Only the list of occurrences is looked into. -/
theorem occ?_congr {v : Watch} (h : v.occs = w.occs) : v.occ? layer occ = w.occ? layer occ := by simp only [Watch.occ?, h]

/-- A changed occurrence is found under the key it keeps. -/
theorem occ?_onOcc {f : Occ → Occ} (hf : ∀ p, (f p).layer = p.layer ∧ (f p).occ = p.occ) (h : w.occ? layer occ = some o) :
    (w.onOcc layer occ f).occ? layer occ = some (f o) := by
  have hkey : ((fun p : Occ => p.layer == layer && p.occ == occ) ∘ fun p => if p.layer = layer ∧ p.occ = occ then f p else p) =
      fun p => p.layer == layer && p.occ == occ := by
    funext p
    by_cases hp : p.layer = layer ∧ p.occ = occ <;> simp [hp, hf]
  rw [Watch.occ?] at h
  rw [Watch.occ?, Watch.onOcc, List.find?_map, hkey, h, Option.map_some, if_pos (key_of_occ? h)]

end Occurrences

/-! ### Replay (05 R126, 06 R165) -/

/-- A channel with its consists and signals set aside. -/
def Chan.besidesConsists (x : Chan) : Chan := { x with run := { x.run with sigs := [], clusters := [] } }

/-- The occurrence as its next pass begins (05 R126). -/
def Occ.nextPass (o : Occ) (rung : Nat) (moved : List (Nat × Nat)) (causeT : Bool) : Occ :=
  { o with pass := o.pass + 1, rung := rung, parts := none, reports := [], counts := {}, contribs := [], maxExp := none
           causeC := false, mismatched := [], moved := moved, toldT := causeT }

theorem onCluster_besidesConsists (s : State) (c : Ch) (k : Nat) (f : Cluster → Cluster) :
    ((s.onCluster c k f).ch c).besidesConsists = (s.ch c).besidesConsists := by
  simp [State.onCluster, Chan.besidesConsists, Run.setCluster]

section Replay
variable (s : State) (c : Ch) (o : Occ) (rung : Nat) (moved : List (Nat × Nat)) (causeO causeT : Bool)

/-- A replay puts consists and signals back and then begins the next pass of its occurrence. -/
theorem replay_eq : ∃ (u : State) (f : Watch → Watch), s.replay c o rung moved causeO causeT = u.onWatch c f ∧
    (u.ch c).besidesConsists = (s.ch c).besidesConsists ∧
    ∀ w, (f w).occs = (w.onOcc o.layer o.occ (fun p => p.nextPass rung moved causeT)).occs := by
  unfold State.replay
  refine ⟨_, _, rfl, ?_, fun w => ?_⟩
  · refine (foldl_keeps (fun t : State => (t.ch c).besidesConsists) (fun t p => onCluster_besidesConsists ..) _ _).trans ?_
    split <;> simp [Chan.besidesConsists]
  · exact (apply_ite Watch.occs _ _ _).trans (ite_self _)

/-- What a replay leaves of the channel beside its watch. -/
theorem replay_besidesWatch {γ : Type} (g : Chan → γ) (hg : ∀ (x : Chan) w, g { x with watch := w } = g x.besidesConsists) :
    g ((s.replay c o rung moved causeO causeT).ch c) = g (s.ch c) := by
  obtain ⟨u, f, heq, hkept, -⟩ := replay_eq s c o rung moved causeO causeT
  rw [heq, ch_onWatch_same, hg, hkept, ← hg (s.ch c) (s.ch c).watch]

@[simp] theorem ctl_replay : ((s.replay c o rung moved causeO causeT).ch c).ctl = (s.ch c).ctl :=
  replay_besidesWatch (g := Chan.ctl) (hg := fun _ _ => rfl) ..

@[simp] theorem mem_replay : ((s.replay c o rung moved causeO causeT).ch c).mem = (s.ch c).mem :=
  replay_besidesWatch (g := Chan.mem) (hg := fun _ _ => rfl) ..

@[simp] theorem posts_replay : ((s.replay c o rung moved causeO causeT).ch c).run.posts = (s.ch c).run.posts :=
  replay_besidesWatch (g := fun x => x.run.posts) (hg := fun _ _ => rfl) ..

@[simp] theorem stops_replay : ((s.replay c o rung moved causeO causeT).ch c).run.stops = (s.ch c).run.stops :=
  replay_besidesWatch (g := fun x => x.run.stops) (hg := fun _ _ => rfl) ..

variable {s c o} in
theorem occ?_replay (h : (s.ch c).watch.occ? o.layer o.occ = some o) :
    ((s.replay c o rung moved causeO causeT).ch c).watch.occ? o.layer o.occ = some (o.nextPass rung moved causeT) := by
  obtain ⟨u, f, heq, hkept, hf⟩ := replay_eq s c o rung moved causeO causeT
  have hwatch : (u.ch c).watch = (s.ch c).watch := by simpa [Chan.besidesConsists] using congrArg Chan.watch hkept
  rw [heq, ch_onWatch_same, occ?_congr (hf _), hwatch]
  exact occ?_onOcc (fun _ => ⟨rfl, rfl⟩) h

end Replay

/-! ### Commit (05 R117, R123) -/

/-- A channel with its pending posts and the notes of its progress set aside. -/
def Chan.besidesPosts (x : Chan) : Chan :=
  { x with run := { x.run with posts := [], nextId := 0, progressAt := 0, activeAt := 0 } }

/-- Where a pending post goes: its cluster and its signal. -/
def PendPost.place (p : PendPost) : Nat × Nat := (p.cl, p.sig)

/-- The post of a COMMIT car is left to be made (05 R117). -/
def State.commitPost (c : Ch) (s : State) (p : Report) : State := (s.newId c).2.pendPost c p.cl p.car (s.newId c).1

section Commit
variable (s : State) (c : Ch)

@[simp] theorem ch_newId : (s.newId c).2.ch c = { s.ch c with run := { (s.ch c).run with nextId := (s.ch c).run.nextId + 1 } } :=
  ch_onRun_same ..

@[simp] theorem ch_pendPost (k : Nat) (car : Car) (id : Nat) :
    let post : List PendPost := if Car.postEn car then [{ id := id, cl := k, sig := Car.postSig car }] else []
    (s.pendPost c k car id).ch c =
      { s.ch c with
        run := { (s.ch c).run with progressAt := s.count, activeAt := s.count, posts := (s.ch c).run.posts ++ post } } := by
  unfold State.pendPost State.progress
  split <;> simp [*]

theorem commitPost_besidesPosts (p : Report) : ((s.commitPost c p).ch c).besidesPosts = (s.ch c).besidesPosts := by
  simp [State.commitPost, Chan.besidesPosts]

theorem commitPosts_besidesPosts (l : List Report) :
    ((l.foldl (State.commitPost c) s).ch c).besidesPosts = (s.ch c).besidesPosts :=
  foldl_keeps (fun t : State => (t.ch c).besidesPosts) (commitPost_besidesPosts · c) l s

theorem m_commitPost (p : Report) : (s.commitPost c p).m = s.m := by
  unfold State.commitPost State.pendPost; split <;> rfl

theorem freeNo_commitPost (p : Report) : (s.commitPost c p).freeNo = s.freeNo := by
  unfold State.commitPost State.pendPost; split <;> rfl

/-- A fold of COMMIT reports leaves a post of each car that has one. -/
theorem places_commitPosts (l : List Report) :
    ((l.foldl (State.commitPost c) s).ch c).run.posts.map PendPost.place =
      (s.ch c).run.posts.map PendPost.place ++
        (l.filter (fun p => Car.postEn p.car)).map (fun p => (p.cl, Car.postSig p.car)) := by
  induction l generalizing s with
  | nil => simp
  | cons p l ih =>
    rw [List.foldl_cons, ih]
    by_cases hp : Car.postEn p.car <;> simp [State.commitPost, PendPost.place, hp]

/-- A commit takes the occurrence off the watch, notes it for the boundary and leaves the posts of its reports. -/
theorem commitOcc_eq (o : Occ) : ∃ f : Watch → Watch, s.commitOcc c o = o.reports.foldl (State.commitPost c) (s.onWatch c f) ∧
    ∀ w, (f w).occs = w.occs.filter (fun p => !(p.layer == o.layer && p.occ == o.occ)) ∧
      (f w).committed.length = w.committed.length + 1 :=
  ⟨_, rfl, fun _ => ⟨rfl, by simp⟩⟩

/-- What a commit leaves of the channel beside its watch. -/
theorem commitOcc_besidesWatch {γ : Type} (o : Occ) (g : Chan → γ)
    (hg : ∀ (x : Chan) w, g { x with watch := w } = g x.besidesPosts) : g ((s.commitOcc c o).ch c) = g (s.ch c) := by
  obtain ⟨f, heq, -⟩ := commitOcc_eq s c o
  have hself : ∀ x : Chan, g x.besidesPosts = g x := fun x => (hg x x.watch).symm
  rw [heq, ← hself, commitPosts_besidesPosts, hself, ch_onWatch_same, hg, hself]

@[simp] theorem ctl_commitOcc (o : Occ) : ((s.commitOcc c o).ch c).ctl = (s.ch c).ctl :=
  commitOcc_besidesWatch (g := Chan.ctl) (hg := fun _ _ => rfl) ..

@[simp] theorem mem_commitOcc (o : Occ) : ((s.commitOcc c o).ch c).mem = (s.ch c).mem :=
  commitOcc_besidesWatch (g := Chan.mem) (hg := fun _ _ => rfl) ..

@[simp] theorem clusters_commitOcc (o : Occ) : ((s.commitOcc c o).ch c).run.clusters = (s.ch c).run.clusters :=
  commitOcc_besidesWatch (g := fun x => x.run.clusters) (hg := fun _ _ => rfl) ..

@[simp] theorem stops_commitOcc (o : Occ) : ((s.commitOcc c o).ch c).run.stops = (s.ch c).run.stops :=
  commitOcc_besidesWatch (g := fun x => x.run.stops) (hg := fun _ _ => rfl) ..

@[simp] theorem m_commitOcc (o : Occ) : (s.commitOcc c o).m = s.m :=
  foldl_keeps State.m (m_commitPost · c) ..

@[simp] theorem freeNo_commitOcc (o : Occ) : (s.commitOcc c o).freeNo = s.freeNo :=
  foldl_keeps State.freeNo (freeNo_commitPost · c) ..

theorem places_commitOcc (o : Occ) :
    ((s.commitOcc c o).ch c).run.posts.map PendPost.place =
      (s.ch c).run.posts.map PendPost.place ++
        (o.reports.filter (fun p => Car.postEn p.car)).map (fun p => (p.cl, Car.postSig p.car)) := by
  obtain ⟨f, heq, -⟩ := commitOcc_eq s c o
  rw [heq, places_commitPosts, ch_onWatch_same]

/-- The watch after a commit no longer has the occurrence undecided, and has noted it for the boundary. -/
theorem watch_commitOcc (o : Occ) : ((s.commitOcc c o).ch c).watch.occ? o.layer o.occ = none ∧
    ((s.commitOcc c o).ch c).watch.committed.length = (s.ch c).watch.committed.length + 1 := by
  obtain ⟨f, heq, hf⟩ := commitOcc_eq s c o
  obtain ⟨hremoved, hnoted⟩ := hf (s.ch c).watch
  have hwatch : ((s.commitOcc c o).ch c).watch = f (s.ch c).watch := by
    rw [heq]
    simpa [Chan.besidesPosts] using congrArg Chan.watch (commitPosts_besidesPosts (s.onWatch c f) c o.reports)
  rw [hwatch]
  exact ⟨occ?_of_removed hremoved, hnoted⟩

end Commit

/-! ### Table 05-5 -/

/-- The verdict of a pass (05 Table 05-5). -/
def Chan.passVerdict (x : Chan) (o : Occ) : Verdict :=
  verdictOf o.suspect (o.counts.overflow != 0) ((telltales x o).1 != 0) o.causeC o.toldT o.rung (recCeil (x.layerRec o.layer))

/-- CAUSES of a pass: every cause it has, whatever row decides (05 R124, Table 05-7). -/
def Chan.passCauses (x : Chan) (o : Occ) : Nat :=
  (if o.counts.overflow != 0 then 1 else 0) + (if (telltales x o).1 != 0 then 2 else 0) + (if o.causeC then 4 else 0) +
    (telltales x o).1

/-- ENGINE of a verdict's entry: the first engine that mismatched (05 Table 05-7). -/
def Occ.passEngine (o : Occ) : Nat := match o.mismatched with | m :: _ => m.1 | [] => 0xffff

/-- The value that a verdict's entry records: the overflow count, the norm that trips, or the mismatch (05 Table 05-7). -/
def Chan.passValue (x : Chan) (o : Occ) : Nat :=
  if o.counts.overflow != 0 then o.counts.overflow % 2 ^ 32
  else if (telltales x o).1 != 0 then (telltales x o).2.toNat
  else match o.mismatched with | m :: _ => m.2 | [] => 0

section Rows
variable {x : Chan} {o : Occ}

theorem passVerdict_of_suspect (h : o.suspect = true) : x.passVerdict o = .hold 0x105 := by
  simp [Chan.passVerdict, verdictOf, h]

variable (hs : o.suspect = false)
include hs

theorem passVerdict_of_told (ht : (telltales x o).1 ≠ 0) (htold : o.toldT = true) : x.passVerdict o = .hold 0x104 := by
  simp [Chan.passVerdict, verdictOf, hs, ht, htold]

theorem passVerdict_at_ceiling (htold : ¬((telltales x o).1 ≠ 0 ∧ o.toldT = true))
    (hot : o.counts.overflow ≠ 0 ∨ (telltales x o).1 ≠ 0) (hr : o.rung = recCeil (x.layerRec o.layer)) :
    x.passVerdict o = .hold 0x103 := by
  rw [Chan.passVerdict, verdictOf, hs, if_neg Bool.false_ne_true, if_neg (by simpa using htold), if_pos (by simpa [hr] using hot)]

theorem passVerdict_below_ceiling (htold : ¬((telltales x o).1 ≠ 0 ∧ o.toldT = true))
    (hot : o.counts.overflow ≠ 0 ∨ (telltales x o).1 ≠ 0) (hr : o.rung < recCeil (x.layerRec o.layer)) :
    x.passVerdict o = .replay (o.rung + 1) false := by
  rw [Chan.passVerdict, verdictOf, hs, if_neg Bool.false_ne_true, if_neg (by simpa using htold), if_neg (by simp [hr.ne]),
    if_pos (by simpa using hot)]

variable (hot : ¬(o.counts.overflow ≠ 0 ∨ (telltales x o).1 ≠ 0))
include hot

theorem passVerdict_of_crowsnest (hc : o.causeC = true) :
    x.passVerdict o = .replay (if o.rung < recCeil (x.layerRec o.layer) then o.rung + 1 else o.rung) true := by
  obtain ⟨ho, ht⟩ : o.counts.overflow = 0 ∧ (telltales x o).1 = 0 := by simpa using hot
  simp [Chan.passVerdict, verdictOf, hs, ho, ht, hc]

theorem passVerdict_of_no_cause (hc : o.causeC = false) : x.passVerdict o = .commit := by
  obtain ⟨ho, ht⟩ : o.counts.overflow = 0 ∧ (telltales x o).1 = 0 := by simpa using hot
  simp [Chan.passVerdict, verdictOf, hs, ho, ht, hc]

end Rows

/-! ### Carrying a verdict out -/

/-- An occurrence is taken off the watch. -/
def State.dropOcc (s : State) (c : Ch) (o : Occ) : State :=
  s.onWatch c (fun w => { w with occs := w.occs.filter (fun p => !(p.layer == o.layer && p.occ == o.occ)) })

/-- What the watch does for a verdict on an occurrence of the channel `x` (05 R124, R140). -/
def State.enactVerdict (s : State) (c : Ch) (x : Chan) (o : Occ) : Verdict → State
  | .commit => s.commitOcc c o
  | .replay rung relocated =>
    let gauges := gaugeAt (x.layerRec o.layer) o rung x.run.ticketStep * 16 + gaugeNow o x.run.ticketStep
    (s.logNum c 0x7fff 0x0501 o.layer o.occ gauges o.pass (x.passCauses o) o.passEngine (x.passValue o)).replay c o rung
      (if relocated then o.moved ++ o.mismatched else o.moved) (o.counts.overflow != 0) ((telltales x o).1 != 0)
  | .hold code =>
    let gauges := gaugeNow o x.run.ticketStep * 16 + gaugeNow o x.run.ticketStep
    let t := (s.logNum c 0x7fff 0x0502 o.layer o.occ gauges o.pass (x.passCauses o) o.passEngine (x.passValue o)).dropOcc c o
    t.stopFor c code 0x7fff
      (numericsBytes o.layer o.occ x.run.ticketStep x.rank gauges o.pass (x.passCauses o) o.passEngine (x.passValue o))

/-- The machine after the mismatches of a pass have been logged, which goes before its verdict (05 R140, log entry 28). -/
def State.afterMismatches (s : State) (c : Ch) (o : Occ) : State := s.logMismatches c o (gaugeNow o (s.ch c).run.ticketStep)

/-- The machine after a verdict. -/
def State.afterVerdict (s : State) (c : Ch) (o : Occ) (v : Verdict) : State :=
  (((s.afterMismatches c o).enactVerdict c (s.ch c) o v).touch c).settle c

section Enact
variable {s : State} {c : Ch} {o : Occ}

theorem execVerdict_eq {layer occ : Nat} (hocc : (s.ch c).watch.occ? layer occ = some o)
    (hready : o.ready (s.ch c).watch = true) (hst : (s.ch c).ctl.st = .running) :
    execVerdict c layer occ s = .next (s.afterVerdict c o ((s.ch c).passVerdict o)) := by
  obtain ⟨rfl, rfl⟩ := key_of_occ? hocc
  unfold execVerdict
  simp only [hocc]
  rw [if_neg (by simp [hready, hst])]
  unfold State.afterVerdict Chan.passVerdict
  generalize verdictOf _ _ _ _ _ _ _ = v
  cases v <;> rfl

/-- The log has taken the entry of a verdict, with every cause of the pass (05 R124, Table 05-7). -/
def State.tookVerdict (s : State) (c : Ch) (o : Occ) (l : List LogEntry) (code : Nat) : Prop :=
  ∃ e, l = lastN 4096 (logPlace e ((s.afterMismatches c o).ch c).ctl.log) ∧ e.code = code ∧ e.count = s.count ∧
    e.param.getD 12 0 = BitVec.ofNat 8 ((s.ch c).passCauses o)

theorem tookVerdict_logNum (source code layer occ gauges pass engine param : Nat) :
    s.tookVerdict c o (((s.afterMismatches c o).logNum c source code layer occ gauges pass ((s.ch c).passCauses o) engine param).ch
      c).ctl.log code := by
  rw [ch_logNum]
  exact ⟨_, log_withEntry .., rfl, count_logMismatches .., getD_numericsBytes_causes ..⟩

variable (hstops : (s.ch c).run.stops = [])
include hstops

/-- A HOLD verdict removes the occurrence, logs 0x0502 and stops the channel for its code (05 R125). -/
theorem afterVerdict_hold (hst : (s.ch c).ctl.st = .running) (code : Nat) :
    let y := (s.afterVerdict c o (.hold code)).ch c
    y.mem.store = (s.ch c).mem.store ∧ y.watch.occ? o.layer o.occ = none ∧ y.stoppedFor code ∧
      ∃ l, s.tookVerdict c o l 0x0502 ∧ (y.ctl.log = l ∨ ∃ f, y.ctl.log = lastN 4096 (logPlace f l) ∧ f.code = code) := by
  unfold State.afterVerdict State.enactVerdict
  dsimp only
  generalize hu : State.dropOcc _ _ _ = u
  have hlog : s.tookVerdict c o (u.ch c).ctl.log 0x0502 := by
    rw [← hu, State.dropOcc, ch_onWatch_same]
    exact tookVerdict_logNum ..
  have hgone : (u.ch c).watch.occ? o.layer o.occ = none := by
    rw [← hu, State.dropOcc, ch_onWatch_same]
    exact occ?_of_removed rfl
  have hrunning : (u.ch c).ctl.st = .running := by simp [← hu, State.dropOcc, State.afterMismatches, hst]
  have hnone : (u.ch c).run.stops = [] := by simp [← hu, State.dropOcc, State.afterMismatches, hstops]
  have hmem : (u.ch c).mem = (s.ch c).mem := by simp [← hu, State.dropOcc, State.afterMismatches]
  obtain ⟨hwatch, hstore, hfor, hentered⟩ := stopFor_then_settle hrunning hnone code 0x7fff (numericsBytes _ _ _ _ _ _ _ _ _)
  have hremoved := (occ?_congr (congrArg Watch.occs hwatch)).trans hgone
  exact ⟨hstore.trans (congrArg Memory.store hmem), hremoved, hfor, _, hlog, hentered⟩

/-- A replay logs 0x0501 and begins the next pass; every post stays to be made (05 R126). -/
theorem afterVerdict_replay (hocc : (s.ch c).watch.occ? o.layer o.occ = some o) (rung : Nat) (relocated : Bool) :
    let y := (s.afterVerdict c o (.replay rung relocated)).ch c
    y.mem = (s.ch c).mem ∧ s.tookVerdict c o y.ctl.log 0x0501 ∧ y.run.posts = (s.ch c).run.posts ∧
      y.watch.occ? o.layer o.occ = some (o.nextPass rung (if relocated then o.moved ++ o.mismatched else o.moved)
        ((telltales (s.ch c) o).1 != 0)) := by
  unfold State.afterVerdict State.enactVerdict
  rw [settle_of_no_stop (by simp [State.afterMismatches, hstops])]
  refine ⟨by simp [State.afterMismatches], ?_, by simp [State.afterMismatches], ?_⟩
  · simpa using tookVerdict_logNum ..
  · rw [ch_touch]
    exact occ?_replay _ _ _ _ (by simpa [State.afterMismatches] using hocc)

/-- A commit logs nothing beside the mismatches and leaves the posts of its COMMIT cars to be made (05 R117, R123). -/
theorem afterVerdict_commit :
    let t := s.afterVerdict c o .commit
    (t.ch c).mem = (s.ch c).mem ∧ t.freeNo = s.freeNo ∧ t.m = (s.afterMismatches c o).m ∧
      (t.ch c).ctl = ((s.afterMismatches c o).ch c).ctl ∧ (t.ch c).watch.occ? o.layer o.occ = none ∧
      (t.ch c).run.clusters = (s.ch c).run.clusters ∧
      (t.ch c).run.posts.map PendPost.place = (s.ch c).run.posts.map PendPost.place ++
        (o.reports.filter (fun p => Car.postEn p.car)).map (fun p => (p.cl, Car.postSig p.car)) ∧
      (t.ch c).watch.committed.length = (s.ch c).watch.committed.length + 1 := by
  unfold State.afterVerdict State.enactVerdict
  rw [settle_of_no_stop (by simp [State.afterMismatches, hstops])]
  obtain ⟨hgone, hnoted⟩ := watch_commitOcc (s.afterMismatches c o) c o
  have hplaces := places_commitOcc (s.afterMismatches c o) c o
  simp only [ch_touch, m_touch, freeNo_touch, hgone, hnoted, hplaces]
  simp [State.afterMismatches]

/-- No verdict touches what memory holds. -/
theorem store_afterVerdict (hst : (s.ch c).ctl.st = .running) (hocc : (s.ch c).watch.occ? o.layer o.occ = some o) (v : Verdict) :
    ((s.afterVerdict c o v).ch c).mem.store = (s.ch c).mem.store := by
  cases v with
  | commit => exact congrArg Memory.store (afterVerdict_commit hstops).1
  | replay rung relocated => exact congrArg Memory.store (afterVerdict_replay hstops hocc rung relocated).1
  | hold code => exact (afterVerdict_hold hstops hst code).1

end Enact

theorem passCauses_eq (x : Chan) (o : Occ) : x.passCauses o =
    (if o.counts.overflow ≠ 0 then 1 else 0) + (if (telltales x o).1 ≠ 0 then 2 else 0) + (if o.causeC then 4 else 0) +
      (telltales x o).1 := by
  simp [Chan.passCauses]

/-- Settles O35: a verdict is the row of Table 05-5 that its pass falls under, and each row is one kind of verdict carried out. -/
theorem theVerdictFollowsItsTable : Obligations.the_verdict_follows_its_table := by
  intro c layer occ s o x r ceil sat tell causes hocc hready hst hstops
  obtain ⟨rfl, rfl⟩ := key_of_occ? hocc
  have heq := execVerdict_eq hocc hready hst
  refine ⟨_, heq, execVerdict_besides _ _ _ _ _ heq, execVerdict_clock _ _ _ _ _ heq, store_afterVerdict hstops hst hocc _, ?_⟩
  intro first entered mismatches holds replays commits
  have hentered : ∀ l code, s.tookVerdict c o l code → entered l code := by
    rintro l code ⟨e, hl, hcode, hcount, hparam⟩
    exact ⟨e, hl, hcode, hcount, hparam.trans (congrArg (BitVec.ofNat 8) (passCauses_eq x o))⟩
  have hholds : ∀ code, x.passVerdict o = .hold code → holds code := by
    intro code hv
    obtain ⟨-, hgone, hfor, l, hl, hlog⟩ := afterVerdict_hold (o := o) hstops hst code
    rw [← hv] at hgone hfor hlog
    exact ⟨hgone, hfor, l, hentered _ _ hl, hlog⟩
  have hreplays : ∀ rung relocated, x.passVerdict o = .replay rung relocated → replays rung relocated := by
    intro rung relocated hv
    obtain ⟨-, hlog, hposts, hnext⟩ := afterVerdict_replay hstops hocc rung relocated
    rw [← hv] at hlog hposts hnext
    exact ⟨hentered _ _ hlog, hposts, _, hnext, rfl, rfl, rfl, rfl, rfl, rfl, rfl, bne_iff_ne, rfl⟩
  have hcommits : x.passVerdict o = .commit → commits := by
    intro hv
    obtain ⟨-, hfree, hm, hctl, hgone, hclusters, hposts, hnoted⟩ := afterVerdict_commit (o := o) hstops
    rw [← hv] at hfree hm hctl hgone hclusters hposts hnoted
    refine ⟨hfree, hctl, fun hnone => ?_, hgone, hclusters, hposts, hnoted⟩
    have hsame : s.afterMismatches c o = s := logMismatches_of_none s c _ hnone
    exact ⟨hm.trans (congrArg State.m hsame), congrArg (fun t => (t.ch c).ctl) hsame⟩
  refine ⟨fun hnext => ⟨logNext_logMismatches s c o _ hnext, fun y => mem_log_logMismatches s c o _⟩,
    fun hs => hholds _ (passVerdict_of_suspect hs), fun hs ht htold => hholds _ (passVerdict_of_told hs ht htold),
    fun hs htold => ⟨fun hot hr => ?_, fun hot hr => ?_, fun hot hc hr => ?_, fun hot hc hr => ?_, fun hot hc => ?_⟩⟩
  · exact hholds _ (passVerdict_at_ceiling hs htold hot hr)
  · exact hreplays _ _ (passVerdict_below_ceiling hs htold hot hr)
  · exact hreplays _ _ ((passVerdict_of_crowsnest hs hot hc).trans (by rw [if_pos hr]))
  · exact hreplays _ _ ((passVerdict_of_crowsnest hs hot hc).trans (by rw [if_neg hr.not_lt]))
  · exact hcommits (passVerdict_of_no_cause hs hot hc)

end Sys2Proof.Machine

/-! THE END OF A RUN (06 R149, R151): what a boundary's steps keep and log before its exit, the entry of LAUNCH, what a granted write of a
command carries out, and the run that a START begins. -/

namespace Sys2Proof.Machine

/-! ### What the steps of a boundary keep (06 Table 06-8) -/

/-- What the end of a run looks at: the image, the iterations done, the yard's divergences and the log. -/
def Chan.runView (x : Chan) : Option Image × Nat × List (Nat × List Byte) × List LogEntry :=
  (x.run.image, x.run.iteration, x.yard.diverged, x.ctl.log)

/-- From `s` to `t` the channel keeps its image, its iterations and its yard's divergences, and logs entries of the moment only. -/
structure State.KeepsRun (c : Ch) (s t : State) : Prop where
  count : t.count = s.count
  image : (t.ch c).run.image = (s.ch c).run.image
  iteration : (t.ch c).run.iteration = (s.ch c).run.iteration
  diverged : (t.ch c).yard.diverged = (s.ch c).yard.diverged
  log : ∀ y ∈ (t.ch c).ctl.log, y ∈ (s.ch c).ctl.log ∨ y.count = s.count

namespace State.KeepsRun
variable {c : Ch} {s t u : State}

theorem refl (c : Ch) (s : State) : s.KeepsRun c s := ⟨rfl, rfl, rfl, rfl, fun _ => .inl⟩

theorem foldl {α : Type} {f : State → α → State} (hf : ∀ (t : State) (a : α), s.KeepsRun c t → s.KeepsRun c (f t a)) (l : List α)
    (h : s.KeepsRun c t) : s.KeepsRun c (l.foldl f t) := by
  induction l generalizing t with
  | nil => exact h
  | cons a l ih => exact ih (hf t a h)

theorem ite {p : Prop} [Decidable p] (ht : s.KeepsRun c t) (hu : s.KeepsRun c u) : s.KeepsRun c (if p then t else u) := by
  split
  · exact ht
  · exact hu

theorem onCh {f : Chan → Chan} (hf : ∀ x, (f x).runView = x.runView) (h : s.KeepsRun c t) : s.KeepsRun c (t.onCh c f) := by
  have hview : ((t.onCh c f).ch c).runView = (t.ch c).runView := by rw [ch_onCh_same, hf]
  simp only [Chan.runView, Prod.mk.injEq] at hview
  obtain ⟨himage, hiteration, hdiverged, hlog⟩ := hview
  exact ⟨h.count, himage.trans h.image, hiteration.trans h.iteration, hdiverged.trans h.diverged, fun y hy => h.log y (hlog ▸ hy)⟩

theorem onRun {f : Run → Run} (hf : ∀ r, (f r).image = r.image ∧ (f r).iteration = r.iteration) (h : s.KeepsRun c t) :
    s.KeepsRun c (t.onRun c f) := by
  refine h.onCh (fun x => ?_)
  obtain ⟨himage, hiteration⟩ := hf x.run
  simp only [Chan.runView, himage, hiteration]

theorem onWatch (f : Watch → Watch) (h : s.KeepsRun c t) : s.KeepsRun c (t.onWatch c f) := h.onCh (fun _ => rfl)

theorem onSup (f : Supply → Supply) (h : s.KeepsRun c t) : s.KeepsRun c (t.onSup c f) := h.onCh (fun _ => rfl)

theorem onRegion (r : Rg) (f : Region → Region) (h : s.KeepsRun c t) : s.KeepsRun c (t.onRegion c r f) := h.onSup _

theorem logNum (source code layer occ gauges pass causes engine param : Nat) (h : s.KeepsRun c t) :
    s.KeepsRun c (t.logNum c source code layer occ gauges pass causes engine param) := by
  refine ⟨(count_eq_of_clock (logNum_clock ..)).trans h.count, ?_, ?_, ?_, fun y hy => ?_⟩
  · simpa using h.image
  · simpa using h.iteration
  · simpa using h.diverged
  · rw [ch_logNum] at hy
    rcases mem_log_withEntry hy with rfl | hold
    · exact .inr h.count
    · exact h.log y hold

theorem startRung (layer rc : Nat) (h : s.KeepsRun c t) : s.KeepsRun c (t.startRung c layer rc) := by
  unfold State.startRung
  exact .ite (h.onWatch _) (.ite h (.ite ((h.onWatch _).logNum ..) (h.onWatch _)))

theorem stepExponent (layer rc : Nat) (stats : Tab (Option Int × Bool)) (h : s.KeepsRun c t) :
    s.KeepsRun c (t.stepExponent c layer rc stats) := by
  unfold State.stepExponent
  exact .ite (.ite h ((h.onWatch _).logNum ..)) h

theorem stepEnd (i : Image) (h : s.KeepsRun c t) : s.KeepsRun c (t.stepEnd c i) := by
  unfold State.stepEnd
  extract_lets numbered rungs unmarked counted
  have hnumbered : s.KeepsRun c numbered := h.onRun (fun _ => ⟨rfl, rfl⟩)
  have hrungs : s.KeepsRun c rungs := .foldl (fun _ _ h => h.startRung ..) _ hnumbered
  have hcounted : s.KeepsRun c counted := .ite ((hrungs.onWatch _).onWatch _) (hrungs.onWatch _)
  split
  · exact hcounted
  · exact .onWatch _ (.foldl (fun _ _ h => h.stepExponent ..) _ hcounted)

theorem average (k : Committed) (h : s.KeepsRun c t) : s.KeepsRun c (t.average c k) := by
  unfold State.average
  exact h.onWatch _

theorem averages (h : s.KeepsRun c t) : s.KeepsRun c (t.averages c) := by
  unfold State.averages
  exact .onWatch _ (.foldl (fun _ k h => h.average k) _ h)

theorem settingsNow (h : s.KeepsRun c t) : s.KeepsRun c (t.onCh c Chan.settingsNow) := h.onCh (fun _ => rfl)

theorem legRegions (i : Image) (leg : Nat) (h : s.KeepsRun c t) : s.KeepsRun c (t.legRegions c i leg) := by
  unfold State.legRegions
  exact .ite (.foldl (fun _ _ h => .ite h (.ite (.ite h (h.onRegion ..)) (h.onRegion ..))) _ h) h

theorem legDone (i : Image) (next : Nat) (h : s.KeepsRun c t) : s.KeepsRun c (t.legDone c i next) := by
  unfold State.legDone
  extract_lets leg noted placed ended
  have hplaced : s.KeepsRun c placed :=
    (h.onWatch _).onRun (fun r => ⟨foldl_keeps Run.image (fun _ _ => by rfl) _ r, foldl_keeps Run.iteration (fun _ _ => by rfl) _ r⟩)
  have hended : s.KeepsRun c ended := .ite (hplaced.stepEnd i) hplaced
  exact hended.onRun (fun _ => ⟨rfl, rfl⟩)

end State.KeepsRun

/-! ### The boundary after the last leg of the last iteration (06 R151) -/

section Boundary
variable {s : State} {c : Ch} {i : Image}

theorem divergenceDue_of_no_divergence {y : Yard} (h : y.diverged = []) : y.divergenceDue = none := by
  simp [Yard.divergenceDue, h]

/-- After the last leg the work is done and the iteration counted; with nothing diverged the boundary then ends as the count says. -/
theorem boundary_of_last_leg (hlast : (s.ch c).run.leg + 1 = i.legCount) (hdiverged : (s.ch c).yard.diverged = []) :
    ∃ t u : State, s.KeepsRun c t ∧ s.boundary c i = u.legExit c i true none ∧ u.count = t.count ∧ (u.ch c).ctl = (t.ch c).ctl ∧
      (u.ch c).run.image = (t.ch c).run.image ∧ (u.ch c).run.iteration = ((t.ch c).run.iteration + 1) % 2 ^ 32 := by
  have hkeeps := ((State.KeepsRun.refl c s).legDone i 0).averages.settingsNow.legRegions i 0
  unfold State.boundary
  simp only [hlast, decide_true, if_true]
  generalize State.legRegions _ c i 0 = t at hkeeps ⊢
  have hnone : ((t.iterationDone c).ch c).yard.divergenceDue = none :=
    divergenceDue_of_no_divergence (by simpa [State.iterationDone] using hkeeps.diverged.trans hdiverged)
  rw [hnone]
  exact ⟨t, _, hkeeps, rfl, rfl, by simp [State.iterationDone], by simp [State.iterationDone], by simp [State.iterationDone]⟩

/-- A channel whose iterations are done logs RUN_COMPLETE and is READY. -/
theorem legExit_of_run_complete (hne : i.iterations ≠ 0) (hdone : (s.ch c).run.iteration = i.iterations) :
    s.legExit c i true none =
      ((s.onRun c (fun r => { r with holdRequested := false })).log c 0 0x0601 [(4, i.iterations)]).setChState c .ready := by
  simp [State.legExit, hne, hdone]

/-- The boundary of a leg that is done is carried out. -/
theorem exec_legBoundary_of_done (himage : (s.ch c).run.image = some i) (hdone : (s.ch c).legDone = true) :
    exec (.legBoundary c) s = .next (s.boundary c i) := by
  change execLegBoundary c s = _
  simp [execLegBoundary, himage, hdone]

@[simp] theorem ch_log (source code : Nat) (ps : List Param) :
    let e : LogEntry := { count := s.count, source := source, code := code, param := paramBytes ps, order := source }
    (s.log c source code ps).ch c =
      { s.ch c with ctl := (s.ch c).ctl.withEntry e, host := { (s.ch c).host with evt := (s.ch c).host.evt.note e } } := ch_logAs ..

@[simp] theorem ch_setChState (st : ChState) : ((s.setChState c st).ch c) =
    { s.ch c with ctl := { (s.ch c).ctl with st := st, service := (s.ch c).serviceNow s.count, serviceFrom := s.count } } := by
  simp [State.setChState, Chan.serviceNow]

end Boundary

/-! ### Commands that are granted (12 R288 to R293) -/

section Granted
variable {s : State} {via : Via} {index sub : Nat} {value : List Byte} {e : Entry}

/-- A request that passes its checks names its entry. -/
theorem check_of_status_zero {r : Request} (h : (s.check via r).1 = 0) (he : entry? r.index r.sub = some e) :
    s.check via r = (0, some e) := by
  unfold State.check at h ⊢
  simp only [he] at h ⊢
  split_ifs at h ⊢
  exact Prod.ext h rfl

/-- A granted write of a command entry that is no CHANNEL_CMD is carried out and answered with ST_OK. -/
theorem put_of_granted (h : s.granted via index sub 0 value) (he : entry? index sub = some e) (hcmd : e.cmd = true)
    (htxn : index ≠ 0xf000) (hwake : sub ≠ 0xf) (hset : (e.set s via 0 value).1 = 0) :
    s.put via index sub 0 value = .next ((e.set s via 0 value).2.send (.answer via 0 [])) := by
  obtain ⟨hhears, hcheck, -⟩ := h
  have hpass := check_of_status_zero hcheck he
  have haccept : s.accept via (writeReq index sub 0 value) e = (0, [], (e.set s via 0 value).2) := by
    simp [State.accept, writeReq, htxn, hcmd, hset]
  have hanswer : ∀ t : State, t.wakeWaits (writeReq index sub 0 value) 0 = none := by
    intro t
    unfold State.wakeWaits
    split
    · exact if_neg (by simp [writeReq, hwake])
    · rfl
  simp [State.put, State.serve, hhears, State.carry, State.request, hpass, haccept, hanswer, State.reply]

end Granted

/-! ### LAUNCH START (06 R149) -/

/-- LAUNCH of a channel: START or RESUME, as the object dictionary lists it. -/
def launchEntry (c : Ch) : Entry :=
  wo .wo 0 0x03 1 (fun v => v == 1 || v == 2)
    (fun s v => if v = 1 then (if (s.ch c).startBeyond then 4 else stateIf (s.mayStart c)) else stateIf (s.mayResume c))
    (fun s v => if v = 1 then s.startRun c else s.resumeRun c)

theorem chanOfIndex_baseP (c : Ch) : chanOfIndex (baseP c) = some c := by
  revert c
  decide

theorem chanEntries_baseP (c : Ch) : chanEntries c (baseP c) = (baseP c, pEntries c) := by
  have hc := c.isLt
  have hlo : 0x6000 ≤ baseP c := Nat.le_add_right ..
  have hhi : baseP c < 0x7000 := by unfold baseP; omega
  rw [chanEntries, if_neg (by omega), if_neg (by omega), if_neg (by omega), if_pos hhi]
  rfl

theorem entry?_launch (c : Ch) : entry? (baseP c) 3 = some (launchEntry c) := by
  simp [entry?, allAt, entriesAt, chanOfIndex_baseP, chanEntries_baseP, pEntries, roN, wo, launchEntry]

@[simp] theorem ctl_reefDecide (s : State) (c : Ch) : ((s.reefDecide c).ch c).ctl = (s.ch c).ctl := by
  unfold State.reefDecide
  split <;> simp

@[simp] theorem run_reefDecide (s : State) (c : Ch) : ((s.reefDecide c).ch c).run = (s.ch c).run := by
  unfold State.reefDecide
  split <;> simp

theorem st_startRun (s : State) (c : Ch) : ((s.startRun c).ch c).ctl.st = .running := by simp [State.startRun]

theorem leg_startRun (s : State) (c : Ch) : ((s.startRun c).ch c).run.leg = (s.ch c).run.startLeg := by simp [State.startRun]

theorem iteration_startRun (s : State) (c : Ch) : ((s.startRun c).ch c).run.iteration = (s.ch c).run.iteration := by
  simp [State.startRun]

/-- A granted START begins the run. -/
theorem start_of_granted {s : State} {via : Via} {c : Ch} (h : s.granted via (baseP c) 3 0 [1]) :
    s.answered via (.start via c) (s.startRun c) :=
  put_of_granted h (entry?_launch c) rfl (by have := c.isLt; unfold baseP; omega) (by decide) rfl

/-- Settles O7: up to its exit a boundary keeps the image and logs entries of the moment only, so that with the last iteration counted it
ends the run; a granted START carries out `startRun`, which begins at START_LEG and leaves ITERATION. -/
theorem theRunEndsAfterItsLastIteration : Obligations.the_run_ends_after_its_last_iteration := by
  intro c s i x himage hdone hlast hne hbound hiteration hdiverged
  obtain ⟨t, u, hkeeps, hboundary, hcount, hctl, hkept, hcounted⟩ := boundary_of_last_leg hlast hdiverged
  have hn : (u.ch c).run.iteration = i.iterations := by
    rw [hcounted, hkeeps.iteration, hiteration, Nat.mod_eq_of_lt hbound]
  rw [legExit_of_run_complete hne hn] at hboundary
  refine ⟨_, (exec_legBoundary_of_done himage hdone).trans (congrArg _ hboundary), by simp, ?_, by simpa using hn, ?_, ?_⟩
  · simpa [hkept] using hkeeps.image.trans himage
  · refine ⟨(u.ch c).ctl.log, { count := u.count, source := 0, code := 0x0601, param := paramBytes [(4, i.iterations)], order := 0 },
      by simp, rfl, hcount.trans hkeeps.count, rfl, fun y hy => hkeeps.log y ?_⟩
    rwa [← hctl]
  · intro via hgranted
    exact ⟨_, start_of_granted hgranted, st_startRun .., leg_startRun .., iteration_startRun ..⟩

end Sys2Proof.Machine
